-- ==== Sys2Proof/Word.lean ====
section
/-!
DEFINITION. The plain words of the die (R10): 32-bit register words, bytes, and their little-endian
arrangement. Nothing here is specific to one block.
-/

namespace Sys2Proof

/-- A register word of the die (R287: every register access covers one 32-bit register). -/
abbrev Word := BitVec 32

/-- One byte (R10). -/
abbrev Byte := BitVec 8

end Sys2Proof
end

