-- ==== Sys2Proof/Wire.lean ====
section
/-!
DEFINITION. What crosses the bonded face and the side-band, as operands of commands (R4, R282 to R291):
who made a register access, a window write, what the hub answers to the reads inside one step, what an
error-correcting code or a training run observed. Plain data only.
-/

namespace Sys2Proof

/-- A register access or doorbell from the hub (R282, R287): the port it arrived on, the header fields
that its response echoes, its privilege level, and whether it came as a doorbell MSG (R289). -/
structure Access where
  port   : Fin 32
  tag    : BitVec 12
  stream : BitVec 4
  srcpos : BitVec 4
  srcpkg : Byte
  /-- PRIV of R282; 11b is treated like a level that is not permitted (R324). -/
  priv   : BitVec 2
  /-- The access is a doorbell message: it is answered by a MACK and not by an RGWA. -/
  msg    : Bool
  deriving DecidableEq, Repr

/-- What the hub answers to the package-memory reads that one step makes (R140, R346, R409, R413,
R424, R444): the bytes of package memory, and for a read that starts at an address the STATUS codes of
its successive attempts (none listed: 00h). A byte that is not listed is answered as 00h. -/
structure HubView where
  bytes  : List (Nat × Byte)
  status : List (Nat × List Byte)
  deriving DecidableEq, Repr

/-- What the code that protects a store or path finds in one access (R393): nothing, an error that it
corrects, an error that it cannot correct in data, or one in control state (R396). -/
inductive Ecc where
  | clean
  | corrected
  | uncorrectable
  | control
  deriving DecidableEq, Repr

/-- A window write as it arrives at a port (R286): header fields and the 64 data bytes. -/
structure WinWrite where
  port   : Fin 32
  tag    : BitVec 12
  stream : BitVec 4
  /-- ADDR[35:0], the window offset of R244. -/
  offset : BitVec 36
  /-- ADDR[51:36]: region, package and position, which the die does not check (R293). -/
  addrHi : BitVec 16
  fmt    : BitVec 4
  srcpos : BitVec 4
  srcpkg : Byte
  data   : List Byte
  deriving DecidableEq, Repr

/-- What a receiver of a training port observed in the state that ends (R269, R270). A bond is lane × 64 + bond, with
bond 0 to 31 data, 32 PAR, 33 SPR, 34 STB; what is not listed was received as sent. -/
structure TrainObs where
  /-- Lanes whose strobe was not detected or did not lock. -/
  lost    : List (Fin 33)
  /-- Passing window of a bond's sample points in ps, as DESKEW found it. -/
  windows : List (Nat × Nat)
  /-- Bits of a bond that TEST received at its sample point, from the first UI. -/
  samples : List (Nat × List Bool)
  /-- Levels of the hub's management bonds at the end of the state (R265). -/
  pwakeI  : Bool
  paliveI : Bool
  deriving DecidableEq, Repr

/-- A training that found nothing amiss. -/
def TrainObs.good : TrainObs := { lost := [], windows := [], samples := [], pwakeI := false, paliveI := true }

/-- A whole training of one port as its receiver saw it (R269): what it observed up to TEST, the hub's TS1 and TS2, and
whether the alignment flit came on every active lane. -/
structure PortTrain where
  port    : Fin 32
  obs     : TrainObs
  ts1     : List Byte
  ts2     : List Byte
  aligned : Bool
  deriving DecidableEq, Repr

/-- A transaction header that arrived, as the five words of R282, for the protocol checks of R297. -/
structure HdrWords where
  w0 : Word
  w1 : Word
  w2 : Word
  w3 : Word
  w4 : Word
  deriving DecidableEq, Repr

/-- A voltage or clock island (R34): a cluster island, the mesh island or the control island. -/
inductive IslandId where
  | cluster (c : Fin 320)
  | mesh
  | control
  deriving DecidableEq, Repr

/-- Which test of the boundary fails (R446): its number in the order of that rule, and whether it is one of the
entropy health tests. -/
inductive SelfTestResult where
  | pass
  | fail (test : Nat)
  | entropy (test : Nat)
  deriving DecidableEq, Repr

/-- Outcome of the store self-test of one die (R467): rows repaired in each bank that needed any, as
(cluster × 48 + bank, rows), and whether a core store failed. -/
structure StoreTestObs where
  repaired : List (Nat × Nat)
  coreFail : Bool
  deriving DecidableEq, Repr

/-- What the die observes while ports 0 to 31 train in order (R311, R466). -/
structure ContObs where
  /-- Continuity loops that failed: port and number. -/
  failed : List (Fin 32 × BitVec 6)
  /-- Trainings of ports; of a port that is not listed, one with nothing amiss, and with the credits that R280 asks of the
  hub at least. -/
  trains : List PortTrain
  /-- Ports at which the hub does not answer a training. -/
  down   : List (Fin 32)
  deriving DecidableEq, Repr

/-- What the die observes in a training for readmission (R311): the reference copies that it receives, and its ports. -/
structure ReadmitObs where
  copies : BitVec 4
  ports  : ContObs
  deriving DecidableEq, Repr

/-- A rise of a port's PWAKE_I (R274), with the level of PALIVE_I beside it (R265). -/
structure PwakeEdge where
  port   : Fin 32
  palive : Bool
  deriving DecidableEq, Repr

/-- What one access to operand memory brings (R222): an element's index of the line, or the scale byte of a block. -/
inductive FeedPart where
  | element (i : Nat)
  | scale (b : Nat)
  deriving DecidableEq, Repr

/-- A row of a bank as the bank reads it (R254, R393), with what its code finds. -/
structure BankRow where
  bank : Fin 48
  row  : Fin 512
  ecc  : Ecc
  deriving DecidableEq, Repr

/-- An instruction of the IEEE 1838 test access port (R305). -/
inductive TapInstr where
  | bypass
  | idcode
  | extest
  | other (n : Nat)
  deriving DecidableEq, Repr

/-- A scan through the test access port (R305): the bits shifted in through a register of one bit each per entry; what
the signal bonds carry as EXTEST captures them, as the cells at 1; and the cells that the shift leaves at 1. -/
structure TapScan where
  bits  : List Bool
  bonds : List Nat
  cells : List Nat
  deriving DecidableEq, Repr

/-- An instruction as it is loaded, with the scan through its register that follows (R305). -/
structure TapLoad where
  instr : TapInstr
  scan  : TapScan
  deriving DecidableEq, Repr

/-- What starts a cold reset (R306). -/
inductive ColdCause where
  | powerGoodRise
  | powerGoodFall
  | powerGoodDisagree
  deriving DecidableEq, Repr

/-- One time base frame of R300 as received: the sync word, the value T and the CRC field. -/
structure TFrame where
  sync : BitVec 16
  t    : BitVec 64
  crc  : BitVec 16
  deriving DecidableEq, Repr

end Sys2Proof
end

