-- ==== Sys2Proof/Syntax.lean ====
section
/-!
DEFINITION. The commands of the block: one constructor for each row of spec/opcode_table.json, in the
table's order, with the operands that the rule named there gives it. The docstring of a constructor
names the rule. A `q` is a queue, a `core` a die-wide core (R18), an `op` the model's serial number of
an accepted descriptor in flight, a `view` what the hub answers to the reads inside the step, and `v`
the 32-bit value of a register write.
-/

namespace Sys2Proof

inductive Instr where
  -- acceptance of descriptors
  /-- R142 -/ | matmul (q : Fin 16) (view : HubView)
  /-- R145 -/ | conv (q : Fin 16) (view : HubView)
  /-- R149 -/ | batched (q : Fin 16) (view : HubView)
  /-- R210 -/ | elementwise (q : Fin 16) (view : HubView)
  /-- R153 -/ | move (q : Fin 16) (view : HubView)
  /-- R249 -/ | windowWrite (q : Fin 16) (view : HubView)
  /-- R251 -/ | waitCount (q : Fin 16) (view : HubView)
  /-- R289 -/ | signal (q : Fin 16) (view : HubView)
  /-- R433 -/ | fence (q : Fin 16) (view : HubView)
  /-- R417 -/ | secureState (q : Fin 16) (view : HubView)
  /-- R409 -/ | journalMark (q : Fin 16) (view : HubView)
  /-- R424 -/ | restoreCheck (q : Fin 16) (view : HubView)
  /-- R259 -/ | scrub (q : Fin 16) (view : HubView)
  -- the descriptor read and the end of an operation
  /-- R339 -/ | descriptorRead (q : Fin 16)
  /-- R342 -/ | operationCompletion (op : Nat)
  -- core and drain events
  /-- R222: the access that brings a part of line `line` of operand B (`sideB`) or A. -/
  | feederFetch (core : Fin 81920) (sideB : Bool) (line : Nat) (part : FeedPart) (ecc : Ecc)
  /-- R99 -/ | passStart (core : Fin 81920)
  /-- R111 -/ | blockPromotion (core : Fin 81920)
  /-- R124 -/ | tileComplete (core : Fin 81920)
  /-- R177 -/ | slugEnqueue (core : Fin 81920)
  /-- R207 -/ | slugDrain (core : Fin 81920) (ecc : Ecc)
  /-- R196 -/ | tileBufferFill (core : Fin 81920) (buf : Fin 4) (seg : Fin 4)
  /-- R203 -/ | recastWrite (core : Fin 81920)
  /-- R204 -/ | slugCommit (core : Fin 81920)
  -- banks, tags and windows
  /-- R214: the `idx`-th access waiting in the cluster's crossbar for the bank. -/
  | bankAccess (cluster : Fin 320) (bank : Fin 48) (idx : Nat) (ecc : Ecc)
  /-- R238 -/ | parkedAccessServe (cluster : Fin 320) (bank : Fin 48)
  /-- R239 -/ | tagTimeout (cluster : Fin 320) (bank : Fin 48) (idx : Nat)
  /-- R254; what the read of R393 finds in a row of a bank that wakes from keep. -/
  | bankWakeDone (cluster : Fin 320) (row : BankRow)
  /-- R254 -/ | bankKeepReturn (cluster : Fin 320) (bank : Fin 48)
  /-- R256 -/ | closeTimeout (cluster : Fin 320) (bank : Fin 48)
  /-- R393 -/ | patrolScrub (cluster : Fin 320) (bank : Fin 48) (row : Fin 512) (ecc : Ecc)
  /-- R252 -/ | windowCloseComplete (cluster : Fin 320) (handle : Fin 64)
  /-- R251 -/ | waitCountTimeout (op : Nat)
  /-- R245: a write of WIN_OPEN0 or WIN_OPEN1. -/
  | winOpen (a : Access) (cluster : Fin 320) (word : Fin 2) (v : Word)
  /-- R225 -/ | tagReset (a : Access) (cluster : Fin 320) (v : Word)
  -- transactions from the hub
  /-- R246 -/ | wwr (w : WinWrite)
  /-- R246 -/ | wwa (w : WinWrite)
  /-- R288 -/ | rdr (port : Fin 32) (tag : BitVec 12) (status : Byte) (data : List Byte)
  /-- R285 -/ | atr (port : Fin 32) (tag : BitVec 12) (status : Byte) (data : List Byte)
  /-- R286 -/ | wack (port : Fin 32) (tag : BitVec 12) (status : Byte)
  /-- R289 -/ | mack (port : Fin 32) (tag : BitVec 12) (status : Byte)
  /-- R291 -/ | flack (port : Fin 32) (tag : BitVec 12) (status : Byte)
  /-- R290 -/ | huberr (port : Fin 32) (hdr : HdrWords)
  -- the link layer
  /-- R275: 64 flit bytes and the CRC-16 received on PAR, on a lane. -/
  | headerFlitReceive (port : Fin 32) (lane : Fin 33) (flit : List Byte) (crc : BitVec 16)
  /-- R279 -/ | replayRequest (port : Fin 32) (ack : BitVec 12)
  /-- R269 -/ | portTrainingStart (port : Fin 32)
  /-- R269 -/ | trainingStateEnd (port : Fin 32) (obs : TrainObs)
  /-- R271 -/ | tsFlitReceive (port : Fin 32) (lane : Fin 33) (flit : List Byte) (crc : BitVec 16)
  /-- R274; with the level of PALIVE_I (R265) -/ | pwakeIRise (edge : PwakeEdge)
  /-- R274 -/ | strobeLoss (port : Fin 32) (lane : Fin 33)
  -- register writes
  /-- R287 -/ | rgwr (a : Access) (off : BitVec 28) (v : Word)
  /-- R338 -/ | dbTailWrite (a : Access) (q : Fin 16) (v : Word)
  /-- R338 -/ | cplHeadWrite (a : Access) (q : Fin 16) (v : Word)
  /-- R337 -/ | ringLoWrite (a : Access) (q : Fin 16) (v : Word)
  /-- R337 -/ | cplLoWrite (a : Access) (q : Fin 16) (v : Word)
  /-- R344 -/ | queueEnable (a : Access) (q : Fin 16) (v : Word)
  /-- R344 -/ | resume (a : Access) (q : Fin 16) (v : Word)
  /-- R331: a write of INT_STATUS of the page at die offset `page`. -/
  | intStatusWrite (a : Access) (page : BitVec 28) (v : Word)
  /-- R331 -/ | intEnableWrite (a : Access) (page : BitVec 28) (v : Word)
  /-- R331 -/ | intvCtrlWrite (a : Access) (vec : Fin 32) (v : Word)
  /-- R325 -/ | errCauseClear (a : Access) (page : BitVec 28) (v : Word)
  /-- R129 -/ | fxStatusClear (a : Access) (cluster : Fin 320) (v : Word)
  /-- R130 -/ | rescueLogClear (a : Access) (cluster : Fin 320) (v : Word)
  /-- R348 -/ | pageCommit (a : Access) (page : BitVec 28) (v : Word)
  /-- R347 -/ | shadowDiscard (a : Access) (page : BitVec 28) (v : Word)
  /-- R352 -/ | dieCommit (a : Access) (v : Word)
  /-- R349: the page at die offset `page` adopts. -/
  | commitAdoption (page : BitVec 28)
  /-- R295 -/ | portRetrainRequest (a : Access) (port : Fin 32) (v : Word)
  /-- R299 -/ | positionWrite (a : Access) (v : Word)
  /-- R358 -/ | testctlUnlock (a : Access) (v : Word)
  /-- R357 -/ | tInjArm (a : Access) (page : BitVec 28) (v : Word)
  /-- R360 -/ | tQuadWrite (a : Access) (cluster : Fin 320) (v : Word)
  -- latching reads
  /-- R300 -/ | nowLoRead (a : Access)
  /-- R364 -/ | energyLoRead (a : Access) (cluster : Fin 320)
  /-- R377 -/ | ticketLoRead (a : Access) (t : Fin 64)
  /-- R377 -/ | unticketedLoRead (a : Access)
  -- power and journal registers
  /-- R366 -/ | measSeqWrite (a : Access) (v : Word)
  /-- R375 -/ | ticketRelease (a : Access) (v : Word)
  /-- R374 -/ | learnClear (a : Access) (v : Word)
  /-- R409 -/ | journalEnable (a : Access) (v : Word) (view : HubView)
  /-- R407 -/ | retireWrite (a : Access) (q : Fin 16) (v : Word)
  /-- R416 -/ | replayCmdStart (a : Access) (v : Word) (view : HubView)
  /-- R413 -/ | replayEntry (view : HubView)
  /-- R411 -/ | replayInFlight (view : HubView)
  -- securing
  /-- R418 -/ | secureSnapshotPoint (op : Nat)
  /-- R419: the drain of the next slot of the drained side in a cluster. -/
  | secureDrain (op : Nat) (cluster : Fin 320)
  /-- R421 -/ | secureComplete (op : Nat)
  -- groups and peers
  /-- R429 -/ | gCtrlForm (a : Access) (v : Word)
  /-- R434 -/ | gCtrlDissolve (a : Access) (v : Word)
  /-- R431 -/ | concordRound (g : Fin 64)
  /-- R432 -/ | concordEvaluate (g : Fin 64)
  /-- R314: position and package of the side signal's value (R289); `a` is the message that carried it. -/
  | peerLost (a : Access) (pos : BitVec 4) (pkg : Byte)
  /-- R315 -/ | peerBack (a : Access) (pos : BitVec 4) (pkg : Byte)
  /-- R289 -/ | peerSpare (a : Access) (pos : BitVec 4) (pkg : Byte)
  /-- R309 -/ | isolate (a : Access)
  /-- R311: the value of GRANT. -/
  | grant (a : Access) (v : BitVec 64)
  /-- R311 -/ | deny (a : Access)
  /-- R289: the source stands in the message's header. -/
  | softwareSideSignal (a : Access) (code : Byte)
  -- clock and time base
  /-- R309: reference copies present afterwards (R298 REFCLK_STAT[3:0]). -/
  | refclkLoss (present : BitVec 4)
  /-- R300 -/ | tbaseFrame (copy : Fin 2) (f : TFrame)
  /-- R311 -/ | readmit
  /-- R311: the reference copies seen, and what the training of the ports observed. -/
  | readmitTrain (obs : ReadmitObs)
  -- side-band
  /-- R302: index 03h (`hi` false) or 04h. -/
  | sbUcodeWrite (hi : Bool) (v : Word)
  /-- R301 -/ | setdasa (addr : BitVec 7)
  /-- R301 -/ | rstdaa
  /-- R301 -/ | enec
  /-- R301 -/ | disec
  /-- R301 -/ | getpid
  /-- R301 -/ | getbcr
  /-- R301 -/ | getdcr
  /-- R301 -/ | getstatus
  /-- R304 -/ | rstact (action : Byte)
  /-- R304 -/ | targetResetPattern
  /-- R305 -/ | tapInstruction (load : TapLoad)
  -- resets and supply
  /-- R306 -/ | coldReset (cause : ColdCause)
  /-- R465 -/ | warmReset
  /-- R307 -/ | vokRise (d : Fin 20)
  /-- R379 -/ | supplyFault (d : Fin 20)
  /-- R379 -/ | vokLate (d : Fin 20)
  /-- R379 -/ | supplyFaultEnd (d : Fin 20)
  /-- R40 -/ | islandStepConfirm (d : Fin 20)
  /-- R371 -/ | controlPeriod
  /-- R373 -/ | emergencyLift
  /-- R368 -/ | calStale
  /-- R378 -/ | droopDetect (island : IslandId)
  /-- R378 -/ | droopQuiet (island : IslandId)
  -- heat and health
  /-- R385: the readings of the sensors in 0.25 °C; `none` for a sensor that gives none. -/
  | thermalSample (readings : List (Option Int))
  /-- R386 -/ | throttleStep (sensor : Fin 64)
  /-- R386 -/ | throttleReleaseStep (sensor : Fin 64)
  /-- R387 -/ | sensorTimeout (sensor : Fin 64)
  /-- R397 -/ | healthEvaluation (view : HubView)
  /-- R381 -/ | islandStillEntry (cluster : Fin 320)
  /-- R381 -/ | islandKeepEntry (cluster : Fin 320)
  /-- R381 -/ | islandWake (cluster : Fin 320)
  /-- R390 -/ | coolstopBond
  /-- R308 -/ | coolstopCcc
  -- mailbox and watchdog
  /-- R474: a write of MB_CMD with code 01h. -/
  | islandReset (a : Access) (v : Word)
  /-- R475 -/ | blockReset (a : Access) (v : Word)
  /-- R476 -/ | shutdown (a : Access) (v : Word) (view : HubView)
  /-- R476 -/ | shutdownFinish
  /-- R474 -/ | watchdogExpiry (cluster : Fin 320)
  -- start-up
  /-- R462: did the two reads of every fuse word agree? -/
  | fuseRead (agree : Bool)
  /-- R446 -/ | stewardBoot (r : SelfTestResult)
  /-- R466 -/ | portsStartup (obs : ContObs)
  /-- R444 -/ | microcodeFetch (view : HubView)
  /-- R467 -/ | storeSelfTest (obs : StoreTestObs)
  /-- R469: do all digests of all passes agree with the microcode's? -/
  | numericSelfTest (agree : Bool)
  /-- R470 -/ | admission
  -- services of the cryptographic boundary
  /-- R450 -/ | selftest (a : Access) (v : Word) (r : SelfTestResult)
  /-- R450 -/ | random (a : Access) (v : Word)
  /-- R447 -/ | attest (a : Access) (v : Word)
  /-- R450 -/ | coChallenge (a : Access) (v : Word)
  /-- R450 -/ | coLogin (a : Access) (v : Word)
  /-- R450 -/ | coLogout (a : Access) (v : Word)
  /-- R442 -/ | loadKey (a : Access) (v : Word)
  /-- R450 -/ | clearKey (a : Access) (v : Word)
  /-- R450 -/ | zeroise (a : Access) (v : Word)
  /-- R450 -/ | fuseOwner (a : Access) (v : Word)
  /-- R450 -/ | raiseSvn (a : Access) (v : Word)
  /-- R450 -/ | kill (a : Access) (v : Word)
  -- protection and audit
  /-- R453 -/ | protApply (a : Access) (v : Word)
  /-- R455 -/ | taskEnd (a : Access) (v : Word)
  /-- R457 -/ | auditRingSizeWrite (a : Access) (v : Word)
  /-- R457 -/ | auditReadWrite (a : Access) (v : Word)
  /-- R287 -/ | rgrd (a : Access) (off : BitVec 28)
  /-- R309 -/ | timeBaseLost
  /-- R446 -/ | entropyHealthTestFailure
  deriving DecidableEq, Repr

end Sys2Proof
end

