-- ==== Sys2Proof/Decode.lean ====
section
/-!
DEFINITION. The commands that a word spells by the opcode table's bits. No row of spec/opcode_table.json
gives bits: commands come as transactions, flits and events, and never as words.
-/

namespace Sys2Proof

/-- The command of a table word: none, since the table gives no row any bits. -/
def decodeTableWord (_nbits _w : Nat) : Option Instr := none

end Sys2Proof
end

