-- ==== Sys2Proof/Config.lean ====
section
/-!
DEFINITION. What an implementation fixes and the free values: constants without a body, so that no proof
can see what they are. Each is named in a log entry of notes/assumptions.
-/

namespace Sys2Proof.Config

/-- A byte that the spec leaves undefined, fresh at every use: the argument is the state's counter
`free` (R472 "every store to undefined", R196). Log entry 3. -/
opaque freeByte : Nat → Byte

/-- A word that the spec leaves open, fresh at every use, as `freeByte` is. Log entry 3. -/
opaque freeWord : Nat → BitVec 32

/-- Deleaken's JEDEC manufacturer code in IDCODE (R305) is not given. Log entry 4. -/
opaque jedecCode : BitVec 11

/-- Deleaken's MIPI manufacturer code in the provisional ID (R301) is not given. Log entry 4. -/
opaque mipiCode : BitVec 15

/-- The 768 raw bits that the entropy source gives at the n-th seeding of the DRBG, counted over every reset (R445). Log
entry 5. -/
opaque entropy : Nat → List Byte

/-- Energy of one event of a kind in units of 1/256 µJ (R365 "fixed per stepping", not given). Log entry 7. -/
opaque eventEnergy : Nat → Nat

/-- Leakage energy of a cluster island in one control period, in 1/256 µJ, from its domain's step, its sensor's
reading in 0.25 °C and its ladder state (R365, R371). Log entry 7. -/
opaque leakage : Nat → Int → Nat → Nat

/-- The same of the mesh island and of the control island, from the readings of all sensors. Log entry 7. -/
opaque meshLeakage : List Int → Nat
opaque controlLeakage : List Int → Nat

/-- Energy of the always-on section in one control period (R371). Log entry 7. -/
opaque alwaysOn : Nat

/-- Does an access qualify for the injection that a page's test region describes (R357 "layout per block", which
no chapter gives)? Page or core key, TARGET, T_INJ_ADDR, place of the access. Log entry 15. -/
opaque injectHits : Nat → Nat → Nat → Nat → Bool

/-- The level at which an injection holds the lane bond that TARGET and T_INJ_ADDR select (R357, R479). Log entry 15. -/
opaque stuckLevel : Nat → Nat → Bool

end Sys2Proof.Config
end

