-- ==== Sys2Proof/Machine/RegTable.lean ====
section
/-!
DEFINITION. The register tables of the manual: for every page of R318 its rows (offset, count, stride,
name, reset value and the bits of each access code of R13), and where the pages lie (R321, R322).
A bit in no mask is read-only or reserved (R13, R14). `ru` is the number of the rule that names the row.
-/

namespace Sys2Proof.Machine

/-- The page types of R318. -/
inductive PageKind where
  | die | steward | impose | queue | hubport | hublink | power | therm | health | journal | secure
  | group | time | sec | audit | prot | digest | erragg | testctl | comp | store | island | coreAccess
  deriving DecidableEq, Repr

/-- One row of a page summary: a register, or `count` registers `stride` bytes apart. -/
structure RegRow where
  /-- Page offset of the first register of the row. -/
  off : Nat
  name : String
  reset : Nat := 0
  count : Nat := 1
  stride : Nat := 4
  /-- Bits with access code RW (R13). -/
  rw : Nat := 0
  /-- Bits with access code RS: written to the shadow copy. -/
  rs : Nat := 0
  w1c : Nat := 0
  w1s : Nat := 0
  wo : Nat := 0
  /-- The register carries an RL field: writes act at privilege level 0 only. -/
  rl : Bool := false
  /-- The rule that names the register. -/
  ru : Nat
  deriving Repr

def m32 : Nat := 0xFFFFFFFF

/-- DIE page (R329, R330, R352). -/
def dieRows : List RegRow := [
  { off := 0x100, name := "EPOCH_CTRL", w1s := 1, ru := 329 },
  { off := 0x104, name := "EPOCH", ru := 352 },
  { off := 0x200, name := "INTV_ADDR_LO", count := 32, stride := 16, rw := 0xFFFFFFF8, ru := 330 },
  { off := 0x204, name := "INTV_ADDR_HI", count := 32, stride := 16, reset := 0xF0000, rw := 0xFFFFF, ru := 330 },
  { off := 0x208, name := "INTV_DATA", count := 32, stride := 16, rw := m32, ru := 330 },
  { off := 0x20C, name := "INTV_CTRL", count := 32, stride := 16, reset := 1, rw := 1, ru := 330 } ]

/-- STEWARD page (R460, R123). -/
def stewardRows : List RegRow := [
  { off := 0x100, name := "BOOT", reset := 1, ru := 460 },
  { off := 0x104, name := "RESET_CAUSE", reset := 1, ru := 460 },
  { off := 0x108, name := "UCODE_VER", ru := 460 },
  { off := 0x10C, name := "REPAIR", ru := 460 },
  { off := 0x110, name := "STEP_T", count := 9, ru := 460 },
  { off := 0x134, name := "STEP_TOTAL", ru := 460 },
  { off := 0x140, name := "WATCHDOG", reset := 0x64, rw := 0xFFFF, ru := 460 },
  { off := 0x180, name := "NUM_MODE", reset := 0x100, rs := 1, rl := true, ru := 123 },
  { off := 0x200, name := "MB_CMD", wo := 0xFF, ru := 460 },
  { off := 0x204, name := "MB_ARG", rw := m32, ru := 460 },
  { off := 0x208, name := "MB_STAT", ru := 460 } ]

/-- IMPOSE page: the chain records (R183). -/
def imposeRows : List RegRow := [
  { off := 0x100, name := "CHAIN_CFG", count := 64, stride := 0x30, rs := 0xFFF, ru := 184 },
  { off := 0x104, name := "CHAIN_BUF", count := 64, stride := 0x30, rs := m32, ru := 185 },
  { off := 0x108, name := "CHAIN_STAGE_0", count := 64, stride := 0x30, rs := m32, ru := 186 },
  { off := 0x10C, name := "CHAIN_STAGE_1", count := 64, stride := 0x30, rs := m32, ru := 186 },
  { off := 0x110, name := "CHAIN_STAGE_2", count := 64, stride := 0x30, rs := m32, ru := 186 },
  { off := 0x114, name := "CHAIN_STAGE_3", count := 64, stride := 0x30, rs := m32, ru := 186 },
  { off := 0x118, name := "CHAIN_STAGE_4", count := 64, stride := 0x30, rs := m32, ru := 186 },
  { off := 0x11C, name := "CHAIN_STAGE_5", count := 64, stride := 0x30, rs := m32, ru := 186 },
  { off := 0x120, name := "CHAIN_STAGE_6", count := 64, stride := 0x30, rs := m32, ru := 186 },
  { off := 0x124, name := "CHAIN_STAGE_7", count := 64, stride := 0x30, rs := m32, ru := 186 },
  { off := 0x128, name := "CHAIN_K0", count := 64, stride := 0x30, rs := m32, ru := 183 },
  { off := 0x12C, name := "CHAIN_K1", count := 64, stride := 0x30, rs := m32, ru := 183 } ]

/-- QUEUE pages (R334, R155). -/
def queueRows : List RegRow := [
  { off := 0x100, name := "RING_LO", rw := 0xFFFFFFC0, ru := 334 },
  { off := 0x104, name := "RING_HI", rw := 0xFFFFF, ru := 334 },
  { off := 0x108, name := "RING_SIZE", reset := 4, rw := 0x1F, ru := 334 },
  { off := 0x10C, name := "DB_TAIL", rw := m32, ru := 334 },
  { off := 0x110, name := "HEAD", ru := 334 },
  { off := 0x120, name := "CPL_LO", rw := 0xFFFFFFC0, ru := 334 },
  { off := 0x124, name := "CPL_HI", rw := 0xFFFFF, ru := 334 },
  { off := 0x128, name := "CPL_SIZE", reset := 4, rw := 0x1F, ru := 334 },
  { off := 0x12C, name := "CPL_TAIL", ru := 334 },
  { off := 0x130, name := "CPL_HEAD", rw := m32, ru := 334 },
  { off := 0x140, name := "CLUSTER_SET", reset := 0x01400000, rs := 0x01FF01FF, ru := 155 },
  { off := 0x144, name := "SEQ", rw := m32, rl := true, ru := 334 },
  { off := 0x148, name := "LAST_SEQ", ru := 334 } ]

/-- HUBPORT pages (R295). -/
def hubportRows : List RegRow := [
  { off := 0x100, name := "PORT_STATE", reset := 0x003F3F0F, ru := 295 },
  { off := 0x104, name := "PORT_CTRL", rw := 6, w1s := 1, ru := 295 },
  { off := 0x108, name := "RETRAIN_TH", reset := 0x0003E810, rw := 0xFFFFFF, ru := 295 },
  { off := 0x10C, name := "CONT", ru := 295 },
  { off := 0x110, name := "REPAIR_IN", count := 8, reset := 0x3F3F3F3F, ru := 295 },
  { off := 0x130, name := "REPAIR_IN8", reset := 0x3F3F, ru := 295 },
  { off := 0x140, name := "REPAIR_OUT", count := 8, reset := 0x3F3F3F3F, ru := 295 },
  { off := 0x160, name := "REPAIR_OUT8", reset := 0x3F3F, ru := 295 },
  { off := 0x170, name := "CRC_ERR", ru := 295 },
  { off := 0x174, name := "REPLAYS", ru := 295 },
  { off := 0x178, name := "RETRAINS", ru := 295 },
  { off := 0x17C, name := "LANE_SEL", rw := 0x3F, ru := 295 },
  { off := 0x180, name := "LANE_ERR", ru := 295 },
  { off := 0x184, name := "CREDIT", count := 4, ru := 295 } ]

/-- HUBLINK page (R298). -/
def hublinkRows : List RegRow := [
  { off := 0x100, name := "PORTS_UP", ru := 298 },
  { off := 0x104, name := "ISO_CAUSE", w1c := 0xF, ru := 298 },
  { off := 0x108, name := "POSITION", reset := 0xFF00, rw := 0xF, rl := true, ru := 298 },
  { off := 0x10C, name := "ADMIT", ru := 298 },
  { off := 0x110, name := "PEER_STATE", ru := 298 },
  { off := 0x114, name := "PEER_EVENTS", ru := 298 },
  { off := 0x118, name := "SIDESIG", ru := 298 },
  { off := 0x11C, name := "SIDESIG_COUNT", ru := 298 },
  { off := 0x120, name := "REFCLK_STAT", ru := 298 } ]

/-- TIME page (R300). -/
def timeRows : List RegRow := [
  { off := 0x100, name := "NOW_LO", ru := 300 },
  { off := 0x104, name := "NOW_HI", ru := 300 },
  { off := 0x108, name := "STAT", ru := 300 },
  { off := 0x10C, name := "FRAME_ERR", ru := 300 },
  { off := 0x110, name := "LAST_STEP", ru := 300 } ]

/-- POWER page (R377). -/
def powerRows : List RegRow := [
  { off := 0x100, name := "CAP", reset := 0x3D4, rw := 0x3FF, ru := 377 },
  { off := 0x104, name := "CAP_LIMIT", reset := 0x3D4, rw := 0x3FF, rl := true, ru := 377 },
  { off := 0x108, name := "FLOORS", reset := 0x1408, rs := 0xFFFF, ru := 377 },
  { off := 0x10C, name := "LEARN_CTRL", reset := 0x00291500, rw := 0xFFFF03, wo := 4, ru := 377 },
  { off := 0x110, name := "PWR_NOW", ru := 377 },
  { off := 0x114, name := "PWR_AVG", ru := 377 },
  { off := 0x118, name := "BUDGET", ru := 377 },
  { off := 0x11C, name := "EMERG_COUNT", ru := 377 },
  { off := 0x120, name := "SUPPLY_FAULT", ru := 377 },
  { off := 0x124, name := "DOMAIN_STEP", count := 2, reset := 0x99999999, ru := 377 },
  { off := 0x12C, name := "DOMAIN_STEP2", reset := 0x9999, ru := 377 },
  { off := 0x130, name := "FAB_STEP", reset := 0x99, ru := 377 },
  { off := 0x134, name := "CAP_EFF", reset := 0x3D4, ru := 377 },
  { off := 0x140, name := "MEAS_D", count := 20, rw := m32, rl := true, ru := 377 },
  { off := 0x190, name := "MEAS_FAB", rw := m32, rl := true, ru := 377 },
  { off := 0x194, name := "MEAS_SEQ", rw := 0xFFFF, rl := true, ru := 377 },
  { off := 0x1A0, name := "CAL_GAIN", count := 21, reset := 0x4000, ru := 377 },
  { off := 0x1F8, name := "CAL_STAT", ru := 377 },
  { off := 0x1FC, name := "TICKET_CTRL", wo := 0x13F, ru := 377 },
  { off := 0x200, name := "TICKET_JOB", count := 64, stride := 16, ru := 377 },
  { off := 0x204, name := "TICKET_LO", count := 64, stride := 16, ru := 377 },
  { off := 0x208, name := "TICKET_HI", count := 64, stride := 16, ru := 377 },
  { off := 0x600, name := "UNTICKETED_LO", ru := 377 },
  { off := 0x604, name := "UNTICKETED_HI", ru := 377 },
  { off := 0x608, name := "TICKET_MISS", ru := 377 },
  { off := 0x610, name := "JOB_CAP", count := 4, rw := 0x83FFFFFF, ru := 377 },
  { off := 0x700, name := "LEARN_KEY", count := 32, stride := 8, ru := 377 },
  { off := 0x704, name := "LEARN_SPLIT", count := 32, stride := 8, ru := 377 } ]

/-- THERM page (R389). -/
def thermRows : List RegRow := [
  { off := 0x100, name := "THROTTLE", reset := 0x69, rw := 0xFF, rl := true, ru := 389 },
  { off := 0x104, name := "HYST", reset := 2, rw := 0xF, ru := 389 },
  { off := 0x108, name := "FAIL_STEP", reset := 6, rw := 0xF, ru := 389 },
  { off := 0x10C, name := "STOP_CAUSE", w1c := 7, rl := true, ru := 389 },
  { off := 0x110, name := "TEMP_MAX", ru := 389 },
  { off := 0x114, name := "THROTTLED", count := 2, ru := 389 },
  { off := 0x11C, name := "FAILED", count := 2, ru := 389 },
  { off := 0x200, name := "TEMP", count := 64, ru := 389 } ]

/-- HEALTH page (R401). -/
def healthRows : List RegRow := [
  { off := 0x100, name := "RISK", ru := 401 },
  { off := 0x104, name := "WEIGHTS", reset := 0x08241242, rs := 0x0FFFFFFF, ru := 401 },
  { off := 0x108, name := "SCALE0", reset := 0x02084004, rs := m32, ru := 401 },
  { off := 0x10C, name := "SCALE1", reset := 0x80, rs := 0xFF, ru := 401 },
  { off := 0x110, name := "THRESH", reset := 0x02108040, rs := m32, ru := 401 },
  { off := 0x114, name := "POLICY", rw := 0xF1, ru := 401 },
  { off := 0x118, name := "AUTO_DESC_LO", rw := 0xFFFFFFC0, ru := 401 },
  { off := 0x11C, name := "AUTO_DESC_HI", rw := 0xFFFFF, ru := 401 },
  { off := 0x120, name := "SCORES", count := 2, ru := 401 },
  { off := 0x128, name := "CE_COUNT", ru := 401 },
  { off := 0x12C, name := "UE_COUNT", ru := 401 },
  { off := 0x130, name := "REPLAY_COUNT", ru := 401 },
  { off := 0x134, name := "REPLAY_FAILS", ru := 401 } ]

/-- JOURNAL page (R410). -/
def journalRows : List RegRow := [
  { off := 0x100, name := "RING_LO", rw := 0xFFFFFF80, rl := true, ru := 410 },
  { off := 0x104, name := "RING_HI", rw := 0xFFFFF, rl := true, ru := 410 },
  { off := 0x108, name := "RING_SIZE", reset := 10, rw := 0x1F, rl := true, ru := 410 },
  { off := 0x10C, name := "WRITTEN", ru := 410 },
  { off := 0x110, name := "FLOOR", ru := 410 },
  { off := 0x114, name := "JCB_LO", rw := 0xFFFFFFC0, rl := true, ru := 410 },
  { off := 0x118, name := "JCB_HI", rw := 0xFFFFF, rl := true, ru := 410 },
  { off := 0x11C, name := "REPLAY_CMD", wo := 1, rl := true, ru := 410 },
  { off := 0x120, name := "REPLAY_STAT", ru := 410 },
  { off := 0x124, name := "REPLAY_STOP", ru := 410 },
  { off := 0x140, name := "RETIRE_Q", count := 16, rw := m32, ru := 410 } ]

/-- SECURE page (R423). -/
def secureRows : List RegRow := [
  { off := 0x100, name := "POLICY", rw := 3, rl := true, ru := 423 },
  { off := 0x104, name := "STATE", ru := 423 },
  { off := 0x108, name := "IMAGE_ID", ru := 423 },
  { off := 0x10C, name := "MOVED", ru := 423 },
  { off := 0x110, name := "DRAINED", ru := 423 },
  { off := 0x114, name := "STREAM_EVENTS", ru := 423 } ]

/-- GROUP page (R428). -/
def groupRows : List RegRow := [
  { off := 0x100, name := "SEL", rw := 0x3F, ru := 428 },
  { off := 0x104, name := "G_STATE", ru := 428 },
  { off := 0x108, name := "G_CTRL", wo := 3, ru := 428 },
  { off := 0x10C, name := "G_EPOCH", rw := m32, ru := 428 },
  { off := 0x110, name := "G_CONC", rw := 0x3F01FF, ru := 428 },
  { off := 0x114, name := "G_DIGEST_LO", ru := 428 },
  { off := 0x118, name := "G_DIGEST_HI", ru := 428 },
  { off := 0x11C, name := "G_LOST", ru := 428 },
  { off := 0x120, name := "G_MEMBER", count := 16, rw := 0x8000FF0F, ru := 428 },
  { off := 0x160, name := "G_SELF", ru := 428 },
  { off := 0x164, name := "G_SKEW", ru := 428 },
  { off := 0x180, name := "DEGRADED", count := 2, ru := 428 },
  { off := 0x188, name := "DISCORD", count := 2, ru := 428 } ]

/-- SEC page (R451). -/
def secRows : List RegRow := [
  { off := 0x100, name := "CMD", wo := 0xFF, ru := 451 },
  { off := 0x104, name := "CMD_STAT", ru := 451 },
  { off := 0x108, name := "SEC_STATE", ru := 451 },
  { off := 0x10C, name := "SERIAL_LO", ru := 451 },
  { off := 0x110, name := "SERIAL_HI", ru := 451 },
  { off := 0x114, name := "SVN", ru := 451 },
  { off := 0x118, name := "RESEEDS", ru := 451 },
  { off := 0x11C, name := "ATTESTS", ru := 451 },
  { off := 0x400, name := "MBOX", count := 128, rw := m32, ru := 451 } ]

/-- AUDIT page (R457). -/
def auditRows : List RegRow := [
  { off := 0x100, name := "RING_LO", rw := 0xFFFFFF80, rl := true, ru := 457 },
  { off := 0x104, name := "RING_HI", rw := 0xFFFFF, rl := true, ru := 457 },
  { off := 0x108, name := "RING_SIZE", reset := 10, rw := 0x1F, rl := true, ru := 457 },
  { off := 0x10C, name := "WRITTEN", ru := 457 },
  { off := 0x110, name := "READ", rw := m32, ru := 457 },
  { off := 0x114, name := "PENDING", ru := 457 },
  { off := 0x120, name := "HEAD", count := 12, ru := 457 } ]

/-- PROT page (R452). -/
def protRows : List RegRow := [
  { off := 0x100, name := "SEL", rw := 0xFF, ru := 452 },
  { off := 0x104, name := "E_SCOPE..E_RIGHTS", count := 6, ru := 452 },
  { off := 0x120, name := "N_SCOPE", rw := 0x81FFFFFF, rl := true, ru := 452 },
  { off := 0x124, name := "N_JOBS", rw := m32, rl := true, ru := 452 },
  { off := 0x128, name := "N_BASE_LO", rw := 0xFFFFF000, rl := true, ru := 452 },
  { off := 0x12C, name := "N_BASE_HI", rw := 0xFFFFF, rl := true, ru := 452 },
  { off := 0x130, name := "N_PAGES", rw := m32, rl := true, ru := 452 },
  { off := 0x134, name := "N_RIGHTS", rw := 7, rl := true, ru := 452 },
  { off := 0x140, name := "APPLY", wo := 0xFFFF00FF, ru := 452 },
  { off := 0x144, name := "GEN", ru := 452 },
  { off := 0x148, name := "TASK_END", wo := 0xFFFF000F, ru := 452 },
  { off := 0x150, name := "MEAS", count := 12, ru := 452 } ]

/-- DIGEST page (R427). -/
def digestRows : List RegRow := [
  { off := 0x100, name := "ROOT", count := 12, ru := 427 },
  { off := 0x130, name := "SECTIONS", ru := 427 },
  { off := 0x134, name := "FIRST_BAD", reset := 0xFFFFFFFF, ru := 427 },
  { off := 0x138, name := "ENGINES", reset := 0x20, ru := 427 } ]

/-- ERRAGG page (R132, R333). -/
def erraggRows : List RegRow := [
  { off := 0x100, name := "FX_CLUSTER", count := 10, ru := 132 },
  { off := 0x140, name := "PAGE_CLUSTER", count := 10, ru := 333 } ]

/-- TESTCTL page (R358). -/
def testctlRows : List RegRow := [
  { off := 0x100, name := "UNLOCK", rw := 1, rl := true, ru := 358 } ]

/-- COMP pages (R162, R132). -/
def compRows : List RegRow := [
  { off := 0x100, name := "STAGE", reset := 0x3000, rs := 0x3F3F, ru := 162 },
  { off := 0x200, name := "FX_ROLLUP", count := 8, ru := 132 } ]

/-- STORE pages (R225, R226, R261). -/
def storeRows : List RegRow := [
  { off := 0x100, name := "BANK_CTRL", reset := 0x00010014, rs := 0x1FFFFF, ru := 225 },
  { off := 0x104, name := "ACC_FLAGS", w1c := 0xF, ru := 225 },
  { off := 0x108, name := "WIN_OPEN", count := 2, w1s := m32, ru := 225 },
  { off := 0x110, name := "TAG_RESET", wo := 0x13F, ru := 225 },
  { off := 0x120, name := "BANK_STATE", count := 3, ru := 225 },
  { off := 0x130, name := "OUTST_SEL", rw := 0x3F, ru := 225 },
  { off := 0x134, name := "OUTST", ru := 225 },
  { off := 0x140, name := "DROP_COUNT", ru := 225 },
  { off := 0x144, name := "TIMEOUT_COUNT", ru := 225 },
  { off := 0x148, name := "REFUSE_COUNT", ru := 225 },
  { off := 0x400, name := "HANDLE_CTRL", count := 64, stride := 32, rs := 0xFF7FFFFF, ru := 226 },
  { off := 0x404, name := "HANDLE_EXTENT", count := 64, stride := 32, rs := 0x1FFFFF, ru := 226 },
  { off := 0x408, name := "HANDLE_STRIDE", count := 64, stride := 32, rs := 0x1FFFFF, ru := 226 },
  { off := 0x40C, name := "HANDLE_PLANE", count := 64, stride := 32, rs := 0x801FFFFF, ru := 226 },
  { off := 0x410, name := "HANDLE_WIN", count := 64, stride := 32, rs := 0x7FFFFFFF, ru := 226 },
  { off := 0x414, name := "HANDLE_DIMSA", count := 64, stride := 32, rs := m32, ru := 225 },
  { off := 0x418, name := "HANDLE_DIMSB", count := 64, stride := 32, rs := m32, ru := 225 },
  { off := 0x41C, name := "HANDLE_GEN", count := 64, stride := 32, ru := 226 },
  { off := 0xC00, name := "WIN_COUNT", count := 64, ru := 225 },
  { off := 0xD00, name := "HANDLE_OWNER", count := 64, reset := 0x80000000, ru := 226 } ]

/-- ISLAND pages (R364). -/
def islandRows : List RegRow := [
  { off := 0x100, name := "STEP", reset := 0x00009F99, ru := 364 },
  { off := 0x104, name := "LADDER", ru := 364 },
  { off := 0x108, name := "LADDER_CTRL", reset := 0x000A0A01, rs := 0x01FFFF03, ru := 364 },
  { off := 0x10C, name := "DROOP_CTRL", reset := 0x00010528, rw := 0x1FF3F, ru := 364 },
  { off := 0x110, name := "DROOP_COUNT", ru := 364 },
  { off := 0x114, name := "ACT_RAW", ru := 364 },
  { off := 0x118, name := "ENERGY_LO", ru := 364 },
  { off := 0x11C, name := "ENERGY_HI", ru := 364 } ]

/-- CORE_ACCESS pages (R130, R209): 200h to 22Ch belong to the core named in CORE_SEL. -/
def coreAccessRows : List RegRow := [
  { off := 0x100, name := "CORE_SEL", rw := 0xFF, ru := 130 },
  { off := 0x200, name := "SFLAGS", w1c := 0xFFFFFF, ru := 130 },
  { off := 0x204, name := "FX_CTRL", reset := 0x33, rw := 0x1007F, ru := 130 },
  { off := 0x208, name := "FX_STATUS", w1c := 0x80000000, ru := 130 },
  { off := 0x20C, name := "FX_JOB", ru := 130 },
  { off := 0x210, name := "FX_SEQ", ru := 130 },
  { off := 0x214, name := "FX_TILE_ROW", ru := 130 },
  { off := 0x218, name := "FX_TILE_COL", ru := 130 },
  { off := 0x21C, name := "FX_ELEM", ru := 130 },
  { off := 0x220, name := "FX_KBLOCK", ru := 130 },
  { off := 0x224, name := "RESCUE_LOG", wo := 0x80000000, ru := 130 },
  { off := 0x228, name := "RESCUE_SEQ", ru := 130 },
  { off := 0x22C, name := "DRAIN_STAT", ru := 209 } ]

/-- Block-specific rows of a page type. -/
def PageKind.rows : PageKind → List RegRow
  | .die => dieRows
  | .steward => stewardRows
  | .impose => imposeRows
  | .queue => queueRows
  | .hubport => hubportRows
  | .hublink => hublinkRows
  | .power => powerRows
  | .therm => thermRows
  | .health => healthRows
  | .journal => journalRows
  | .secure => secureRows
  | .group => groupRows
  | .time => timeRows
  | .sec => secRows
  | .audit => auditRows
  | .prot => protRows
  | .digest => digestRows
  | .erragg => erraggRows
  | .testctl => testctlRows
  | .comp => compRows
  | .store => storeRows
  | .island => islandRows
  | .coreAccess => coreAccessRows

/-- TYPE field of IDENT (R318). -/
def PageKind.typeCode : PageKind → Nat
  | .die => 0x01
  | .steward => 0x02
  | .impose => 0x03
  | .queue => 0x04
  | .hubport => 0x05
  | .hublink => 0x06
  | .power => 0x07
  | .therm => 0x08
  | .health => 0x09
  | .journal => 0x0A
  | .secure => 0x0B
  | .group => 0x0C
  | .time => 0x0D
  | .sec => 0x0E
  | .audit => 0x0F
  | .prot => 0x10
  | .digest => 0x11
  | .erragg => 0x12
  | .testctl => 0x13
  | .comp => 0x20
  | .store => 0x21
  | .island => 0x22
  | .coreAccess => 0x23

/-- Pages that have RS fields; on every other page COMMIT_EPOCH and SHADOW_CTRL read 0 and ignore
writes (R347). -/
def PageKind.hasShadow (k : PageKind) : Bool := k.rows.any (fun r => r.rs != 0)

/-- W1C bits of INT_STATUS [29:0] of a page, as its chapter gives them. -/
def PageKind.intBits : PageKind → Nat
  | .steward => 7
  | .queue => 7
  | .hubport => 0x1F
  | .power => 0x3F
  | .therm => 7
  | .health => 0x1F
  | .journal => 7
  | .secure => 0x1F
  | .group => 0xF
  | .sec => 3
  | .audit => 3
  | .prot => 1
  | .erragg => 1
  | .island => 3
  | .die | .impose | .hublink | .time | .digest | .testctl | .comp | .store | .coreAccess => 0

/-- Bits that INT_ENABLE holds: one for each INT_STATUS bit (R317, R327); ERRAGG's [4:1] are
read-only summaries that may be enabled (R333). -/
def PageKind.enableBits (k : PageKind) : Nat :=
  k.intBits ||| 0xC0000000 ||| (match k with | .erragg => 0x1E | _ => 0)

/-- RW bits of CONTROL (R335 for QUEUE, R410 for JOURNAL; reserved elsewhere, R319). -/
def PageKind.controlRow : PageKind → RegRow
  | .queue => { off := 0x010, name := "CONTROL", reset := 0xF00, rw := 0xF01, w1s := 2, ru := 335 }
  | .journal => { off := 0x010, name := "CONTROL", rw := 1, rl := true, ru := 410 }
  | _ => { off := 0x010, name := "CONTROL", ru := 319 }

/-- The common area (R317, R325) and the test region (R356, R357) of a page type. -/
def PageKind.commonRows (k : PageKind) : List RegRow := [
  { off := 0x000, name := "IDENT", ru := 318 },
  { off := 0x004, name := "VERSION", reset := 0x0C800201, ru := 317 },
  { off := 0x008, name := "CAPABILITY", reset := (match k with | .die => 0x1FF41290 | _ => 0), ru := 317 },
  k.controlRow,
  { off := 0x014, name := "STATUS", ru := 319 },
  { off := 0x018, name := "INT_STATUS", w1c := k.intBits ||| 0xC0000000, ru := 327 },
  { off := 0x01C, name := "INT_ENABLE", rw := k.enableBits, ru := 317 },
  { off := 0x020, name := "ERR_CAUSE", w1c := 0x80000000, ru := 325 },
  { off := 0x024, name := "ERR_WORD", count := 7, ru := 325 },
  { off := 0x040, name := "COMMIT_EPOCH", w1s := (if k.hasShadow then 0x10000 else 0), ru := 347 },
  { off := 0x044, name := "SHADOW_CTRL", rw := (if k.hasShadow then 4 else 0),
    wo := (if k.hasShadow then 2 else 0), ru := 347 },
  { off := 0x048, name := "REFUSALS", ru := 317 },
  { off := 0x04C, name := "reserved", count := 45, ru := 317 } ]

/-- The test region F00h to F1Ch, and T_QUAD to T_FS_DATA on CORE_ACCESS (R356, R357, R360). -/
def PageKind.testRows (k : PageKind) : List RegRow := [
  { off := 0xF00, name := "T_DELAY", rw := 0x80FFFFFF, ru := 357 },
  { off := 0xF04, name := "T_BACKP", rw := 0x80FFFFFF, ru := 357 },
  { off := 0xF08, name := "T_STRETCH", rw := 0x800000FF, ru := 357 },
  { off := 0xF0C, name := "T_FSTEP", rw := (match k with | .die => 0x8000001F | .island => 0x8000000F | _ => 0), ru := 357 },
  { off := 0xF10, name := "T_INJ", rw := 0x80FFFF0F, ru := 357 },
  { off := 0xF14, name := "T_INJ_ADDR", rw := m32, ru := 356 },
  { off := 0xF18, name := "T_INJ_DONE", ru := 356 },
  { off := 0xF1C, name := "reserved", ru := 356 } ]
  ++ (match k with
      | .coreAccess => [
        { off := 0xF20, name := "T_QUAD", rw := 0x8000000F, ru := 360 },
        { off := 0xF24, name := "T_FS_ADDR", rw := 0xFFC, ru := 360 },
        { off := 0xF28, name := "T_FS_DATA", ru := 360 } ]
      | _ => [])

/-- Every row of a page type. -/
def PageKind.allRows (k : PageKind) : List RegRow := k.commonRows ++ k.rows ++ k.testRows

/-- Does the row hold page offset `o`? -/
def RegRow.holds (r : RegRow) (o : Nat) : Bool :=
  decide (r.off ≤ o) && decide ((o - r.off) % r.stride = 0) && decide ((o - r.off) / r.stride < r.count)

/-- The row of a page type at a page offset, where the offset names a register (R320). -/
def PageKind.rowAt (k : PageKind) (o : Nat) : Option RegRow :=
  (if o < 0x100 then k.commonRows else if o < 0xF00 then k.rows else k.testRows).find? (·.holds o)

/-- A page of the die: its type, its instance number (R318) and its die offset (R321, R322). -/
structure Page where
  kind : PageKind
  inst : Nat
  base : Nat
  deriving DecidableEq, Repr

/-- Die-level page index (R321). -/
def diePage (i : Nat) : Option Page :=
  let mk (k : PageKind) (n : Nat) : Option Page := some ⟨k, n, i * 0x1000⟩
  if i = 0x00 then mk .die 0
  else if i = 0x01 then mk .steward 0
  else if i = 0x02 then mk .impose 0
  else if 0x04 ≤ i ∧ i ≤ 0x13 then mk .queue (i - 0x04)
  else if 0x20 ≤ i ∧ i ≤ 0x3F then mk .hubport (i - 0x20)
  else if i = 0x40 then mk .hublink 0
  else if i = 0x48 then mk .power 0
  else if i = 0x49 then mk .therm 0
  else if i = 0x4C then mk .health 0
  else if i = 0x4D then mk .journal 0
  else if i = 0x4E then mk .secure 0
  else if i = 0x50 then mk .group 0
  else if i = 0x51 then mk .time 0
  else if i = 0x54 then mk .sec 0
  else if i = 0x55 then mk .audit 0
  else if i = 0x56 then mk .prot 0
  else if i = 0x58 then mk .digest 0
  else if i = 0x60 then mk .erragg 0
  else if i = 0x7F then mk .testctl 0
  else none

/-- Type of the page at a cluster page base plus `i` × 1000h (R322). -/
def clusterPageKind (i : Nat) : PageKind :=
  if i = 0 then .comp else if i = 1 then .store else if i = 2 then .island else .coreAccess

/-- Cluster page base (R18). -/
def clusterBase (c : Nat) : Nat := 0x1000000 + c * 0x4000

/-- The page that holds a die offset (R320 to R322); `none` where the maps leave it unmapped. -/
def pageAt (off : Nat) : Option Page :=
  if off < 0x100000 then diePage (off / 0x1000)
  else if 0x1000000 ≤ off ∧ off < 0x1500000 then
    let c := (off - 0x1000000) / 0x4000
    let i := (off - 0x1000000) / 0x1000 % 4
    some ⟨clusterPageKind i, c, clusterBase c + i * 0x1000⟩
  else none

/-- Page and row of a register access: 4-byte aligned and naming a register, or `none` (R287, R320). -/
def regAt (off : Nat) : Option (Page × RegRow) :=
  if off % 4 = 0 then
    (pageAt off).bind fun p => (p.kind.rowAt (off - p.base)).map fun r => (p, r)
  else none

/-! Keys of the register file. A page register's key is its die offset. The registers behind a
CORE_ACCESS window are one set per core: core `k`'s register at page offset `o` has the key
`coreKey k o`, above every die offset. -/

def coreKey (core o : Nat) : Nat := 0x10000000 + core * 0x1000 + o

/-- Reset value of a register key (the Reset columns; R17). -/
def regReset (key : Nat) : Word :=
  if key < 0x10000000 then
    match regAt key with
    | some (_, r) => BitVec.ofNat 32 r.reset
    | none => 0
  else
    match PageKind.rowAt .coreAccess ((key - 0x10000000) % 0x1000) with
    | some r => BitVec.ofNat 32 r.reset
    | none => 0

end Sys2Proof.Machine
end

