-- ==== Sys2Proof/Machine/State.lean ====
section
/-!
DEFINITION. The state of the block as plain data: its registers and their shadows, the banks of the
central stores, the cores, the operations in flight, the link layer, and everything else that the spec
gives the die, with the queue of commands that wait. INVENTORY.md lists each piece with its rule.
-/

namespace Sys2Proof.Machine

/-- Why the block could stop with a fault. Every access of the model names its bank and row by a
bounded type, so no meaning raises the one reason: an access outside the central store (R214) does not
exist. Safe: a stop proves nothing about the hardware. -/
inductive Fault where
  /-- Raised by no meaning at present (an address outside the banks of R214). Safe. -/
  | storeAddress
  deriving DecidableEq, Repr

/-- Why a command has no meaning in the model. -/
inductive Refusal where
  /-- Raised by the dispatcher alone, for a row without its meaning yet. Safe. -/
  | notModelled (mnemonic : String)
  deriving DecidableEq, Repr

/-- A sparse map: pairs in strictly ascending key order. What an unlisted key reads as is the reader's
affair (`SMap.getD`). -/
abbrev SMap (α : Type) := List (Nat × α)

/-! ## Transactions at the bonded face -/

/-- The transaction codes of R283. -/
inductive TxnOp where
  | rd | wr | wra | atom | flush | wwr | wwa | rdr | atr | wack | rgr | rgwa | mack | flack
  | rgrd | rgwr | msg | huberr
  deriving DecidableEq, Repr

/-- One transaction that the die issues (R282): header fields and data. `words` is LEN + 1 for a
package-memory transfer. -/
structure Txn where
  port   : Nat
  op     : TxnOp
  tag    : Nat := 0
  stream : Nat := 15
  addr   : Nat := 0
  words  : Nat := 1
  fmt    : Nat := 0
  aop    : Nat := 0
  status : Nat := 0
  srcpos : Nat := 0
  srcpkg : Nat := 0xFF
  priv   : Nat := 0
  aux    : Nat := 0
  data   : List Byte := []
  /-- The `job_id` with which the estimators tag the transaction's events (R365); no field of the header. -/
  job    : Option Nat := none
  deriving DecidableEq, Repr

/-- What an outstanding transaction of the die was issued for. -/
inductive Purpose where
  /-- The read of a descriptor slot; `again` after one F0h (R346). -/
  | descRead (q : Nat) (again : Bool)
  /-- A staging read of an operation for a cluster (R163); `again` after one F0h of a replay (R395). -/
  | stage (op cluster : Nat)
  /-- The read half of a merge in package memory for a core (R173). -/
  | merge (op core : Nat)
  /-- The source bytes of a WINDOW_WRITE (R249), to be sent at this offset. -/
  | winSource (op cluster offset : Nat)
  /-- A posted write of an operation (R290). -/
  | opWrite (op core row col : Nat)
  /-- The completion record with this sequence number (R346). -/
  | record (q : Nat) (seq : Word)
  /-- A posted write of a die-level block that belongs to no operation, or a read that no queue wants any more. -/
  | block
  /-- The FLUSH that covers an operation's journal entry at acceptance or its completion part (R406). -/
  | journalFlush (op : Nat)
  /-- A FLUSH before an operation's completion record (R292, R346). -/
  | doneFlush (op : Nat)
  /-- A FLUSH before a SIGNAL's message (R292). -/
  | signalFlush (op : Nat)
  /-- The FLUSH after a header of the journal control block was written with this FLOOR (R407). -/
  | jcbFlush (floor : Nat)
  /-- A FLUSH after an image's sections and digests (R421). -/
  | secureFlush (op : Nat)
  /-- The FLUSH before an interrupt message of a vector (R292). -/
  | vectorFlush (v : Nat)
  /-- One window write of an operation from a cluster, at an offset of its source (R250). -/
  | windowWrite (op cluster offset : Nat)
  /-- One concord record of a group to a member slot; `round` is 2 × EXCHANGE + the round (R431). -/
  | concord (group slot round : Nat)
  /-- The message of a SIGNAL (R289). -/
  | signal (op : Nat)
  /-- The message of an interrupt vector (R331). -/
  | vector (v : Nat)
  /-- A side signal of the die (R289). -/
  | sideSignal (code : Nat)
  /-- The FLUSH before a side signal of the die (R292). -/
  | sideFlush (code : Nat) (value : BitVec 64)
  /-- An atomic operation (R285). -/
  | atomic (op : Nat)
  deriving DecidableEq, Repr

/-- A transaction that awaits its response, or a posted write that no FLACK has covered yet. -/
structure Outst where
  port    : Nat
  op      : TxnOp
  tag     : Nat
  stream  : Nat
  addr    : Nat
  words   : Nat
  purpose : Purpose
  /-- The transaction itself while it waits for a tag: every tag of its port and channel awaits a response. -/
  held    : Option Txn
  deriving DecidableEq, Repr

/-! ## Operations in flight -/

/-- The 64 bytes of a descriptor, byte 0 in the low bits (R10, R135). -/
abbrev Desc := BitVec 512


/-- A resolved operand (R138, R139): an operand record as read at acceptance, a handle, or accumulator
tile files. -/
inductive Operand where
  | none
  | record (base : Nat) (plane : Option Nat) (pitch extent hw nc : Nat)
  | handle (h : Nat) (isLocal : Bool)
  | accFile (core : Nat)
  deriving DecidableEq, Repr

/-- One product of an operation: the operation itself, or an entry of a BATCHED list (R150). -/
structure Entry where
  /-- Index in the pointer list; 0 otherwise. -/
  index : Nat
  m : Nat
  n : Nat
  k : Nat
  a : Operand
  b : Operand
  c : Operand
  deriving DecidableEq, Repr

/-- The part of an entry's output that one cluster computes (R157, R158). -/
structure Sliver where
  entry   : Nat
  cluster : Nat
  row0    : Nat
  rows    : Nat
  col0    : Nat
  cols    : Nat
  mt      : Nat
  nt      : Nat
  deriving DecidableEq, Repr

/-- How far an operation has come. -/
inductive Phase where
  /-- Accepted; its journal entry awaits its FLACK (R406). -/
  | journaling
  | running
  /-- Its work is done and its status fixed; OPERATION_COMPLETION is due. -/
  | finished
  /-- OPERATION_COMPLETION has issued this many FLUSHes that have not returned (R292, R406). -/
  | flushing (left : Nat)
  /-- Stopped by a fault; its replay is due (R411). -/
  | interrupted
  deriving DecidableEq, Repr

/-- What an operation holds beyond the common fields, by opcode. -/
inductive OpKind where
  /-- MATMUL, CONV, BATCHED, ELEMENTWISE, MOVE. -/
  | compute
  /-- WINDOW_WRITE: writes not yet issued, as (cluster, offset); those sent and not acknowledged; those
  acknowledged with OK (R250, R414). -/
  | window (todo sent acked : List (Nat × Nat))
  /-- WAIT_COUNT (R251, R252): `closing` the handle under ordered close, `timedOut` its timeout. -/
  | wait (cluster counter : Nat) (target : Word) (timeout : Word) (close : Bool)
         (closing : Option Nat) (timedOut : Bool)
  /-- SIGNAL: its message has been sent; its MACK has returned. -/
  | signal (sent acked : Bool)
  /-- FENCE: scope and group, the operations it still waits for, and whether its exchange runs. -/
  | fence (scope group : Nat) (waitFor : List Nat) (exchanging : Bool)
  | secure
  | mark
  | restore
  /-- SCRUB: handles, first cluster, cluster count, dark (R259). -/
  | scrub (mask : BitVec 64) (first count : Nat) (dark : Bool)
  /-- A descriptor that failed a check of R137: it only completes. -/
  | failed
  /-- A slot of the ring that could not be read (R346): no descriptor, only a completion record. -/
  | slot
  deriving DecidableEq, Repr

/-- One accepted descriptor that has not completed. -/
structure OpRec where
  id      : Nat
  q       : Nat
  seq     : Word
  desc    : Desc
  /-- The cluster set sampled at acceptance (R155). -/
  first   : Nat
  count   : Nat
  /-- The rescue state sampled at acceptance (R122). -/
  rescue  : Bool
  /-- HEAD before the read; FFFF_FFFFh for a steward-issued descriptor (R403). -/
  headAt  : Word
  /-- Index of its journal entry, when one was written (R402). -/
  jindex  : Option Word
  /-- The protection context of its task (R454); `none` when no entry matches. -/
  context : Option Nat
  /-- END_DARK of the entry that gave the context (R260). -/
  endDark : Bool
  entries : List Entry
  /-- H, W, C, NI of a CONV input, as sampled (R145). -/
  dimH : Nat
  dimW : Nat
  dimC : Nat
  dimN : Nat
  /-- The chain record copied at acceptance, 12 words (R188). -/
  chain   : List Word
  slivers : List Sliver
  /-- Clusters that it holds (R350). -/
  holds   : List Nat
  /-- Handles that it names, as cluster × 64 + handle; those that it writes; generation sums (R405). -/
  named   : List Nat
  written : List Nat
  /-- Handles into which it has written so far (R231). -/
  wrote   : List Nat
  genIn   : Word
  genOut  : Word
  /-- Descriptor hash (R404). -/
  dhash   : List Byte
  inplace : Bool
  /-- (port, stream) pairs that carried its package-memory writes (R292). -/
  streams : List (Nat × Nat)
  /-- FLAGS of R342, ORed so far. -/
  flags   : Nat
  /-- Slugs committed (R403). -/
  committed : Nat
  status  : Nat
  /-- A failure has stopped it (R205). -/
  stopped : Bool
  detail  : Nat
  result  : Word
  phase   : Phase
  kind    : OpKind
  /-- Replays started for it (R415). -/
  replays : Nat
  /-- It is replayed from the journal (R416): it writes a completion record only when its entry was
  still in flight. -/
  fromJournal : Bool
  writeRecord : Bool
  /-- Some core had started a first tile with `acc_init` 1 and not committed it, or an uncommitted slug
  issued an accumulating write (R414). -/
  noReplay : Bool
  /-- Ranges of package memory (address, bytes) whose read for it returned F0h (R395). -/
  lostReads : List (Nat × Nat)
  deriving DecidableEq, Repr

/-! ## Clusters and cores -/

/-- Power state of a bank (R254). -/
inductive BankSt where
  | on
  | closing (dark : Bool)
  | keep
  | dark
  | waking (fromDark : Bool)
  deriving DecidableEq, Repr

inductive AccKind where
  /-- A read, a plain write and an accumulating write (R214, R241). -/
  | read | write | acc
  deriving DecidableEq, Repr

/-- Where the outcome of a central-store access goes. -/
inductive Dest where
  /-- Read bytes go to a core's arrival buffer, from this key upward. -/
  | arrived (core key : Nat)
  /-- A write of the slug of tile `t` of a list entry, in a core's forme (R204). -/
  | slugWrite (core entry t : Nat)
  /-- A window write: who gets its WACK, and the counter it advances (R247). -/
  | window (port tag stream srcpos srcpkg counter : Nat)
  /-- The source of one WINDOW_WRITE (R249). -/
  | winSource (op offset : Nat)
  /-- A staging write of the compositor into this slot of the staging area (R162, R216). -/
  | staging (slot : Nat)
  deriving DecidableEq, Repr

/-- One access at a bank (R214): at most 64 bytes within one slot. -/
structure BankAcc where
  /-- Requester lane: 0 to 255 the cores, 256 the compositor, 257 to 262 the mesh port (R216). -/
  lane    : Nat
  op      : Option Nat
  bank    : Fin 48
  row     : Fin 512
  byte    : Nat
  kind    : AccKind
  /-- Bytes of a read. -/
  len     : Nat
  /-- Bytes of a write. -/
  data    : List Byte
  fmt     : Nat
  /-- Bytes at the start and end of `data` that are no element of an accumulating write: an access is of whole
  words (R214), its elements may be half-words (R241). -/
  lead    : Nat := 0
  trail   : Nat := 0
  /-- The handle through which it goes; `none` for an access to the staging area (R261). -/
  handle  : Option Nat
  /-- TAG_MODE of the handle: 0 plain, 1 take, 2 peek (R237). -/
  tagMode : Nat
  timeout : Nat
  dest    : Dest
  deriving DecidableEq, Repr

/-- What one access put into the feeder store (R222, R224): elements of `lines` operand lines from `line0`, each with
`count` indices from `k0`, or (`scale`) their scale bytes by scale block. They lie packed from byte `pos` of the
store in their stored format, line after line. -/
structure FeedLine where
  op    : Nat
  entry : Nat
  sideB : Bool
  scale : Bool
  line0 : Nat
  lines : Nat
  k0    : Nat
  count : Nat
  pos   : Nat
  deriving DecidableEq, Repr

/-- The derived exponent of an operand line in one reduction block (R105), held beside the feeder store's regions
(R170): the indices of the block whose elements have been loaded, as a mask, and the largest exponent field among the
normal ones. -/
structure LineBound where
  op    : Nat
  entry : Nat
  sideB : Bool
  line  : Nat
  block : Nat
  seen  : Nat
  top   : Option Nat
  deriving DecidableEq, Repr

/-- An event offered to the first-exception capture (R129). -/
structure FxEvent where
  kind : Nat
  engine : Nat
  elem : Nat
  kblock : Nat
  deriving DecidableEq, Repr

/-- An element's accumulator (R114): its finite value as a code, the class tags seen (R118) and the
saturation bit (R113). -/
structure Accum where
  code : Word
  nan  : Bool
  pinf : Bool
  ninf : Bool
  sat  : Bool
  deriving DecidableEq, Repr

/-- One element of a QA20 partial at the array's edge (R108): element index, integer, whether bits were
discarded, and the tags among its products. -/
structure PartElem where
  idx  : Nat
  q    : Int
  inexact : Bool
  nan  : Bool
  pinf : Bool
  ninf : Bool
  inv  : Bool
  deriving DecidableEq, Repr

/-- The partials of one streamed vector and one reduction block (R103, R98). -/
structure Partial where
  group : Nat
  vec   : Nat
  block : Nat
  eref  : Int
  /-- Every pass of the block has contributed. -/
  ready : Bool
  /-- The step in which the array's edge releases it for promotion (R98). -/
  due   : Nat
  elems : List PartElem
  deriving DecidableEq, Repr

/-- The tile that a core computes (R169). -/
structure Tile where
  op    : Nat
  sliver : Sliver
  t     : Nat
  first : Bool
  accs  : SMap Accum
  /-- The pass pointer of R169: chunk start, column group, pass start; `walked` when no pass is left. -/
  k0    : Nat
  g     : Nat
  k1    : Nat
  walked : Bool
  /-- Place of the tile among those that the core computes of its sliver: the round of R163. -/
  round : Nat
  /-- Step in which the pass at the pointer starts or has started (R98, R99). -/
  clock : Nat
  /-- The pass at the pointer has started: `vec` is the next vector slot that enters (R100). -/
  busy  : Bool
  vec   : Nat
  /-- The shadow registers hold the stationary operand of the next pass to start (R96). -/
  loaded : Bool
  /-- Reference exponents of the running pass, by block (R106). -/
  erefs : List (Nat × Int)
  parts : List Partial
  /-- Events of products by the step in which they arise, not yet reached (R129). -/
  fx    : List (Nat × FxEvent)
  /-- Flags of the present attempt: inexact, underflow, overflow, invalid. -/
  exc   : Nat
  /-- Coarse exponent fields in force (R125). -/
  ecA   : Nat
  ecB   : Nat
  reruns : Nat
  lastOp : Nat
  stop  : Bool
  /-- It has taken its slug queue entry (R177). -/
  entry : Bool
  /-- TILE_COMPLETE has found no rerun due: the slug may be enqueued. -/
  complete : Bool
  deriving DecidableEq, Repr

/-- A finished tile (R176). -/
structure Slug where
  op     : Nat
  sliver : Sliver
  t      : Nat
  /-- Unmasked elements as (element index, code): final accumulator codes, or the source codes of a MOVE. -/
  codes  : List (Nat × Word)
  /-- Source scale bytes of a MOVE by (line, block) (R153). -/
  scales : List ((Nat × Nat) × Nat)
  status : Nat
  /-- The core's first tile of the operation (R151). -/
  first  : Bool
  deriving DecidableEq, Repr

/-- One write of recast-out (R203): bytes at an address of the destination, with the bits of each byte
that are written (R173). -/
structure FormeWrite where
  /-- Package address, or offset within the destination handle. -/
  addr : Nat
  data : List Byte
  mask : List Byte
  deriving DecidableEq, Repr

/-- A slug in the drain chain (R179, R207), with the forme that gathers its results (R200). -/
structure Chain where
  slug   : Slug
  /-- The second sweep of a chain with RRED runs. -/
  again  : Bool
  /-- Next segment of 64 elements (R196). -/
  seg    : Nat
  /-- Element groups that the core's lanes had processed before the slug (R84). -/
  base   : Nat
  /-- Results so far, by element index: QS32 values, which carry the class, or exact integers (R181). -/
  vals   : SMap Word
  /-- Entry values as recast-in produced them (X0 of R187). -/
  x0     : SMap Word
  /-- Lane-masked elements (R198). -/
  masked : List Nat
  /-- Flags raised, as (element, cycle, flags) (R206). -/
  flags  : List (Nat × Nat × Nat)
  deriving DecidableEq, Repr

/-- A slug whose results are encoded and being written (R200). -/
structure Forme where
  op     : Nat
  sliver : Sliver
  t      : Nat
  status : Nat
  /-- Results and lane-masked elements, until the last write has been issued. -/
  vals   : SMap Word
  masked : List Nat
  /-- Elements encoded so far have become these writes, in order. -/
  writes : List FormeWrite
  /-- Writes issued and not yet accepted (R204). -/
  waiting : Nat
  /-- 4-byte words of the destination that the slug is merging (R173), by word address. -/
  merging : List Nat
  /-- The core's first tile of the operation (R151), and whether a write of the slug has been issued (R414). -/
  first  : Bool
  sent   : Bool
  deriving DecidableEq, Repr

/-- Tiles of one sliver that a core still has to take (R166): `next` up to `stop` − 1. -/
structure CoreWork where
  op     : Nat
  sliver : Sliver
  /-- First tile of the core in this sliver, before any watermark. -/
  base   : Nat
  next   : Nat
  stop   : Nat
  deriving DecidableEq, Repr

/-- A core's watermark for an operation (R412) and the element groups that its lanes have processed,
which are the draw indices of R84. -/
structure Mark where
  op     : Nat
  slugs  : Nat
  status : Nat
  groups : Nat
  tiles  : Nat
  deriving DecidableEq, Repr

/-- One core (R22, R23). -/
structure Core where
  work    : List CoreWork
  tile    : Option Tile
  /-- Accumulator tile file, by file index (R114); unlisted reads 0. -/
  file    : SMap Word
  /-- The feeder store (R23, R170): its 4,096 bytes by address, the panel region below 3,072 and the region for B above
  (unlisted reads 0); what lies in them, oldest first; and the derived exponents held beside them (R105). -/
  fs      : SMap Byte
  feeder  : List FeedLine
  bounds  : List LineBound
  /-- Working and shadow stationary registers by PE, row by row in the form in use (R95); unlisted reads 0. -/
  working : SMap (BitVec 64)
  shadow  : SMap (BitVec 64)
  /-- Bytes that the crossbar returned and that no engine has taken yet, by use, handle and offset. -/
  arrived : SMap Byte
  /-- Tile buffer values, 64 QS32 values to a buffer, by buffer × 64 + index (R196); the flags of their conversions
  (R211); and the fills that are in place, as (buffer, segment). -/
  bufs    : SMap Word
  bufFlags : SMap Nat
  filled  : List (Nat × Nat)
  slugs   : List Slug
  chain   : Option Chain
  formes  : List Forme
  fullStalls : Nat
  /-- Protection context of the last task that used the core (R456). -/
  lastCtx : Option Nat
  marks   : List Mark
  deriving DecidableEq, Repr

/-- An idle core with empty stores. -/
def Core.idle : Core :=
  { work := [], tile := none, file := [], fs := [], feeder := [], bounds := [], working := [], shadow := [],
    arrived := [], bufs := [], bufFlags := [], filled := [], slugs := [], chain := none, formes := [], fullStalls := 0, lastCtx := none, marks := [] }

/-! ## Staging (R162, R163, R221) -/

/-- A slot of a staging area: the operand's eight lines from `group`, its indices (scale blocks for `scale`) from `k0`,
fetched in a round (R163). -/
structure StageSlot where
  op    : Nat
  entry : Nat
  sideB : Bool
  scale : Bool
  group : Nat
  k0    : Nat
  round : Nat
  /-- Number of the slot in the area, over its banks (R221). -/
  slot  : Nat
  /-- Its staging write has been performed. -/
  ready : Bool
  deriving DecidableEq, Repr

/-- The compositor's staging in a cluster: bytes that arrived from the hub and await their slot, by (op, address);
the slots in use, oldest first; and the next slot of the ring. -/
structure Staging where
  bytes : SMap Byte
  slots : List StageSlot
  next  : Nat
  deriving DecidableEq, Repr

def Staging.empty : Staging := { bytes := [], slots := [], next := 0 }

/-- The states of the mesh and control islands, which have no LADDER register (R310, R381, R390). -/
inductive Rung where
  | run | idle | still | dark
  deriving DecidableEq, Repr

/-- Limits and droop depth of one island (R363), by island number: 0 to 319 the clusters, 320 the mesh
island, 321 the control island. -/
structure Island where
  thermal   : Nat
  emergency : Nat
  supply    : Nat
  droop     : Nat
  want      : Nat
  /-- A requested dark waits for its banks to close (R382). -/
  darkening : Bool
  /-- Handles with a bank that the requested dark takes to dark (R231). -/
  darkHandles : List Nat
  /-- State of the mesh or control island; a cluster island's stands in LADDER. -/
  rung      : Rung
  deriving DecidableEq, Repr

/-- An island at reset: no limit, the reset step (R364, R39). -/
def Island.initial : Island :=
  { thermal := 15, emergency := 15, supply := 15, droop := 0, want := 9,
    darkening := false, darkHandles := [], rung := .run }

/-! ## Queues -/

/-- STATE of a queue (R335). -/
inductive QState where
  | disabled | run | stopping | halted
  deriving DecidableEq, Repr

/-- A task that has not ended (R454, R455): its job, context and END_DARK, and whether it ends when its last
descriptor completes. -/
structure Task where
  job     : Nat
  context : Option Nat
  dark    : Bool
  ending  : Bool
  deriving DecidableEq, Repr

/-- A queue's machine state beside its registers: the descriptor read ahead (R339), the template placed ahead
of the ring (R400), and the tasks of the queue that have not ended (R455). -/
structure Queue where
  st     : QState
  halt   : Nat
  held   : Option Desc
  /-- A read of the slot is outstanding. -/
  reading : Bool
  ahead  : Option Desc
  tasks  : List Task
  /-- DPOS of the last journal entry of the queue (R422). -/
  lastDpos : Nat
  deriving DecidableEq, Repr

def Queue.initial : Queue :=
  { st := .disabled, halt := 0, held := none, reading := false, ahead := none, tasks := [], lastDpos := 0 }

/-- What the die keeps of a journal entry that is not below FLOOR (R407). -/
structure JEntry where
  index : Word
  q     : Nat
  seq   : Word
  done  : Bool
  deriving DecidableEq, Repr

/-- The last image of a queue that completed with OK (R408). -/
structure ImageInfo where
  seq  : Word
  id   : Word
  save : Nat
  dig  : Nat
  deriving DecidableEq, Repr

/-! ## The link layer -/

/-- Training states of R269. -/
inductive TrainSt where
  | down | detect | lock | deskew | test | map | repair | align | up | isolated
  deriving DecidableEq, Repr

/-- What a port puts on its outbound lanes. -/
inductive LaneSend where
  /-- STB of all 33 lanes, as DETECT asks (R269). -/
  | strobes
  /-- The PRBS-15 of R270 on D0 to D31, PAR and SPR of all 33 lanes, over this many UI (R269). -/
  | prbs (uis : Nat)
  /-- A flit on a physical lane, over 16 UI, with SPR steered by the lane's repair code (R268, R273). -/
  | flit (lane code : Nat) (data : List Byte) (crc : BitVec 16)
  deriving DecidableEq, Repr

/-- A header whose data flits have not all been received: its words (none when it is discarded), its channel, flits left,
the data so far, and the job and cluster of the transaction that it answers. -/
structure Owed where
  words   : List Word
  vc      : Option Nat
  left    : Nat
  data    : List Byte
  job     : Option Nat
  cluster : Option Nat
  deriving DecidableEq, Repr

/-- Link traffic for the activity estimator (R365, R374, R376): flits and data bytes by job and cluster. -/
structure Load where
  job     : Option Nat
  cluster : Option Nat
  flits   : Nat
  bytes   : Nat
  deriving DecidableEq, Repr

/-- One hub port: link layer and training (R269 to R281). -/
structure Port where
  train   : TrainSt
  /-- The training is a retrain of R274. -/
  retrain : Bool
  /-- The first training since cold reset has not ended (PORT_STATE[3]). -/
  fresh   : Bool
  /-- Bonds found bad in this training (lane × 64 + bond). -/
  bad     : List Nat
  gotTs1  : Bool
  gotTs2  : Bool
  widthIn  : Nat
  widthOut : Nat
  /-- Sequence number of the next flit expected and of the next flit sent (R275). -/
  rxSeq   : Nat
  txSeq   : Nat
  /-- Flits sent and not acknowledged, oldest first: the replay buffer of R278. -/
  replay  : List (Nat × List Byte)
  /-- What has been put on the lanes, oldest first. -/
  wire    : List LaneSend
  /-- Transactions issued whose header has not been sent yet. -/
  queue   : List Txn
  /-- Data flits of headers sent, in order, with job and cluster (R275). -/
  owing   : List (List Byte × Option Nat × Option Nat)
  /-- The requester granted last on each channel, by stream (R30). -/
  turn    : List Nat
  /-- A replay request is due (R279). -/
  ask     : Bool
  /-- Flits sent that the estimator has not collected. -/
  load    : List Load
  /-- Credits granted by the hub, VC v: header and data. -/
  hubHdr  : List Nat
  hubData : List Nat
  /-- Credits of the die that the hub has not used, VC v (R280). -/
  dieHdr  : List Nat
  dieData : List Nat
  /-- Headers received whose data flits are still owed. -/
  owed    : List Owed
  /-- Transactions received whole, oldest first: their rows perform them. -/
  rx      : List (List Word × List Byte)
  /-- A CRC failure has stopped reception until the replay (R279). -/
  skipping : Bool
  lastAck : Option Nat
  ackRun  : Nat
  laneErr : SMap Nat
  /-- Times in ns of the CRC errors of each lane within the last RETRAIN_TH.WINDOW (R274). -/
  winErr  : SMap (List Nat)
  /-- Replay requests sent in a row without a flit received in order (R279). -/
  reqRun  : Nat
  /-- Credits to return to the hub, VC v (R280). -/
  backHdr  : List Nat
  backData : List Nat
  /-- Active lanes on which the alignment flit has come (R269). -/
  aligned : List Nat
  /-- The management bonds of R265. -/
  pwakeO  : Bool
  pwakeI  : Bool
  paliveO : Bool
  paliveI : Bool
  strobes : Bool
  deriving DecidableEq, Repr

def Port.initial : Port :=
  { train := .down, retrain := false, fresh := true, bad := [], gotTs1 := false, gotTs2 := false,
    widthIn := 32, widthOut := 32, rxSeq := 0, txSeq := 0, replay := [], wire := [], queue := [],
    owing := [], turn := [15, 15, 15, 15], ask := false, load := [],
    hubHdr := [0, 0, 0, 0], hubData := [0, 0, 0, 0], dieHdr := [0, 128, 512, 32],
    dieData := [0, 2048, 512, 32], owed := [], rx := [], skipping := false, lastAck := none,
    ackRun := 0, laneErr := [], winErr := [], reqRun := 0,
    backHdr := [0, 0, 0, 0], backData := [0, 0, 0, 0], aligned := [], pwakeO := false, pwakeI := false,
    paliveO := true, paliveI := false, strobes := true }

/-! ## Die-level blocks -/

/-- A protection entry: its six words (R452). -/
structure ProtEntry where
  scope  : Word
  jobs   : Word
  baseLo : Word
  baseHi : Word
  pages  : Word
  rights : Word
  deriving DecidableEq, Repr

def ProtEntry.zero : ProtEntry := ⟨0, 0, 0, 0, 0, 0⟩

/-- States of a communication group (R428). -/
inductive GroupSt where
  | empty | forming | formed | fencing | degraded | discord
  deriving DecidableEq, Repr

/-- One group entry with the exchange in progress (R428, R431). -/
structure Group where
  st       : GroupSt
  mask     : Nat
  exchange : Nat
  epoch    : Word
  conc     : Word
  digest   : List Byte
  lost     : Nat
  members  : List Word
  self     : Nat
  skew     : Nat
  skewPos  : Nat
  round2   : Bool
  /-- Words 2 to 5 of the own round-1 record. -/
  mine     : List Nat
  /-- SENT of the own round-1 record to slot m (R430). -/
  sent     : SMap Nat
  deriving DecidableEq, Repr

def Group.zero : Group :=
  { st := .empty, mask := 0, exchange := 0, epoch := 0, conc := 0, digest := [], lost := 0,
    members := List.replicate 16 0, self := 0, skew := 0, skewPos := 0, round2 := false, mine := [], sent := [] }

/-- The time base (R300): the count, whether it is locked, the copy in use and bad frames in a row; and the
reference copies present, of four (R6, R309). -/
structure TimeBase where
  now    : Nat
  lock   : Bool
  copy   : Nat
  bad0   : Nat
  bad1   : Nat
  pass0  : Bool
  pass1  : Bool
  ref    : Nat
  deriving DecidableEq, Repr

/-- Side-band endpoint and pins (R301 to R308). -/
structure SideBand where
  dynAddr : Option (BitVec 7)
  ibi     : Bool
  ucodeLo : Word
  ucodeHi : Word
  wroteLo : Bool
  wroteHi : Bool
  rstact  : Byte
  /-- Bytes of the in-band interrupts raised, oldest first (R303). -/
  ibis    : List Byte
  /-- What the endpoint returned to the GET commands, oldest first. -/
  replies : List (List Byte)
  bootFailed : Bool
  /-- A COOLSTOP bond went low and was not found high since (R308). -/
  bondLow : Bool
  /-- VOKd by domain and the step requested on VREQd (R307). -/
  vok     : List Bool
  vreq    : List Nat
  /-- Instruction of the test access port (R305). -/
  tap     : TapInstr
  /-- Cells of the die wrapper register that hold 1: one cell per signal bond, 33 segments one after another, those of
  ports 0 to 31 of 2,438 cells each and the die-level one of 128 (R262; log entry 99). -/
  wrapper : List Nat
  /-- What the last scan shifted out. -/
  tapOut  : List Bool
  deriving DecidableEq, Repr

/-- Fused values (R441). They survive every reset. -/
structure Fuses where
  /-- The identity key d_ID, 48 bytes, which only the ECDSA engine reads. -/
  identity  : List Byte
  serial    : BitVec 64
  rootHash  : List Byte
  /-- SVN_MIN: 64 fuses in thermometer code. -/
  svnFuses  : BitVec 64
  ownerHash : Option (List Byte)
  killed    : Bool
  deriving DecidableEq, Repr

/-- The number of blown SVN_MIN fuses. -/
def Fuses.svnMin (f : Fuses) : Nat := ((List.range 64).filter fun i => f.svnFuses.getLsbD i).length

/-- The working state of the deterministic random bit generator of R445: a key of 32 bytes and a counter block. -/
structure Drbg where
  key : List Byte
  v   : Nat
  deriving DecidableEq, Repr

def Drbg.zero : Drbg := { key := List.replicate 32 0, v := 0 }

/-- The cryptographic boundary's volatile state (R441, R450). -/
structure Sec where
  keys      : SMap (List Byte)
  kaPriv    : List Byte
  /-- The DRBG's working state and its requests since it was instantiated (R445). -/
  drbg      : Drbg
  since     : Nat
  /-- Seedings of the DRBG so far, over every reset: the model's own number of the next entropy input. -/
  seeds     : Nat
  challenge : Option (List Byte)
  session   : Bool
  failed    : Nat
  error     : Bool
  testOk    : Bool
  svn       : Nat
  ucodeMeas : List Byte
  deriving DecidableEq, Repr

/-- Audit records held on the die (R459) and the chain head; `configured` once RING_SIZE was written. -/
structure Audit where
  head  : List Byte
  held  : List (List Byte)
  configured : Bool
  deriving DecidableEq, Repr

/-- The values of R435: UCODE, NUMERIC and FEATURES as latched. -/
structure Latched where
  ucode    : Word
  numeric  : Word
  features : Word
  deriving DecidableEq, Repr

/-- A securing in progress (R417 to R422). -/
structure Securing where
  op      : Nat
  clusters : List Nat
  handles : List Nat
  /-- Drained side of handle h of cluster c, by c × 64 + h. -/
  side    : SMap Bool
  snapshot : Bool
  /-- Next slot to drain in a cluster: position within its handles and slot, by cluster. -/
  pos     : SMap (Nat × Nat)
  imageId : Word
  ivBase  : List Byte
  /-- `data_pos` of the queue's last entry before it (R422). -/
  dpos    : Nat
  /-- Bytes of the section that a cluster is draining. -/
  acc     : SMap (List Byte)
  /-- Digest records made so far, by section number. -/
  digests : SMap (List Byte)
  /-- Slots drained (R423 DRAINED). -/
  drained : Nat
  /-- Every section and digest has been written; their FLUSHes are out (R421). -/
  written : Bool
  /-- Writers accepted before it, which write the drained side (R419). -/
  older   : List Nat
  failed  : Option Nat
  deriving DecidableEq, Repr

/-- Activity counted in the present control period (R365), by (island, kind of event, job). -/
structure Activity where
  island : Nat
  kind   : Nat
  job    : Option Nat
  count  : Nat
  deriving DecidableEq, Repr

/-- What the die keeps of a measurement interval (R366, R374): its number, raw energies in 1/256 µJ by supply,
of each cluster (memory, compute) and its link traffic, and the phase that alone held each cluster from
the interval's first period on. -/
structure Interval where
  number : Nat
  raw    : SMap Nat
  split  : SMap (Nat × Nat)
  /-- Link energy by cluster, divided by the bytes that each carried. -/
  link   : SMap Nat
  sole   : SMap (Option Nat)
  deriving DecidableEq, Repr

/-- The power controller's internal state (R365 to R377). -/
structure Power where
  /-- Events of the present control period, and its link traffic by job and cluster. -/
  activity : List Activity
  load     : List Load
  /-- The running measurement interval and the four most recent completed ones, newest first (R366). -/
  held     : List Interval
  /-- Energies of the tickets, of no ticket and of the cluster islands in 1/256 µJ (R364, R376). -/
  ticket   : SMap Nat
  loose    : Nat
  energy   : SMap Nat
  /-- The prediction for the present period, in mW (R373). -/
  predicted : Nat
  /-- Calibrated energies of the last 1,000 control periods in 1/256 µJ, newest first (R377). -/
  periods  : List Nat
  /-- The learner's entries, least recently used first (R374). -/
  lru      : List Nat
  /-- Domains that wait for their islands to step down before VREQ falls (R40), with the new step. -/
  lowering : SMap Nat
  deriving DecidableEq, Repr

/-- Sensors whose last working sample was at or above 125 °C (R388). -/
structure Therm where
  hot    : List Nat
  deriving DecidableEq, Repr

/-- The health monitor's counters over the present millisecond (R397) and its armed events (R399). -/
structure Health where
  ce      : Nat
  retrain : Nat
  droop   : Nat
  replay  : Nat
  alertArmed  : Bool
  secureArmed : Bool
  failed  : Bool
  deriving DecidableEq, Repr

/-- How a replay stands (R411, R416). -/
inductive ReplaySt where
  | idle
  /-- Replays of work in flight: the operations that wait, in journal order. -/
  | flight (todo : List Nat)
  /-- Replay from the journal: next index. -/
  | journal (next : Word)
  /-- The entry at this index failed with a status; the die is about to stop. -/
  | failing (index : Word) (status : Nat)
  | stopped
  deriving DecidableEq, Repr

/-- What the steward is doing (R462 to R476). -/
inductive ShutSt where
  | none | stopping | securing | done
  deriving DecidableEq, Repr

/-- The whole block. -/
structure State where
  /-- Adopted or current registers, by key; unlisted keys read their reset value. -/
  regs    : SMap Word
  /-- Shadow copies of RS registers, by key (R347). -/
  shad    : SMap Word
  /-- Bytes of the central stores, by ((cluster × 48 + bank) × 512 + row) × 64 + byte (R214). -/
  store   : List Host.Cell
  /-- Full slots, by (cluster × 48 + bank) × 512 + row (R236). -/
  full    : List Nat
  /-- Moved bits of a securing, by handle (cluster × 64 + h) × 2¹⁵ + slot (R419). -/
  moved   : List Nat
  /-- Bank power states, by cluster × 48 + bank; unlisted: on. -/
  banks   : SMap BankSt
  /-- Accesses that wait in a cluster's crossbar, in issue order (R216). -/
  xbar    : SMap (List BankAcc)
  /-- Parked accesses, by cluster × 48 + bank, oldest first (R238). -/
  parked  : SMap (List BankAcc)
  /-- Windows whose close has taken effect at the home port, by cluster × 64 + handle (R252). -/
  closing : List Nat
  /-- Context and end policy of a handle's owner, by cluster × 64 + handle (R232, R260). -/
  owners  : SMap (Option Nat × Bool)
  /-- Tasks that ended while their window was open, by cluster × 64 + handle: END_DARK (R260). -/
  endedOwners : SMap Bool
  /-- Staging by cluster (R162). -/
  stage   : SMap Staging
  cores   : SMap Core
  islands : SMap Island
  queues  : SMap Queue
  ops     : List OpRec
  nextOp  : Nat
  ports   : SMap Port
  /-- Transactions that the die has issued, oldest first. -/
  out     : List Txn
  outst   : List Outst
  /-- Interrupt vectors with a message outstanding, from its FLUSH (R292) to its MACK (R331). -/
  vecBusy : List Nat
  prot    : SMap ProtEntry
  groups  : SMap Group
  time    : TimeBase
  sb      : SideBand
  fuses   : Fuses
  sec     : Sec
  audit   : Audit
  latched : Latched
  securing : Option Securing
  power   : Power
  therm   : Therm
  health  : Health
  replay  : ReplaySt
  /-- Journal entries from FLOOR to WRITTEN − 1 (R407). -/
  journal : List JEntry
  /-- FLOOR of the last header of the journal control block that was written and flushed (R407). -/
  jfloor  : Word
  /-- Last secured image of each queue (R408). -/
  images  : SMap ImageInfo
  /-- The recovery period of R471, from step 10 of start-up. -/
  recovery : Bool
  /-- No transaction leaves the die and no access is served (R310, R390, R476). -/
  mute    : Bool
  /-- The stop sequence of R390 has made every island dark. -/
  stopped : Bool
  shut    : ShutSt
  /-- MB_STAT's result of a running shutdown. -/
  shutResult : Nat
  /-- For a pending cluster page, by its die offset: the operations that held the cluster at the request
  (R349). -/
  commitHold : SMap (List Nat)
  /-- Injections since T_INJ was last written, by the key of T_INJ (R357). -/
  injected : SMap Nat
  /-- Turn of the imposition unit (R161). -/
  turn    : Nat
  /-- The model's counter of free values. -/
  free    : Nat
  /-- Commands that wait, first in, first out. -/
  pending : List Instr
  deriving DecidableEq, Repr

/-- The die right after a cold reset (R17, R472): every register at its Reset value, ADMIT in start-up,
start-up in step 1. Values the spec does not state are named in log entries 1 and 2. -/
def State.reset : State :=
  { regs := [], shad := [], store := [], full := [], moved := [], banks := [], xbar := [], parked := [],
    closing := [], owners := [], endedOwners := [], stage := [], cores := [], islands := [], queues := [],
    ops := [], nextOp := 0, ports := [], out := [], outst := [], vecBusy := [],
    prot := [], groups := [],
    time := { now := 0, lock := false, copy := 0, bad0 := 0, bad1 := 0, pass0 := false, pass1 := false,
              ref := 15 },
    sb := { dynAddr := none, ibi := false, ucodeLo := 0, ucodeHi := 0, wroteLo := false, wroteHi := false,
            rstact := 0, ibis := [], replies := [],
            bootFailed := false, bondLow := false, vok := List.replicate 20 true,
            vreq := List.replicate 20 9, tap := .idcode, wrapper := [], tapOut := [] },
    fuses := { identity := List.replicate 48 0, serial := 0, rootHash := List.replicate 48 0, svnFuses := 0, ownerHash := none,
               killed := false },
    sec := { keys := [], kaPriv := [], drbg := Drbg.zero, since := 0, seeds := 0, challenge := none, session := false, failed := 0,
             error := false, testOk := false, svn := 0, ucodeMeas := List.replicate 48 0 },
    audit := { head := List.replicate 48 0, held := [], configured := false },
    latched := { ucode := 0, numeric := 0, features := 0 },
    securing := none,
    power := { activity := [], load := [], held := [], ticket := [], loose := 0, energy := [],
               predicted := 0, periods := [], lru := [], lowering := [] },
    therm := { hot := [] },
    health := { ce := 0, retrain := 0, droop := 0, replay := 0, alertArmed := true, secureArmed := true,
                failed := false },
    replay := .idle, journal := [], jfloor := 0, images := [], recovery := false, mute := false, stopped := false, shut := .none,
    shutResult := 0, commitHold := [], injected := [], turn := 0, free := 0, pending := [] }

end Sys2Proof.Machine
end

