-- ==== Sys2Proof/Machine/Bits.lean ====
section
/-!
DEFINITION. Bit fields, little-endian byte strings (R10, R11) and sparse maps, as named operations.
-/

namespace Sys2Proof.Machine

/-- Bits [lo + w − 1 : lo] of a number (R10, R20). -/
def fld (x lo w : Nat) : Nat := x / 2 ^ lo % 2 ^ w

/-- Bit `i` of a number. -/
def bit (x i : Nat) : Bool := decide (x / 2 ^ i % 2 = 1)

/-- The number with bits [lo + w − 1 : lo] replaced by `v`. -/
def putFld (x lo w v : Nat) : Nat :=
  x % 2 ^ lo + (v % 2 ^ w) * 2 ^ lo + (x / 2 ^ (lo + w)) * 2 ^ (lo + w)

def b2n (b : Bool) : Nat := if b then 1 else 0

/-- A 32-bit word from a number, modulo 2³². -/
def w32 (x : Nat) : Word := BitVec.ofNat 32 x

/-- `n` bytes of a number, least significant first (R10). -/
def toLE : Nat → Nat → List Byte
  | 0, _ => []
  | n + 1, x => BitVec.ofNat 8 x :: toLE n (x / 256)

/-- The number of a little-endian byte string. -/
def ofLE : List Byte → Nat
  | [] => 0
  | b :: t => b.toNat + 256 * ofLE t

/-- The number of a big-endian byte string (R440). -/
def ofBE (l : List Byte) : Nat := l.foldl (fun a b => a * 256 + b.toNat) 0

/-- `n` bytes of a number, most significant first. -/
def toBE (n x : Nat) : List Byte := (toLE n x).reverse

/-- A byte string cut or zero-filled to a length. -/
def fitBytes : Nat → List Byte → List Byte
  | 0, _ => []
  | n + 1, [] => 0 :: fitBytes n []
  | n + 1, b :: t => b :: fitBytes n t

def zeros (n : Nat) : List Byte := List.replicate n 0

/-- ceil(a, b) of R20. -/
def ceilDiv (a b : Nat) : Nat := (a + b - 1) / b

/-! ## Sparse maps -/

def SMap.find {α : Type} : SMap α → Nat → Option α
  | [], _ => none
  | (j, w) :: t, k => if j = k then some w else SMap.find t k

def SMap.getD {α : Type} (m : SMap α) (k : Nat) (d : α) : α := (SMap.find m k).getD d

/-- Insert or replace, keeping ascending keys. -/
def SMap.put {α : Type} : SMap α → Nat → α → SMap α
  | [], k, v => [(k, v)]
  | (j, w) :: t, k, v =>
    if k < j then (k, v) :: (j, w) :: t
    else if k = j then (k, v) :: t
    else (j, w) :: SMap.put t k v

def SMap.del {α : Type} : SMap α → Nat → SMap α
  | [], _ => []
  | (j, w) :: t, k => if j = k then SMap.del t k else (j, w) :: SMap.del t k

/-- Store a value in a map whose unlisted keys read `d`: a default value removes the entry, so that
equal maps are equal lists. -/
def SMap.putD {α : Type} [DecidableEq α] (m : SMap α) (k : Nat) (v d : α) : SMap α :=
  if v = d then SMap.del m k else SMap.put m k v

/-- Drop every entry whose key lies in [lo, hi). -/
def SMap.dropRange {α : Type} (m : SMap α) (lo hi : Nat) : SMap α :=
  m.filter fun p => !(decide (lo ≤ p.1) && decide (p.1 < hi))

/-- Keep only the entries whose key satisfies `p`. -/
def SMap.keep {α : Type} (m : SMap α) (p : Nat → Bool) : SMap α := m.filter fun e => p e.1

/-! ## Sets of numbers as ascending lists without repeats -/

def setIns : List Nat → Nat → List Nat
  | [], k => [k]
  | j :: t, k => if k < j then k :: j :: t else if k = j then j :: t else j :: setIns t k

def setDel (l : List Nat) (k : Nat) : List Nat := l.filter (· ≠ k)

def setHas (l : List Nat) (k : Nat) : Bool := l.any (· == k)

/-- First occurrence of each element, in order. -/
def dedup : List Nat → List Nat
  | [] => []
  | a :: t => if t.any (· == a) then dedup t else a :: dedup t

/-- Remove the n-th element. -/
def dropAt {α : Type} : List α → Nat → List α
  | [], _ => []
  | _ :: t, 0 => t
  | a :: t, n + 1 => a :: dropAt t n

/-- Replace the n-th element. -/
def setAt {α : Type} : List α → Nat → α → List α
  | [], _, _ => []
  | _ :: t, 0, b => b :: t
  | a :: t, n + 1, b => a :: setAt t n b

/-- CRC-16 with generator 1021h, start value FFFFh and no final inversion (R277), one byte, most
significant bit first. -/
def crcBit (crc : Nat) : Nat :=
  if crc / 0x8000 % 2 = 1 then (crc * 2) % 0x10000 ^^^ 0x1021 else (crc * 2) % 0x10000

def crcByte (crc : Nat) (b : Byte) : Nat :=
  crcBit (crcBit (crcBit (crcBit (crcBit (crcBit (crcBit (crcBit (crc ^^^ (b.toNat * 256)))))))))

def crc16 (l : List Byte) : BitVec 16 := BitVec.ofNat 16 (l.foldl crcByte 0xFFFF)

/-- CRC of a flit: its sequence number as two little-endian bytes, then its 64 bytes (R277). -/
def flitCrc (seq : Nat) (flit : List Byte) : BitVec 16 := crc16 (toLE 2 (seq % 4096) ++ flit)

/-- Add modulo 2³². -/
def inc (w : Word) (n : Nat := 1) : Word := w + w32 n

/-- Add and stop at FFFF_FFFFh. -/
def incSat (w : Word) : Word := if w.toNat = 0xFFFFFFFF then w else w + 1

end Sys2Proof.Machine
end

