-- ==== Sys2Proof/Machine/Aes.lean ====
section
/-!
DEFINITION. AES-256-GCM, which R420 names by NIST SP 800-38D with FIPS 197 behind it (PRESUMED, log entry 8): the block
cipher, the hash over GF(2¹²⁸), and sealing and opening with a 96-bit IV.
-/

namespace Sys2Proof.Machine

/-! ## Bytes as polynomials -/

/-- A byte times x, reduced. -/
def timesX (b : Nat) : Nat := if b < 128 then 2 * b else (2 * b) ^^^ 0x11B

/-- Product of two bytes: the second from its top bit down. -/
def byteMul (a b : Nat) : Nat :=
  (List.range 8).foldl (fun y i => timesX y ^^^ (if b / 2 ^ (7 - i) % 2 = 1 then a else 0)) 0

/-- The inverse of a byte, its 254th power; 0 for 0. -/
def byteInv (a : Nat) : Nat :=
  let sq (x : Nat) : Nat := byteMul x x
  let a3 := byteMul (sq a) a
  let a15 := byteMul (sq (sq a3)) a3
  let a60 := sq (sq a15)
  let a63 := byteMul a60 a3
  sq (byteMul (sq a63) a)

/-- The substitution: the inverse, then the affine map. -/
def subByte (a : Nat) : Nat :=
  let y := byteInv a
  (List.range 5).foldl (fun z i => z ^^^ y * 257 / 2 ^ (8 - i) % 256) 0 ^^^ 0x63

/-! ## The block cipher -/

def xorBytes (a b : List Nat) : List Nat := List.zipWith (· ^^^ ·) a b

/-- The next word of the key schedule: `l` holds the last eight words, oldest first; `i` is its index. -/
def scheduleWord (i : Nat) (l : List (List Nat)) : List Nat :=
  let old := (l.head?).getD []
  let last := (l.getLast?).getD []
  let t :=
    if i % 8 = 0 then xorBytes ((last.drop 1 ++ last.take 1).map subByte) [2 ^ (i / 8 - 1), 0, 0, 0]
    else if i % 8 = 4 then last.map subByte
    else last
  xorBytes old t

/-- Sixty words: fifteen round keys. -/
def keyWords (key : List Nat) : List (List Nat) :=
  let first := (List.range 8).map fun i => (key.drop (4 * i)).take 4
  (List.range 52).foldl (fun l n => l ++ [scheduleWord (n + 8) (l.drop n)]) first

def roundKey (ws : List (List Nat)) (r : Nat) : List Nat := ((ws.drop (4 * r)).take 4).flatten

/-- Row r of the state turned left by r columns. -/
def shiftRows (b : List Nat) : List Nat :=
  (List.range 16).map fun i => (b[i % 4 + 4 * ((i / 4 + i % 4) % 4)]?).getD 0

/-- Each column times the fixed polynomial. -/
def mixColumns (b : List Nat) : List Nat :=
  (List.range 16).map fun i =>
    let at_ (k : Nat) : Nat := (b[i / 4 * 4 + (i + k) % 4]?).getD 0
    timesX (at_ 0) ^^^ (timesX (at_ 1) ^^^ at_ 1) ^^^ at_ 2 ^^^ at_ 3

/-- AES-256 of one block. -/
def aesBlock (ws : List (List Nat)) (b : List Nat) : List Nat :=
  let inner := (List.range 13).foldl
    (fun x r => xorBytes (mixColumns (shiftRows (x.map subByte))) (roundKey ws (r + 1))) (xorBytes b (roundKey ws 0))
  xorBytes (shiftRows (inner.map subByte)) (roundKey ws 14)

/-! ## GCM -/

/-- Product in GF(2¹²⁸), the first bit of a block the lowest power. -/
def blockMul (x y : Nat) : Nat :=
  ((List.range 128).foldl
    (fun (z : Nat × Nat) i =>
      (if x / 2 ^ (127 - i) % 2 = 1 then z.1 ^^^ z.2 else z.1,
        if z.2 % 2 = 1 then (z.2 / 2) ^^^ 0xE1 * 2 ^ 120 else z.2 / 2)) (0, y)).1

/-- The blocks of a string, the last one filled with zeros, as numbers. -/
def gcmBlocks (l : List Byte) : List Nat :=
  (List.range (ceilDiv l.length 16)).map fun i => ofBE (fitBytes 16 ((l.drop (16 * i)).take 16))

/-- A cipher key at work: its round keys. -/
def sealKey (key : List Byte) : List (List Nat) := keyWords ((fitBytes 32 key).map BitVec.toNat)

/-- The key stream of a counter value, 16 bytes. -/
def counterBlock (ws : List (List Nat)) (iv : List Byte) (n : Nat) : List Byte :=
  (aesBlock ws ((fitBytes 12 iv ++ toBE 4 n).map BitVec.toNat)).map (BitVec.ofNat 8)

/-- The key stream over bytes `off` to `off + n - 1` of a text, where `off` is a multiple of 16. -/
def keyStream (key iv : List Byte) (off n : Nat) : List Byte :=
  let ws := sealKey key
  ((List.range (ceilDiv n 16)).flatMap fun i => counterBlock ws iv (2 + off / 16 + i)).take n

/-- Ciphertext of a part of a text from its plaintext, or the reverse. -/
def gcmPart (key iv : List Byte) (off : Nat) (d : List Byte) : List Byte :=
  List.zipWith (· ^^^ ·) d (keyStream key iv off d.length)

/-- The 16-byte tag of a ciphertext and its additional data. -/
def gcmTag (key iv aad ct : List Byte) : List Byte :=
  let ws := sealKey key
  let h := ofBE ((aesBlock ws (List.replicate 16 0)).map (BitVec.ofNat 8))
  let lens := 8 * aad.length * 2 ^ 64 + 8 * ct.length
  let g := (gcmBlocks aad ++ gcmBlocks ct ++ [lens]).foldl (fun y b => blockMul (y ^^^ b) h) 0
  List.zipWith (· ^^^ ·) (toBE 16 g) (counterBlock ws iv 1)

/-- Open a ciphertext: its plaintext when the tag verifies. -/
def gcmOpen (key iv aad ct tag : List Byte) : Option (List Byte) :=
  if gcmTag key iv aad ct = tag then some (gcmPart key iv 0 ct) else none

end Sys2Proof.Machine
end

