-- ==== Sys2Proof/Machine/Curve.lean ====
section
/-!
DEFINITION. The curve P-384 with ECDSA and ECDH, which R441, R442, R444, R447 and R450 name without restating them
(FIPS 186-5, SP 800-186, SP 800-56A; PRESUMED, log entry 6). Byte strings follow R440.
-/

namespace Sys2Proof.Machine

/-! ## The field and the curve y² = x³ − 3 x + b -/

def fieldPrime : Nat := 2 ^ 384 - 2 ^ 128 - 2 ^ 96 + 2 ^ 32 - 1

/-- The order of the base point. -/
def curveOrder : Nat :=
  2 ^ 384 - 0x389CB27E0BC8D220A7E5F24DB74F58851313E695333AD68D

def curveB : Nat := 0xB3312FA7E23EE7E4988E056BE3F82D19181D9C6EFE8141120314088F5013875AC656398D8A2ED19D2A85C8EDD3EC2AEF

def baseX : Nat := 0xAA87CA22BE8B05378EB1C71EF320AD746E1D3B628BA79B9859F741E082542A385502F25DBF55296C3A545E3872760AB7

def baseY : Nat := 0x3617DE4A96262C6F5D9E98BF9292DC29F8F41DBD289A147CE9DA3113B5F0B8C00A60B1CE1D7E819D7A431D7C90EA0E5F

/-- A point by its coordinates; `none` at infinity. -/
abbrev Point := Option (Nat × Nat)

def basePoint : Point := some (baseX, baseY)

/-- A power modulo `m`, over the 384 bits of an exponent, the highest first. -/
def powMod (m a e : Nat) : Nat :=
  (List.range 384).foldl
    (fun y i => if e.testBit (383 - i) then y * y % m * a % m else y * y % m) 1

/-- The inverse modulo a prime. -/
def invMod (m a : Nat) : Nat := powMod m a (m - 2)

def subMod (m a b : Nat) : Nat := (a + m - b % m) % m

/-- The point where the line of slope `k` through two points meets the curve again, mirrored. -/
def thirdPoint (k x1 y1 x2 : Nat) : Point :=
  let x := subMod fieldPrime (subMod fieldPrime (k * k) x1) x2
  some (x, subMod fieldPrime (k * subMod fieldPrime x1 x) y1)

def addPoints (a b : Point) : Point :=
  match a, b with
  | none, q => q
  | q, none => q
  | some (x1, y1), some (x2, y2) =>
    if x1 ≠ x2 then
      thirdPoint (subMod fieldPrime y2 y1 * invMod fieldPrime (subMod fieldPrime x2 x1) % fieldPrime) x1 y1 x2
    else if (y1 + y2) % fieldPrime = 0 then none
    else thirdPoint (subMod fieldPrime (3 * x1 * x1) 3 * invMod fieldPrime (2 * y1) % fieldPrime) x1 y1 x2

/-- A multiple of a point. -/
def mulPoint (k : Nat) (a : Point) : Point :=
  (List.range 384).foldl
    (fun y i => if k.testBit (383 - i) then addPoints (addPoints y y) a else addPoints y y) none

/-! ## Strings -/

/-- X followed by Y, 48 bytes each (R440). -/
def pointBytes (a : Point) : List Byte :=
  match a with
  | some (x, y) => toBE 48 x ++ toBE 48 y
  | none => zeros 96

/-- The point that 96 bytes name, if it lies on the curve. -/
def pointOf (b : List Byte) : Point :=
  let x := ofBE (b.take 48)
  let y := ofBE ((b.drop 48).take 48)
  if x < fieldPrime ∧ y < fieldPrime ∧ y * y % fieldPrime = (x * x * x + (fieldPrime - 3) * x + curveB) % fieldPrime then
    some (x, y)
  else none

/-- A private scalar from 48 random bytes. -/
def scalarOf (b : List Byte) : Nat := ofBE (b.take 48) % (curveOrder - 1) + 1

/-- The public half of a key-agreement key pair (R441). -/
def kaPublic (priv : List Byte) : List Byte := pointBytes (mulPoint (scalarOf priv) basePoint)

/-- The shared secret of ECDH, 48 bytes; `none` for a public key that is no point of the curve (R442). -/
def sharedSecret (priv pub : List Byte) : Option (List Byte) :=
  match pointOf pub with
  | none => none
  | some q => (mulPoint (scalarOf priv) (some q)).map fun z => toBE 48 z.1

/-! ## ECDSA -/

/-- A signature with a private key over a digest, r followed by s, with a per-signature secret from 48 random bytes. -/
def ecdsaSign (key digest secret : List Byte) : List Byte :=
  let k := scalarOf secret
  let r := (((mulPoint k basePoint).map (·.1)).getD 0) % curveOrder
  let s := invMod curveOrder k * (ofBE (digest.take 48) + r * ofBE (key.take 48)) % curveOrder
  toBE 48 r ++ toBE 48 s

/-- Does a signature verify under a public key over a digest? -/
def ecdsaVerify (key digest sig : List Byte) : Bool :=
  let r := ofBE (sig.take 48)
  let s := ofBE ((sig.drop 48).take 48)
  match pointOf key with
  | none => false
  | some q =>
    if r = 0 ∨ s = 0 ∨ curveOrder ≤ r ∨ curveOrder ≤ s then false
    else
      let w := invMod curveOrder s
      match addPoints (mulPoint (ofBE (digest.take 48) * w % curveOrder) basePoint)
          (mulPoint (r * w % curveOrder) (some q)) with
      | some (x, _) => x % curveOrder == r
      | none => false

end Sys2Proof.Machine
end

