-- ==== Sys2Proof/Machine/Sha384.lean ====
section
/-!
DEFINITION. SHA-384, which the spec names in R404, R420, R430, R443, R452 and R459 without restating it
(FIPS 180-4; PRESUMED, log entry 8). The constants are computed from what that standard says they are, the fractions
of roots of the first primes, and a word is a number below 2⁶⁴.
-/

namespace Sys2Proof.Machine

/-! ## Constants -/

/-- The primes below 410, of which there are eighty. -/
def smallPrimes : List Nat :=
  (List.range 410).filter fun n => decide (1 < n) && (List.range 21).all fun d => decide (d < 2) || d == n || n % d != 0

/-- Largest number of `bits` further binary places below `r` whose `k`-th power is at most `x`. -/
def rootFrom (k x : Nat) : Nat → Nat → Nat
  | 0, r => r
  | bits + 1, r => rootFrom k x bits (if (r + 2 ^ bits) ^ k ≤ x then r + 2 ^ bits else r)

/-- The first 64 binary places of the fraction of the `k`-th root of a number below 512. -/
def rootFraction (k n : Nat) : Nat := rootFrom k (n * 2 ^ (64 * k)) 69 0 % 2 ^ 64

/-- Constants of the eighty rounds: cube roots of the first eighty primes. -/
def roundConsts : List Nat := smallPrimes.map (rootFraction 3)

/-- The chaining value at the start: square roots of the ninth to the sixteenth prime. -/
def chainStart : List Nat := ((smallPrimes.drop 8).take 8).map (rootFraction 2)

/-! ## One block -/

/-- A word turned right by `n` places: the word written twice, read `n` places up. -/
def turned (x n : Nat) : Nat := x * (2 ^ 64 + 1) / 2 ^ n % 2 ^ 64

/-- The three rotations that a round mixes, and the two rotations and one shift of the message schedule. -/
def mixTurns (x : Nat) (l : List Nat) : Nat := l.foldl (fun y n => y ^^^ turned x n) 0

def scheduleLow (x : Nat) : Nat := mixTurns x [1, 8] ^^^ x / 2 ^ 7
def scheduleHigh (x : Nat) : Nat := mixTurns x [19, 61] ^^^ x / 2 ^ 6

/-- One round on the eight working words, oldest last. -/
def hashRound (k w : Nat) : List Nat → List Nat
  | [p, q, r, s, t, u, v, x] =>
    let choice := (t &&& (u ^^^ v)) ^^^ v
    let most := (p &&& q) ||| (r &&& (p ||| q))
    let low := x + mixTurns t [14, 18, 41] + choice + k + w
    [(low + mixTurns p [28, 34, 39] + most) % 2 ^ 64, p, q, r, (s + low) % 2 ^ 64, t, u, v]
  | l => l

/-- The rounds, each with the oldest of sixteen schedule words, which its successor's sum replaces at the end. -/
def hashRounds (ks : List Nat) (sched work : List Nat) : List Nat :=
  (ks.foldl
    (fun (x : List Nat × List Nat) k =>
      let at_ (i : Nat) : Nat := (x.1[i]?).getD 0
      let next := (at_ 0 + scheduleLow (at_ 1) + at_ 9 + scheduleHigh (at_ 14)) % 2 ^ 64
      (x.1.drop 1 ++ [next], hashRound k (at_ 0) x.2)) (sched, work)).2

/-- Big-endian words of a block. -/
def beWords (n : Nat) (l : List Byte) : List Nat := (List.range n).map fun i => ofBE ((l.drop (8 * i)).take 8)

/-- A block enters the chaining value. -/
def hashBlock (chain : List Nat) (block : List Byte) : List Nat :=
  List.zipWith (fun a b => (a + b) % 2 ^ 64) chain (hashRounds roundConsts (beWords 16 block) chain)

/-- A 1 bit, zeros up to 16 bytes before a block's end, and the length in bits. -/
def padded (l : List Byte) : List Byte := l ++ 0x80 :: zeros ((239 - l.length % 128) % 128) ++ toBE 16 (8 * l.length)

/-- SHA-384 of a byte string, 48 bytes. -/
def sha384 (l : List Byte) : List Byte :=
  let p := padded l
  (((List.range (p.length / 128)).foldl (fun c i => hashBlock c ((p.drop (128 * i)).take 128)) chainStart).take 6).flatMap
    (toBE 8)

end Sys2Proof.Machine
end

