-- ==== Sys2Proof/Machine/Keys.lean ====
section
/-!
DEFINITION. Key transport and the random bit generator of the cryptographic boundary: the inverse cipher and AES key
wrap, the derivation of a key-encryption key (R442), and CTR_DRBG (R445), by the standards that those rules name
(FIPS 197, SP 800-38F, SP 800-56C, SP 800-90A; PRESUMED, log entry 6).
-/

namespace Sys2Proof.Machine

/-! ## The inverse cipher -/

/-- A byte turned left by `n` bits. -/
def turnByte (a n : Nat) : Nat := a * 2 ^ n % 256 + a / 2 ^ (8 - n)

/-- The inverse substitution. -/
def unsubByte (a : Nat) : Nat := byteInv (turnByte a 1 ^^^ turnByte a 3 ^^^ turnByte a 6 ^^^ 5)

/-- Row r of the state turned right by r columns. -/
def unshiftRows (b : List Nat) : List Nat :=
  (List.range 16).map fun i => (b[i % 4 + 4 * ((i / 4 + 4 - i % 4) % 4)]?).getD 0

/-- Each column times the inverse of the fixed polynomial. -/
def unmixColumns (b : List Nat) : List Nat :=
  (List.range 16).map fun i =>
    let term (k c : Nat) : Nat := byteMul ((b[i / 4 * 4 + (i + k) % 4]?).getD 0) c
    term 0 14 ^^^ term 1 11 ^^^ term 2 13 ^^^ term 3 9

/-- The inverse of `aesBlock`. -/
def aesUnblock (ws : List (List Nat)) (b : List Nat) : List Nat :=
  let inner := (List.range 13).foldl
    (fun x r => unmixColumns (xorBytes ((unshiftRows x).map unsubByte) (roundKey ws (13 - r)))) (xorBytes b (roundKey ws 14))
  xorBytes ((unshiftRows inner).map unsubByte) (roundKey ws 0)

/-- The block cipher on bytes, with a key of 32 bytes. -/
def cipher (key : List Byte) (b : List Byte) : List Byte :=
  (aesBlock (sealKey key) (b.map BitVec.toNat)).map (BitVec.ofNat 8)

def uncipher (key : List Byte) (b : List Byte) : List Byte :=
  (aesUnblock (sealKey key) (b.map BitVec.toNat)).map (BitVec.ofNat 8)

/-! ## Key wrap and the image key's transport (R442) -/

/-- One step of the unwrap: the check half and the four key halves, with the step's number from 24 down. -/
def unwrapStep (key : List Byte) (x : List Byte × List (List Byte)) (t : Nat) : List Byte × List (List Byte) :=
  let i := (t - 1) % 4
  let b := uncipher key (fitBytes 8 (toBE 8 (ofBE x.1 ^^^ t)) ++ fitBytes 8 ((x.2[i]?).getD []))
  (b.take 8, setAt x.2 i (b.drop 8))

/-- The key that 40 wrapped bytes hold, if the check half comes out. -/
def keyUnwrap (key wrapped : List Byte) : Option (List Byte) :=
  let halves := (List.range 4).map fun i => (wrapped.drop (8 * i + 8)).take 8
  let x := (List.range 24).foldl (fun y n => unwrapStep key y (24 - n)) (wrapped.take 8, halves)
  if x.1 = List.replicate 8 0xA6 then some x.2.flatten else none

/-- The key-encryption key: FixedInfo is the slot number and SERIAL. -/
def wrappingKey (secret : List Byte) (slot serial : Nat) : List Byte :=
  (sha384 (toBE 4 1 ++ secret ++ toLE 1 slot ++ toLE 8 serial)).take 32

/-- The image key that LOAD_KEY receives: private key, ephemeral public key, slot, SERIAL, wrapped key; `none` when the
public key is no point of the curve or the check of the wrap fails. -/
def unwrapKey (priv eph : List Byte) (slot serial : Nat) (wrapped : List Byte) : Option (List Byte) :=
  (sharedSecret priv eph).bind fun z => keyUnwrap (wrappingKey z slot serial) wrapped

/-! ## CTR_DRBG with AES-256 and a derivation function (R445) -/

/-- `n` blocks of the counter mode after a counter value. -/
def counterRun (key : List Byte) (v n : Nat) : List Byte :=
  (List.range n).flatMap fun i => cipher key (toBE 16 ((v + i + 1) % 2 ^ 128))

/-- Three cipher blocks in a chain from a first block, as the derivation function ends. -/
def chainBlocks (key : List Byte) : Nat → List Byte → List Byte
  | 0, _ => []
  | n + 1, x => let y := cipher key x
    y ++ chainBlocks key n y

/-- The chained cipher over whole blocks. -/
def chainMac (key : List Byte) (data : List Byte) : List Byte :=
  (List.range (data.length / 16)).foldl
    (fun y i => cipher key (List.zipWith (· ^^^ ·) y ((data.drop (16 * i)).take 16))) (zeros 16)

/-- The derivation function: 48 bytes from an input. -/
def deriveSeed (input : List Byte) : List Byte :=
  let raw := toBE 4 input.length ++ toBE 4 48 ++ input ++ [0x80]
  let text := fitBytes (16 * ceilDiv raw.length 16) raw
  let key := (List.range 32).map (BitVec.ofNat 8)
  let mid := (List.range 3).flatMap fun i => chainMac key (toBE 4 i ++ zeros 12 ++ text)
  chainBlocks (mid.take 32) 3 ((mid.drop 32).take 16)

/-- The update with 48 bytes. -/
def Drbg.update (d : Drbg) (x : List Byte) : Drbg :=
  let t := List.zipWith (· ^^^ ·) (counterRun d.key d.v 3) x
  { key := t.take 32, v := ofBE (t.drop 32) }

/-- A seeding from entropy, at instantiation (from zero) or as a reseed. -/
def Drbg.seed (d : Drbg) (entropy : List Byte) : Drbg := d.update (deriveSeed entropy)

/-- One generate request of `n` bytes. -/
def Drbg.generate (d : Drbg) (n : Nat) : List Byte × Drbg :=
  (fitBytes n (counterRun d.key d.v (ceilDiv n 16)),
    ({ d with v := (d.v + ceilDiv n 16) % 2 ^ 128 } : Drbg).update (zeros 48))

end Sys2Proof.Machine
end

