-- ==== Sys2Proof/Machine/Ops.lean ====
section
/-!
DEFINITION. The named operations that every meaning is built from: reads and writes of the register file,
the central store, transactions and their tags, error captures, refusals, interrupts and completion flags.
-/

namespace Sys2Proof.Machine

/-! ## The register file -/

/-- The adopted or current value of a register. -/
def State.reg (s : State) (key : Nat) : Word := SMap.getD s.regs key (regReset key)

/-- Set a register; a value equal to the reset value is not listed, so that equal register files are
equal lists. -/
def State.setReg (s : State) (key : Nat) (v : Word) : State :=
  { s with regs := SMap.putD s.regs key v (regReset key) }

/-- The register as a number. -/
def State.regN (s : State) (key : Nat) : Nat := (s.reg key).toNat

def State.setRegN (s : State) (key : Nat) (v : Nat) : State := s.setReg key (w32 v)

/-- A field of a register. -/
def State.regF (s : State) (key lo w : Nat) : Nat := fld (s.regN key) lo w

def State.setRegF (s : State) (key lo w v : Nat) : State := s.setRegN key (putFld (s.regN key) lo w v)

/-- Set bits of a register. -/
def State.orReg (s : State) (key bits : Nat) : State := s.setReg key (s.reg key ||| w32 bits)

def State.incReg (s : State) (key : Nat) (n : Nat := 1) : State := s.setReg key (inc (s.reg key) n)

/-- The shadow copy of a register (R347): the value last written, or the adopted one. -/
def State.shadow (s : State) (key : Nat) : Word := (SMap.find s.shad key).getD (s.reg key)

def State.setShadow (s : State) (key : Nat) (v : Word) : State :=
  { s with shad := SMap.put s.shad key v }

/-! ## Pages -/

def pgDie : Page := ⟨.die, 0, 0⟩
def pgSteward : Page := ⟨.steward, 0, 0x1000⟩
def pgImpose : Page := ⟨.impose, 0, 0x2000⟩
def pgQueue (q : Nat) : Page := ⟨.queue, q, 0x4000 + q * 0x1000⟩
def pgPort (n : Nat) : Page := ⟨.hubport, n, 0x20000 + n * 0x1000⟩
def pgHublink : Page := ⟨.hublink, 0, 0x40000⟩
def pgPower : Page := ⟨.power, 0, 0x48000⟩
def pgTherm : Page := ⟨.therm, 0, 0x49000⟩
def pgHealth : Page := ⟨.health, 0, 0x4C000⟩
def pgJournal : Page := ⟨.journal, 0, 0x4D000⟩
def pgSecure : Page := ⟨.secure, 0, 0x4E000⟩
def pgGroup : Page := ⟨.group, 0, 0x50000⟩
def pgTime : Page := ⟨.time, 0, 0x51000⟩
def pgSec : Page := ⟨.sec, 0, 0x54000⟩
def pgAudit : Page := ⟨.audit, 0, 0x55000⟩
def pgProt : Page := ⟨.prot, 0, 0x56000⟩
def pgDigest : Page := ⟨.digest, 0, 0x58000⟩
def pgErragg : Page := ⟨.erragg, 0, 0x60000⟩
def pgTestctl : Page := ⟨.testctl, 0, 0x7F000⟩
def pgComp (c : Nat) : Page := ⟨.comp, c, clusterBase c⟩
def pgStore (c : Nat) : Page := ⟨.store, c, clusterBase c + 0x1000⟩
def pgIsland (c : Nat) : Page := ⟨.island, c, clusterBase c + 0x2000⟩
def pgCore (c : Nat) : Page := ⟨.coreAccess, c, clusterBase c + 0x3000⟩

/-- DETAIL of a state refusal (R342): the refusing page. -/
def Page.detail (p : Page) : Nat :=
  match p.kind with
  | .comp => 0x8000 + 4 * p.inst
  | .store => 0x8000 + 4 * p.inst + 1
  | .island => 0x8000 + 4 * p.inst + 2
  | .coreAccess => 0x8000 + 4 * p.inst + 3
  | _ => p.base / 0x1000

/-! ## Parts of the state -/

def State.core (s : State) (k : Nat) : Core := SMap.getD s.cores k Core.idle
def State.setCore (s : State) (k : Nat) (c : Core) : State :=
  { s with cores := SMap.putD s.cores k c Core.idle }

def State.queue (s : State) (q : Nat) : Queue := SMap.getD s.queues q Queue.initial
def State.setQueue (s : State) (q : Nat) (v : Queue) : State :=
  { s with queues := SMap.putD s.queues q v Queue.initial }

def State.port (s : State) (p : Nat) : Port := SMap.getD s.ports p Port.initial
def State.setPort (s : State) (p : Nat) (v : Port) : State :=
  { s with ports := SMap.putD s.ports p v Port.initial }

def State.island (s : State) (i : Nat) : Island := SMap.getD s.islands i Island.initial
def State.setIsland (s : State) (i : Nat) (v : Island) : State :=
  { s with islands := SMap.putD s.islands i v Island.initial }

def State.group (s : State) (g : Nat) : Group := SMap.getD s.groups g Group.zero
def State.setGroup (s : State) (g : Nat) (v : Group) : State :=
  { s with groups := SMap.putD s.groups g v Group.zero }

def State.protEntry (s : State) (e : Nat) : ProtEntry := SMap.getD s.prot e ProtEntry.zero

/-- An operation in flight by its serial number. -/
def State.op (s : State) (id : Nat) : Option OpRec := s.ops.find? (·.id == id)

def State.setOp (s : State) (o : OpRec) : State :=
  { s with ops := s.ops.map fun p => if p.id = o.id then o else p }

def State.modOp (s : State) (id : Nat) (f : OpRec → OpRec) : State :=
  { s with ops := s.ops.map fun p => if p.id = id then f p else p }

def State.dropOp (s : State) (id : Nat) : State := { s with ops := s.ops.filter (·.id != id) }

/-- Accepted descriptors that have not completed; a failed ring slot (R346) is not one. -/
def State.accepted (s : State) : List OpRec := s.ops.filter fun o => o.kind != .slot

/-- Operations of a queue in flight (R335 IN_FLIGHT). -/
def State.inFlight (s : State) (q : Nat) : Nat := (s.accepted.filter (·.q == q)).length

/-! ## The central store -/

def bankKey (cluster bank : Nat) : Nat := cluster * 48 + bank
def slotKey (cluster bank row : Nat) : Nat := bankKey cluster bank * 512 + row
def byteKey (cluster bank row byte : Nat) : Nat := slotKey cluster bank row * 64 + byte

/-- What an unlisted byte of the central store reads as: start-up zeroes every bank (R467), and a bank
that leaves dark reads zero (R254). Log entry 1. -/
def storeDefault : Byte := 0

/-- The canonical form of the store's contents: addresses strictly rise, and no entry equals what an
unlisted address reads as. -/
def Memory.wf : List Host.Cell → Bool
  | [] => true
  | [(_, v)] => v != storeDefault
  | (a, v) :: (b, w) :: t => decide (a < b) && v != storeDefault && Memory.wf ((b, w) :: t)

def Memory.read (m : List Host.Cell) (a : Nat) : Byte := SMap.getD m a storeDefault

def Memory.write (m : List Host.Cell) (a : Nat) (v : Byte) : List Host.Cell :=
  SMap.putD m a v storeDefault

/-- Write a run of bytes from an address upward. -/
def Memory.writeRun (m : List Host.Cell) (a : Nat) : List Byte → List Host.Cell
  | [] => m
  | v :: t => Memory.writeRun (Memory.write m a v) (a + 1) t

def Memory.readRun (m : List Host.Cell) (a : Nat) : Nat → List Byte
  | 0 => []
  | n + 1 => Memory.read m a :: Memory.readRun m (a + 1) n

/-- Zero every byte in [lo, hi). -/
def Memory.clear (m : List Host.Cell) (lo hi : Nat) : List Host.Cell := SMap.dropRange m lo hi

def State.readStore (s : State) (cluster bank row byte n : Nat) : List Byte :=
  Memory.readRun s.store (byteKey cluster bank row byte) n

def State.writeStore (s : State) (cluster bank row byte : Nat) (d : List Byte) : State :=
  { s with store := Memory.writeRun s.store (byteKey cluster bank row byte) d }

def State.isFull (s : State) (slot : Nat) : Bool := setHas s.full slot
def State.setFull (s : State) (slot : Nat) (f : Bool) : State :=
  { s with full := if f then setIns s.full slot else setDel s.full slot }

def State.bank (s : State) (b : Nat) : BankSt := SMap.getD s.banks b .on
def State.setBank (s : State) (b : Nat) (v : BankSt) : State := { s with banks := SMap.putD s.banks b v .on }

def State.waiting (s : State) (cluster : Nat) : List BankAcc := SMap.getD s.xbar cluster []
def State.setWaiting (s : State) (cluster : Nat) (l : List BankAcc) : State :=
  { s with xbar := SMap.putD s.xbar cluster l [] }

def State.parkedAt (s : State) (b : Nat) : List BankAcc := SMap.getD s.parked b []
def State.setParked (s : State) (b : Nat) (l : List BankAcc) : State :=
  { s with parked := SMap.putD s.parked b l [] }

/-- Put a run of bytes into a byte map. -/
def putBytes (m : SMap Byte) (k : Nat) : List Byte → SMap Byte
  | [] => m
  | b :: t => putBytes (SMap.put m k b) (k + 1) t

def State.stageOf (s : State) (c : Nat) : Staging := SMap.getD s.stage c Staging.empty
def State.setStage (s : State) (c : Nat) (x : Staging) : State := { s with stage := SMap.putD s.stage c x Staging.empty }

/-- Key of a byte of package memory that an operation's staging has fetched. -/
def stageKey (id addr : Nat) : Nat := 2 ^ 52 * id + addr

/-- An operation's staged bytes and slots are let go of. -/
def State.dropStage (s : State) (id : Nat) : State :=
  { s with stage := (s.stage.map fun p =>
      (p.1, { p.2 with bytes := p.2.bytes.keep fun k => decide (k / 2 ^ 52 ≠ id), slots := p.2.slots.filter (·.op != id) }))
      |>.filter fun p => p.2 != Staging.empty }

/-! ## Activity (R365) -/

/-- Kinds of event: multiply-accumulates by rate class 0 to 5 (1/64, 1/8, 1, 2, 4, 8), bank slots,
accumulating accesses, feeder store lines, vector engine groups, crossings, flits. -/
def evMac (d t : Nat) : Nat := if t = 64 then 0 else if t = 8 then 1 else Nat.log2 d + 2
def evSlot : Nat := 6
def evAcc : Nat := 7
def evLine : Nat := 8
def evGroup : Nat := 9
def evCross : Nat := 10
def evFlit : Nat := 11

/-- Count an event of the activity estimator for an island, by kind and job. -/
def addActivity (l : List Activity) (a : Activity) : List Activity :=
  match l with
  | [] => [a]
  | b :: t =>
    if b.island = a.island ∧ b.kind = a.kind ∧ b.job = a.job then { b with count := b.count + a.count } :: t
    else b :: addActivity t a

def State.active (s : State) (island kind : Nat) (job : Option Nat) (n : Nat := 1) : State :=
  if n = 0 then s
  else { s with power := { s.power with activity := addActivity s.power.activity ⟨island, kind, job, n⟩ } }

/-! ## Transactions -/

/-- The channel of a code (R283): 0 REQ, 1 RSP, 2 WIN, 3 MGT. -/
def TxnOp.vc : TxnOp → Nat
  | .rd | .wr | .wra | .atom | .flush => 0
  | .rdr | .atr | .wack | .rgr | .rgwa | .mack | .flack => 1
  | .wwr | .wwa => 2
  | .rgrd | .rgwr | .msg | .huberr => 3

/-- The code of R283. -/
def TxnOp.code : TxnOp → Nat
  | .rd => 0x01 | .wr => 0x02 | .wra => 0x03 | .atom => 0x04 | .flush => 0x05
  | .wwr => 0x08 | .wwa => 0x09
  | .rdr => 0x20 | .atr => 0x21 | .wack => 0x22 | .rgr => 0x23 | .rgwa => 0x24 | .mack => 0x25
  | .flack => 0x26
  | .rgrd => 0x30 | .rgwr => 0x31 | .msg => 0x38 | .huberr => 0x3A

/-- Home port of a cluster (R28). -/
def homePort (c : Nat) : Nat := c / 16 / 5 * 8 + c % 16 / 2

/-- Rank of a cluster among the ten of its home port, in ascending cluster index (R282): the cluster's
stream. -/
def clusterStream (c : Nat) : Nat := c / 16 % 5 * 2 + c % 2

def State.pos (s : State) : Nat := s.regF 0x40108 0 4
def State.pkg (s : State) : Nat := s.regF 0x40108 8 8
def State.admitSt (s : State) : Nat := s.regF 0x4010C 0 3

/-- The die does its own work: it issues transactions, and it is not waiting for readmission (R310, R311). -/
def State.onDuty (s : State) : Bool := !s.mute && s.admitSt != 5

/-- The cluster that issued a transaction: the one of its port with its stream (R282). -/
def requester (port : Nat) (op : TxnOp) (stream : Nat) : Option Nat :=
  if (op.vc = 0 ∨ op.vc = 2) ∧ stream < 10 then
    some ((port / 8 * 5 + stream / 2) * 16 + port % 8 * 2 + stream % 2)
  else none

def Txn.cluster (t : Txn) : Option Nat := requester t.port t.op t.stream

/-- Transfers pass between an island, the control island where it is no cluster's, and the mesh island with its ports; the
estimators of both count the crossings (R35, R365; log entry 7). -/
def State.cross (s : State) (cluster : Option Nat) (job : Option Nat) (n : Nat) : State :=
  (s.active (cluster.getD 321) evCross job n).active 320 evCross job n

/-- The die issues a transaction: it crosses to the port and waits there. A die that issues no transactions (R310, R390,
R476) drops it. -/
def State.send (s : State) (t : Txn) : State :=
  if s.mute then s
  else
    let p := s.port t.port
    (({ s with out := s.out ++ [t] } : State).setPort t.port { p with queue := p.queue ++ [t] }).cross t.cluster t.job
      (1 + ceilDiv t.data.length 64)

/-- A posted write has no response. -/
def Outst.posted (o : Outst) : Bool := o.op == .wr || o.op == .wra

/-- Least number from `t` that is not in use. -/
def freeTag (used : List Nat) : Nat → Nat → Nat
  | 0, t => t
  | n + 1, t => if setHas used t then freeTag used n (t + 1) else t

/-- The tag that the die keeps for a FLUSH that frees the tags of posted writes (log entry 12). -/
def flushTag : Nat := 4095

/-- Least tag that no transaction of the port and channel has outstanding (R282; log entry 12): `none` when all are in
use, posted writes that no FLACK has covered among them. -/
def State.nextTag (s : State) (port vc : Nat) : Option Nat :=
  let mine := s.outst.filter fun o => o.port == port && o.op.vc == vc && o.held.isNone
  let t := freeTag (mine.map (·.tag)) mine.length 0
  if t < flushTag then some t else none

/-- The operation that an outstanding transaction belongs to. -/
def Purpose.op : Purpose → Option Nat
  | .stage o _ | .merge o _ | .winSource o _ _ | .opWrite o _ _ _ | .journalFlush o | .doneFlush o
  | .signalFlush o | .secureFlush o | .windowWrite o _ _ | .signal o | .atomic o => some o
  | .descRead _ _ | .record _ _ | .block | .jcbFlush _ | .vectorFlush _ | .concord _ _ _ | .vector _
  | .sideSignal _ | .sideFlush _ _ => none

/-- The job on whose behalf a transaction is issued (R365). -/
def State.jobOf (s : State) (why : Purpose) : Option Nat := (why.op.bind s.op).map fun o => fld o.desc.toNat 16 16

/-- Posted writes keep their tags until a FLACK covers them. Where they leave no tag, the die flushes the stream of the
oldest of them, with the tag kept for that (log entry 12). -/
def State.freeTags (s : State) (port vc : Nat) : State :=
  let busy := s.outst.any fun o => o.port == port && o.op.vc == vc && o.held.isNone && o.tag == flushTag
  match s.outst.find? fun o => o.port == port && o.op.vc == vc && o.held.isNone && o.posted with
  | some w =>
    if busy then s
    else
      ({ s with outst := s.outst ++ [⟨port, .flush, flushTag, w.stream, 0, 1, .block, none⟩] } : State).send
        { port := port, op := .flush, tag := flushTag, stream := w.stream, srcpos := s.pos }
  | none => s

/-- Issue a transaction with a fresh tag, as soon as there is one, and remember what it is for. SRCPOS is the die's position; its
package stands in SRCPKG only toward another package (R282). -/
def State.request (s : State) (t : Txn) (why : Purpose) (foreign : Bool := false) : State :=
  if s.mute then s
  else
    let t := { t with srcpos := s.pos, srcpkg := if foreign then s.pkg else 0xFF, job := s.jobOf why }
    let o (tag : Nat) (held : Option Txn) : Outst := ⟨t.port, t.op, tag, t.stream, t.addr, t.words, why, held⟩
    match s.nextTag t.port t.op.vc with
    | some tag =>
      ({ s with outst := s.outst ++ [o tag none] } : State).send { t with tag := tag }
    | none => ({ s with outst := s.outst ++ [o 4096 (some t)] } : State).freeTags t.port t.op.vc

/-- A read of package memory (R284): at most 4 KiB within a 4 KiB block. -/
def State.readMem (s : State) (port stream addr bytes : Nat) (why : Purpose) : State :=
  s.request { port := port, op := .rd, stream := stream, addr := addr, words := ceilDiv bytes 4 } why

/-- A posted write of package memory, `fuel` bounding the pieces that R284's 4 KiB blocks make. -/
def State.writeMemGo (port stream : Nat) (why : Purpose) : Nat → Nat → List Byte → State → State
  | 0, _, _, s => s
  | fuel + 1, addr, d, s =>
    if d.isEmpty then s
    else
      let n := min d.length (4096 - addr % 4096)
      let s := s.request { port := port, op := .wr, stream := stream, addr := addr,
                           words := ceilDiv n 4, data := d.take n } why
      State.writeMemGo port stream why fuel (addr + n) (d.drop n) s

def State.writeMem (s : State) (port stream addr : Nat) (d : List Byte) (why : Purpose) : State :=
  State.writeMemGo port stream why (d.length / 4096 + 2) addr d s

def State.flush (s : State) (port stream : Nat) (why : Purpose) : State :=
  s.request { port := port, op := .flush, stream := stream } why

/-- A message (R289): its value, its kind and, for a side signal, the code. -/
def State.message (s : State) (port addr : Nat) (value : BitVec 64) (kind code : Nat) (why : Purpose)
    (foreign : Bool := false) : State :=
  s.request { port := port, op := .msg, addr := addr, words := 2, data := toLE 8 value.toNat,
              aux := kind + code * 256 } why foreign

/-- A side signal of the die leaves on port 15 (R299, R311, R312), after a FLUSH of that port's stream 15 (R292). -/
def State.sideSignal (s : State) (code : Nat) (value : BitVec 64) : State := s.flush 15 15 (.sideFlush code value)

/-- Its FLUSH has returned: the message leaves. Its target is the hub, whose space the hub itself defines; log entry
13. -/
def State.sideMessage (s : State) (code : Nat) (value : BitVec 64) : State :=
  s.message 15 0xF000000000000 value 2 code (.sideSignal code)

/-- The response to a register access or doorbell (R283, R287, R289). -/
def State.respond (s : State) (a : Access) (op : TxnOp) (status : Nat) (aux : Nat := 0) : State :=
  s.send { port := a.port, op := if a.msg then .mack else op, tag := a.tag.toNat,
           stream := a.stream.toNat, srcpos := a.srcpos.toNat, srcpkg := a.srcpkg.toNat,
           status := status, aux := aux }

/-- Which outstanding transaction a response answers (R282: matched by port, channel and tag). -/
def State.findOutst (s : State) (port vc tag : Nat) : Option Outst :=
  s.outst.find? fun o => o.port == port && o.op.vc == vc && o.tag == tag && !o.posted

/-- Which posted write a HUBERR names (R290). -/
def State.findPosted (s : State) (port tag stream addr : Nat) : Option Outst :=
  s.outst.find? fun o => o.port == port && o.tag == tag && o.stream == stream && o.addr == addr && o.posted && o.held.isNone

/-- Tags have become free: the transactions that wait for one leave, oldest first. -/
def State.sendHeld (port vc : Nat) : Nat → State → State
  | 0, s => s
  | n + 1, s =>
    match s.outst.find? fun o => o.port == port && o.op.vc == vc && o.held.isSome with
    | some o =>
      match o.held, s.nextTag port vc with
      | some t, some tag =>
        let l := s.outst.erase o ++ [{ o with tag := tag, held := none }]
        State.sendHeld port vc n (({ s with outst := l } : State).send { t with tag := tag })
      | _, _ => s.freeTags port vc
    | none => s

/-- Forget a transaction. -/
def State.dropOutst (s : State) (o : Outst) : State :=
  State.sendHeld o.port o.op.vc s.outst.length { s with outst := s.outst.filter (· ≠ o) }

/-! ## Interrupts (R327 to R333) -/

/-- Does the page's interrupt reach vector 16 through ERRAGG (R328)? -/
def PageKind.viaErragg : PageKind → Bool
  | .impose | .die | .testctl | .comp | .store | .island | .coreAccess => true
  | _ => false

/-- The vector that a page's line feeds (R328). -/
def Page.vector (p : Page) : Nat :=
  match p.kind with
  | .queue => p.inst
  | .steward => 17
  | .power => 18
  | .therm => 19
  | .health => 20
  | .journal => 21
  | .group => 22
  | .hublink | .hubport => 23
  | .secure | .sec | .audit | .prot | .digest => 24
  | .time => 25
  | .erragg | .impose | .die | .testctl | .comp | .store | .island | .coreAccess => 16

/-- INT_STATUS and INT_ENABLE of the page at a base have a common 1 bit (R327). -/
def State.baseLine (s : State) (base : Nat) : Bool := (s.reg (base + 0x18) &&& s.reg (base + 0x1C)) != 0

/-- Bases of the cluster pages whose INT_STATUS is not 0. -/
def State.clusterCauses (s : State) : List Nat :=
  s.regs.filterMap fun p =>
    if 0x1000000 ≤ p.1 ∧ p.1 < 0x1500000 ∧ p.1 % 0x1000 = 0x18 then some (p.1 - 0x18) else none

/-- The RO summaries of ERRAGG.INT_STATUS [4:1] (R333). -/
def State.erraggSummary (s : State) : Nat :=
  2 * b2n (s.clusterCauses.any s.baseLine) + 4 * b2n (s.baseLine 0x2000) + 8 * b2n (s.baseLine 0)
    + 16 * b2n (s.baseLine 0x7F000)

def State.erraggLine (s : State) : Bool :=
  ((s.reg 0x60018 ||| w32 s.erraggSummary) &&& s.reg 0x6001C) != 0

def State.line (s : State) (p : Page) : Bool :=
  match p.kind with
  | .erragg => s.erraggLine
  | _ => s.baseLine p.base

/-- Port of a vector's message (R332). -/
def vectorPort (v : Nat) : Nat := if v < 16 then 8 + v else 15

/-- A vector has a send (R331). Its message follows a FLUSH of stream 15 of its port (R292). -/
def State.vectorSend (s : State) (v : Nat) : State :=
  let ctrl := 0x20C + 16 * v
  if bit (s.regN ctrl) 0 || s.mute || setHas s.vecBusy v then s.orReg ctrl 2
  else ({ s with vecBusy := setIns s.vecBusy v } : State).flush (vectorPort v) 15 (.vectorFlush v)

/-- The message value of a vector (R332). -/
def State.vectorValue (s : State) (v : Nat) : BitVec 64 :=
  BitVec.ofNat 64 (s.regN (0x208 + 16 * v) + 2 ^ 32 * v + 2 ^ 40 * s.pos + 2 ^ 44 * s.pkg)

/-- The vector's FLUSH has returned: its message leaves. -/
def State.vectorMessage (s : State) (v : Nat) : State :=
  s.message (vectorPort v) (2 ^ 32 * s.regN (0x204 + 16 * v) + s.regN (0x200 + 16 * v))
    (s.vectorValue v) 1 0 (.vector v)

/-- Send again where PEND is 1 and MASK 0: after a MACK, an unmasking or a readmission (R331). -/
def State.vectorResend (s : State) (v : Nat) : State :=
  let ctrl := 0x20C + 16 * v
  if bit (s.regN ctrl) 1 && !bit (s.regN ctrl) 0 && !s.mute && !setHas s.vecBusy v then
    (s.setRegF ctrl 1 1 0).vectorSend v
  else s

/-- Set bits of a page's INT_STATUS; a line that rises sends (R327, R331, R333). -/
def State.raise (s : State) (p : Page) (bits : Nat) : State :=
  let t := s.orReg (p.base + 0x18) bits
  let u := if !p.kind.viaErragg && t.line p && !s.line p then t.vectorSend p.vector else t
  if p.kind.viaErragg && t.erraggLine && !s.erraggLine then u.vectorSend 16 else u

/-- After a write to INT_STATUS or INT_ENABLE of a page: a line of its vector left at 1 sends (R331). -/
def vectorPages : Nat → List Page
  | 16 => [pgErragg]
  | 17 => [pgSteward]
  | 18 => [pgPower]
  | 19 => [pgTherm]
  | 20 => [pgHealth]
  | 21 => [pgJournal]
  | 22 => [pgGroup]
  | 23 => pgHublink :: (List.range 32).map pgPort
  | 24 => [pgSecure, pgSec, pgAudit, pgProt, pgDigest]
  | 25 => [pgTime]
  | q => if q < 16 then [pgQueue q] else []

def State.vectorTouched (s : State) (p : Page) : State :=
  if (vectorPages p.vector).any s.line then s.vectorSend p.vector else s

/-! ## Error capture and refusals (R325, R326, R355) -/

/-- Offset of the page's count of captured events (R261, R325). -/
def PageKind.countOff : PageKind → Nat
  | .store => 0x30
  | _ => 0x38

def State.putWords (s : State) (key : Nat) : List Word → State
  | [] => s
  | w :: t => (s.setReg key w).putWords (key + 4) t

/-- Record an event: the first while VALID is 0 fills the capture and sets INT_STATUS.ERR; every event
counts (R325, R327). `words` stand from 024h upward; the other capture words read 0. -/
def State.capture (s : State) (p : Page) (cause : Nat) (words : List Word) : State :=
  let cnt := p.base + p.kind.countOff
  if bit (s.regN (p.base + 0x20)) 31 then s.setReg cnt (incSat (s.reg cnt))
  else
    let s := s.setReg (p.base + 0x20) (w32 (0x80000000 + cause))
    let s := s.putWords (p.base + 0x24) (words ++ List.replicate (5 - words.length) 0)
    let s := s.setReg cnt 1
    s.raise p 0x40000000

/-- The word at 024h for a common cause (R325). -/
def commonWord (off priv : Nat) : Word := w32 (off % 4096 + priv % 4 * 4096)

def State.captureCommon (s : State) (p : Page) (cause off priv : Nat) : State :=
  s.capture p cause [commonWord off priv]

/-- Count a state refusal of a page (R326, R327, R261). -/
def State.noteRefusal (s : State) (p : Page) : State :=
  let s := s.incReg (p.base + 0x48)
  let s := match p.kind with
    | .store => s.incReg (p.base + 0x148)
    | _ => s
  s.raise p 0x80000000

/-- A register write refused for state with a common cause (R355). -/
def State.refuseWrite (s : State) (p : Page) (cause off priv : Nat) : State :=
  (s.captureCommon p cause off priv).noteRefusal p

/-! ## Commits (R347 to R352) -/

/-- The page is pending: COMMIT or PEND_DIE reads 1. -/
def State.pagePending (s : State) (p : Page) : Bool :=
  bit (s.regN (p.base + 0x40)) 16 || bit (s.regN (p.base + 0x44)) 3

/-- Bases of the pending pages. -/
def State.pendingPages (s : State) : List Nat :=
  (s.regs.filterMap fun p =>
    if (p.1 % 0x1000 = 0x40 ∧ bit p.2.toNat 16 = true) ∨ (p.1 % 0x1000 = 0x44 ∧ bit p.2.toNat 3 = true) then
      some (p.1 / 0x1000 * 0x1000)
    else none)

/-- Cluster of a cluster page's base or register (R322). -/
def clusterOf (key : Nat) : Nat := (key - 0x1000000) / 0x4000

/-- Clusters whose island is dark. -/
def State.darkClusters (s : State) : List Nat :=
  s.regs.filterMap fun p =>
    if 0x1000000 ≤ p.1 ∧ p.1 < 0x1500000 ∧ p.1 % 0x4000 = 0x2104 ∧ fld p.2.toNat 0 3 = 4 then
      some (clusterOf p.1)
    else none

/-! ## Free values -/

/-- A byte that the spec leaves undefined, fresh at every use (log entry 3). -/
def State.freshByte (s : State) : Byte × State :=
  (Config.freeByte s.free, { s with free := s.free + 1 })

/-- A word that the spec leaves open, fresh at every use (log entry 3). -/
def State.freshWord (s : State) : Word × State :=
  (Config.freeWord s.free, { s with free := s.free + 1 })

/-- `n` such bytes. -/
def State.freshBytes : Nat → State → List Byte × State
  | 0, s => ([], s)
  | n + 1, s =>
    let (b, s) := s.freshByte
    let (t, s) := State.freshBytes n s
    (b :: t, s)

end Sys2Proof.Machine
end

