-- ==== Sys2Proof/Machine/Handles.lean ====
section
/-!
DEFINITION. Handles of the central store (R226 to R235), the places of their bytes, their tags and owners,
the requested state of banks (R255) and scrubs.
-/

namespace Sys2Proof.Machine

/-- A handle's entry as its words say (R226). -/
structure Handle where
  base : Nat
  count : Nat
  row : Nat
  twin : Bool
  cur : Bool
  fmt : Nat
  tagMode : Nat
  power : Nat
  extent : Nat
  stride : Nat
  planeOff : Nat
  planeEn : Bool
  timeout : Nat
  winCtr : Nat
  winEn : Bool
  deriving DecidableEq, Repr

def Handle.ofWords (ctrl ext str plane win : Nat) : Handle :=
  { base := fld ctrl 0 6, count := fld ctrl 6 6, row := fld ctrl 12 9, twin := bit ctrl 21,
    cur := bit ctrl 22, fmt := fld ctrl 24 4, tagMode := fld ctrl 28 2, power := fld ctrl 30 2,
    extent := fld ext 0 21, stride := fld str 0 21, planeOff := fld plane 0 21, planeEn := bit plane 31,
    timeout := fld win 0 24, winCtr := fld win 24 6, winEn := bit win 30 }

/-- Register key of word `i` of handle `h` of a cluster (R225). -/
def handleKey (c h i : Nat) : Nat := clusterBase c + 0x1400 + 0x20 * h + 4 * i

/-- The adopted entry. -/
def State.handle (s : State) (c h : Nat) : Handle :=
  let k := handleKey c h
  Handle.ofWords (s.regN (k 0)) (s.regN (k 1)) (s.regN (k 2)) (s.regN (k 3)) (s.regN (k 4))

/-- Slots of one side (R227, R228). -/
def Handle.slots (e : Handle) : Nat := ceilDiv e.extent 64

/-- Bank, row and byte of offset `o` on a side (R228). -/
def Handle.place (e : Handle) (side : Bool) (o : Nat) : Nat × Nat × Nat :=
  let t := o / 64
  (e.base + (if e.twin && side then e.count else 0) + t % (max e.count 1), e.row + t / (max e.count 1), o % 64)

/-- Which side and slot of the handle lies at a bank and row, if any below the extent. -/
def Handle.slotAt (e : Handle) (bank row : Nat) : Option (Bool × Nat) :=
  if e.count = 0 || bank < e.base || row < e.row then none
  else
    let i := bank - e.base
    let side := decide (e.count ≤ i)
    let j := if side then i - e.count else i
    let t := (row - e.row) * e.count + j
    if (side && !e.twin) || e.count ≤ j || e.slots ≤ t then none else some (side, t)

/-- Does the handle hold a slot below its extent in the bank (R255)? -/
def Handle.inBank (e : Handle) (bank : Nat) : Bool := (e.slotAt bank e.row).isSome

def State.windowOpen (s : State) (c h : Nat) : Bool :=
  bit (s.regN (clusterBase c + 0x1108 + 4 * (h / 32))) (h % 32)

def State.setWindow (s : State) (c h : Nat) (o : Bool) : State :=
  s.setRegF (clusterBase c + 0x1108 + 4 * (h / 32)) (h % 32) 1 (b2n o)

/-- HANDLE_GENh advances by one event of R231. -/
def State.bumpGen (s : State) (c h : Nat) : State := s.incReg (handleKey c h 7)

def genOf (s : State) (c h : Nat) : Word := s.reg (handleKey c h 7)

/-! ## Owners (R226, R232) -/

def ownerKey (c h : Nat) : Nat := clusterBase c + 0x1D00 + 4 * h

def State.setOwner (s : State) (c h q job : Nat) (ctx : Option Nat) (dark : Bool) : State :=
  { s.setRegN (ownerKey c h) (job % 0x10000 + q % 16 * 0x10000) with
    owners := SMap.put s.owners (c * 64 + h) (ctx, dark) }

def State.clearOwner (s : State) (c h : Nat) : State :=
  { s.setRegN (ownerKey c h) 0x80000000 with
    owners := SMap.del s.owners (c * 64 + h), endedOwners := SMap.del s.endedOwners (c * 64 + h) }

/-! ## The requested state of banks (R255) -/

/-- Staging area of a cluster (R162): first bank and count. -/
def State.staging (s : State) (c : Nat) : Nat × Nat :=
  let w := s.regN (clusterBase c + 0x100)
  (fld w 0 6, fld w 8 6)

def State.inStaging (s : State) (c bank : Nat) : Bool :=
  let (b, n) := s.staging c
  decide (b ≤ bank) && decide (bank < b + n)

/-- Is the cluster's island dark, or going dark on request (R382)? -/
def State.goesDark (s : State) (c : Nat) : Bool :=
  (s.island c).darkening || s.regF (clusterBase c + 0x2104) 0 3 == 4

/-- Requested state of a bank: 0 on, 1 keep, 2 dark. -/
def State.wanted (s : State) (c bank : Nat) : Nat :=
  if s.goesDark c then 2
  else if s.inStaging c bank then 0
  else
    let ps := (List.range 64).filterMap fun h =>
      let e := s.handle c h
      if e.count != 0 && e.inBank bank then some e.power else none
    match ps with
    | [] => if bit (s.regN (clusterBase c + 0x1100)) 20 then 2 else 1
    | p :: t => t.foldl min p

/-- Writes accepted by the crossbar toward a bank and not yet performed (R256), parked ones included. -/
def State.outstanding (s : State) (c bank : Nat) : Nat :=
  ((s.waiting c).filter fun a => a.bank.val == bank && a.kind != .read).length
    + ((s.parkedAt (bankKey c bank)).filter fun a => a.kind != .read).length

/-- A bank's contents are lost and its tags empty (R254). -/
def State.wipeBank (s : State) (c bank : Nat) : State :=
  let lo := slotKey c bank 0
  { s with
    store := Memory.clear s.store (lo * 64) ((lo + 512) * 64)
    full := s.full.filter fun k => !(decide (lo ≤ k) && decide (k < lo + 512)) }

/-- Handles of a cluster with COUNT not 0. -/
def State.placed (s : State) (c : Nat) : List Nat :=
  (List.range 64).filter fun h => s.regF (handleKey c h 0) 6 6 != 0

/-- Registers that a dark island leaves standing (R380): those of die-level pages and of the ISLAND page, which the
mesh island holds (R364); the state of a page's commits; and the handle entries, generations, owners and open windows,
on which R231, R232 and R382 go on to act (log entry 77). -/
def darkKeeps (k : Nat) : Bool :=
  let o := k % 0x4000
  decide (k < 0x1000000)
    || (decide (k < 0x1500000)
      && (o / 0x1000 == 2 || o % 0x1000 == 0x40 || o % 0x1000 == 0x44 || o == 0x1108 || o == 0x110C
        || (decide (0x1400 ≤ o) && decide (o < 0x1C00)) || (decide (0x1D00 ≤ o) && decide (o < 0x1E00))))

/-- Is the register one of the cluster's pages or cores? -/
def inCluster (c k : Nat) : Bool :=
  (decide (clusterBase c ≤ k) && decide (k < clusterBase (c + 1)))
    || (decide (coreKey (256 * c) 0 ≤ k) && decide (k < coreKey (256 * (c + 1)) 0))

/-- A dark island keeps nothing (R380): stores, sticky flags and captures, watermarks (R412), and the registers of its
COMP, STORE and CORE_ACCESS pages. -/
def State.dropCores (s : State) (c : Nat) : State :=
  { s with
    cores := s.cores.filter fun p => p.1 / 256 != c
    stage := s.stage.filter fun p => p.1 != c
    regs := s.regs.filter fun p => !inCluster c p.1 || darkKeeps p.1
    shad := s.shad.filter fun p => !inCluster c p.1 || darkKeeps p.1 }

/-- Has the handle a bank that is not dark, so that an event that takes every bank of the cluster to dark counts for it
(R231)? -/
def State.losesBank (s : State) (c h : Nat) : Bool :=
  let e := s.handle c h
  (List.range (e.count * (1 + b2n e.twin))).any fun i => s.bank (bankKey c (e.base + i)) != .dark

/-- A requested dark ends once every bank is dark: DARK_DONE, and the generations of the handles that lost a bank by
it (R231, R382). -/
def State.finishDark (s : State) (c : Nat) : State :=
  if (s.island c).darkening && (List.range 48).all fun b => s.bank (bankKey c b) == .dark then
    let lost := (s.island c).darkHandles
    let s := s.setIsland c { s.island c with darkening := false, darkHandles := [] }
    let s := (s.dropCores c).setRegN (clusterBase c + 0x2104) 4
    (lost.foldl (fun t h => t.bumpGen c h) s).raise (pgIsland c) 2
  else s

/-- A bank enters dark (R254): reads as zero afterwards, tags empty. -/
def State.bankDark (s : State) (c bank : Nat) : State :=
  ((s.wipeBank c bank).setBank (bankKey c bank) .dark).finishDark c

/-- The closing state ends when no write is outstanding (R256 step 2). -/
def State.closeCheck (s : State) (c bank : Nat) : State :=
  match s.bank (bankKey c bank) with
  | .closing dark =>
    if s.outstanding c bank = 0 then
      if dark then s.bankDark c bank else s.setBank (bankKey c bank) .keep
    else s
  | _ => s

/-- A bank starts toward a requested state (R254, R256). -/
def State.bankTo (s : State) (c bank want : Nat) : State :=
  let k := bankKey c bank
  match want, s.bank k with
  | 0, .closing _ => s.setBank k .on
  | 0, .keep => s.setBank k (.waking false)
  | 0, .dark => s.setBank k (.waking true)
  | 0, _ => s
  | 1, .dark => s.setBank k (.waking true)
  | 1, .on => (s.setBank k (.closing false)).closeCheck c bank
  | 1, .closing _ => (s.setBank k (.closing false)).closeCheck c bank
  | 1, .waking false => (s.setBank k (.closing false)).closeCheck c bank
  | 1, _ => s
  | _, .dark => s
  | _, _ => (s.setBank k (.closing true)).closeCheck c bank

/-- Start the transitions of the banks of a cluster whose requested state a change has moved; `old` is the
state before it (R255). -/
def State.retarget (s : State) (c : Nat) (old : State) : State :=
  (List.range 48).foldl
    (fun t bank =>
      let w := t.wanted c bank
      if old.wanted c bank = w then t else t.bankTo c bank w) s

/-! ## Scrubs (R232, R233) -/

/-- Zero every slot of both sides of a handle and empty its tags. -/
def State.zeroHandle (s : State) (c h : Nat) : State :=
  let e := s.handle c h
  let covers (slot : Nat) : Bool :=
    decide (slot / 512 / 48 = c) && (e.slotAt (slot / 512 % 48) (slot % 512)).isSome
  { s with
    store := s.store.filter fun p => !covers (p.1 / 64)
    full := s.full.filter fun k => !covers k }

/-- A scrub of a handle: zero, tags empty, generation up by one (R231). -/
def State.scrub (s : State) (c h : Nat) : State := (s.zeroHandle c h).bumpGen c h

/-- A handle's POWER becomes dark in the adopted entry and its shadow alike; the generation advances
(R231, R259, R260). -/
def State.darken (s : State) (c h : Nat) : State :=
  let k := handleKey c h 0
  let s' := s.setRegF k 30 2 2
  let s' := { s' with
    shad := match SMap.find s.shad k with
      | some w => SMap.put s.shad k (w32 (putFld w.toNat 30 2 2))
      | none => s.shad }
  s'.bumpGen c h

/-- A handle of an ended task: scrubbed, or dark by END_DARK; the owner becomes NONE (R260). -/
def State.releaseHandle (s : State) (c h : Nat) (endDark : Bool) : State :=
  let t := if endDark then (s.darken c h).retarget c s else s.scrub c h
  t.clearOwner c h

/-- Set every tag of a handle (R225 TAG_RESET); the generation advances. -/
def State.setTags (s : State) (c h : Nat) (full : Bool) : State :=
  let e := s.handle c h
  let sides := if e.twin then [false, true] else [false]
  let keys := sides.flatMap fun sd => (List.range e.slots).map fun t =>
    let p := e.place sd (t * 64)
    slotKey c p.1 p.2.1
  (keys.foldl (fun t k => t.setFull k full) s).bumpGen c h

/-! ## Sides of a twin handle under a securing (R419, R230) -/

/-- The side S of a handle that a securing drains, if one is running on it. -/
def State.securedSide (s : State) (c h : Nat) : Option Bool :=
  match s.securing with
  | some x => SMap.find x.side (c * 64 + h)
  | none => none

def movedKey (c h slot : Nat) : Nat := (c * 64 + h) * 32768 + slot

/-- Side that a read of a slot takes. -/
def State.readSide (s : State) (c h slot : Nat) : Bool :=
  match s.securedSide c h with
  | some sd => if setHas s.moved (movedKey c h slot) then !sd else sd
  | none => (s.handle c h).cur

/-- Side that a write takes; `op` is the descriptor that issues it, if any. -/
def State.writeSide (s : State) (c h : Nat) (op : Option Nat) : Bool :=
  match s.securedSide c h, s.securing with
  | some sd, some x =>
    match op with
    | some id => if setHas x.older id then sd else !sd
    | none => !sd
  | _, _ => (s.handle c h).cur

/-- Slot contents move from S to L with the moved bit (R419). -/
def State.moveSlot (s : State) (c h slot : Nat) : State :=
  match s.securedSide c h with
  | some sd =>
    if setHas s.moved (movedKey c h slot) then s
    else
      let e := s.handle c h
      let a := e.place sd (slot * 64)
      let b := e.place (!sd) (slot * 64)
      let t := s.writeStore c b.1 b.2.1 0 (s.readStore c a.1 a.2.1 0 64)
      { t with moved := setIns t.moved (movedKey c h slot) }.incReg 0x4E10C
  | none => s

/-- Bytes of a handle, read where a descriptor's read finds them. -/
def State.readHandleGo (s : State) (c h : Nat) : Nat → Nat → List Byte
  | 0, _ => []
  | n + 1, o =>
    let e := s.handle c h
    let p := e.place (s.readSide c h (o / 64)) o
    Memory.read s.store (byteKey c p.1 p.2.1 p.2.2) :: State.readHandleGo s c h n (o + 1)

/-! ## Error places (R261) -/

def errAddr (bank row byte : Nat) (h : Option Nat) : Word :=
  match h with
  | some h => w32 (byte % 64 + row % 512 * 64 + bank % 64 * 32768 + h % 64 * 2097152 + 134217728)
  | none => w32 (byte % 64 + row % 512 * 64 + bank % 64 * 32768)

/-- REQ, core, queue and job of ERR_SOURCE. -/
def errSource (lane q job : Nat) : Word :=
  if lane < 256 then w32 (lane + q * 1024 + job * 65536)
  else if lane = 256 then w32 (0x100 + q * 1024 + job * 65536)
  else if lane < 263 then w32 (0x200 + q * 1024 + job * 65536)
  else w32 (0x300 + q * 1024 + job * 65536)

end Sys2Proof.Machine
end

