-- ==== Sys2Proof/Machine/Numeric.lean ====
section
/-!
DEFINITION. Exact numbers, the element formats of R49 to R61, their decoding (R62 to R71), conversion into
a format (R73 to R81) and the lane generator (R82 to R86). A finite number is a sign and an exact fraction,
so every result is rounded once, as R74 asks.
-/

namespace Sys2Proof.Machine

/-- An exact number of the die: a finite value n / d with its sign, an infinity, or NaN. -/
inductive Num where
  | fin (neg : Bool) (n d : Nat)
  | inf (neg : Bool)
  | nan
  deriving DecidableEq, Repr

namespace Num

def zero : Num := .fin false 0 1

/-- Value `n` × 2^`e` with a sign; a zero has no sign (R51). -/
def scaled (neg : Bool) (n : Nat) (e : Int) : Num :=
  if n = 0 then zero
  else match e with
    | .ofNat k => .fin neg (n * 2 ^ k) 1
    | .negSucc k => .fin neg n (2 ^ (k + 1))

def ofInt (i : Int) : Num := .fin (decide (i < 0)) i.natAbs 1

/-- The signed numerator over a common view of the fraction. -/
def signed (neg : Bool) (n : Nat) : Int := if neg then -(Int.ofNat n) else Int.ofNat n

def isNan : Num → Bool
  | .nan => true
  | _ => false

def isZero : Num → Bool
  | .fin _ 0 _ => true
  | _ => false

/-- Is the value below zero? -/
def isNeg : Num → Bool
  | .fin neg n _ => neg && n != 0
  | .inf neg => neg
  | .nan => false

/-- Exact order of two numbers neither of which is NaN. -/
def lt : Num → Num → Bool
  | .fin a n d, .fin b m f => decide (signed a n * (f : Int) < signed b m * (d : Int))
  | .inf a, .inf b => a && !b
  | .inf a, .fin _ _ _ => a
  | .fin _ _ _, .inf b => !b
  | _, _ => false

def eqv : Num → Num → Bool
  | .fin a n d, .fin b m f => decide (signed a n * (f : Int) = signed b m * (d : Int))
  | .inf a, .inf b => a == b
  | _, _ => false

def negate : Num → Num
  | .fin a n d => if n = 0 then zero else .fin (!a) n d
  | .inf a => .inf (!a)
  | .nan => .nan

/-- Exact sum of finite numbers. -/
def addFin (a : Bool) (n d : Nat) (b : Bool) (m f : Nat) : Num :=
  let s := signed a n * (f : Int) + signed b m * (d : Int)
  .fin (decide (s < 0)) s.natAbs (d * f)

/-- Sum of R190, with the invalid of opposite infinities. -/
def add : Num → Num → Num × Bool
  | .nan, _ => (.nan, false)
  | _, .nan => (.nan, false)
  | .inf a, .inf b => if a = b then (.inf a, false) else (.nan, true)
  | .inf a, .fin _ _ _ => (.inf a, false)
  | .fin _ _ _, .inf b => (.inf b, false)
  | .fin a n d, .fin b m f => (addFin a n d b m f, false)

/-- Product of R190, with the invalid of 0 × ∞. -/
def mul : Num → Num → Num × Bool
  | .nan, _ => (.nan, false)
  | _, .nan => (.nan, false)
  | .inf a, .inf b => (.inf (a != b), false)
  | .inf a, .fin b n _ => if n = 0 then (.nan, true) else (.inf (a != b), false)
  | .fin a n _, .inf b => if n = 0 then (.nan, true) else (.inf (a != b), false)
  | .fin a n d, .fin b m f => (if n * m = 0 then zero else .fin (a != b) (n * m) (d * f), false)

/-- Exact quotient by a positive fraction. -/
def divBy (x : Num) (n d : Nat) : Num :=
  match x with
  | .fin a m f => .fin a (m * d) (f * n)
  | y => y

/-- Magnitude of a finite number is at most that of another (for amax of R79). -/
def absLe : Num → Num → Bool
  | .fin _ n d, .fin _ m f => decide (n * f ≤ m * d)
  | _, _ => false

end Num

/-! ## Element formats (R49) -/

/-- Width in bits of a format code; 0 for a reserved one. -/
def fmtWidth (f : Nat) : Nat :=
  match f with
  | 0 => 1 | 1 => 2 | 2 => 4 | 3 => 6 | 4 => 8 | 5 => 8 | 6 => 8 | 7 => 16 | 8 => 32 | 9 => 32
  | _ => 0

/-- Scale planes: required (R49, R68). -/
def fmtNeedsScale (f : Nat) : Bool := decide (f ≤ 1)

/-- Scale planes: forbidden. -/
def fmtNoScale (f : Nat) : Bool := decide (7 ≤ f)

/-- Parameters of a floating format: mantissa bits, bias, largest positive code, whether the exponent is
clamped at emin (R52 to R60, R74). -/
structure FloatFmt where
  p    : Nat
  bias : Nat
  top  : Nat
  clamp : Bool

def floatFmt (f : Nat) : Option FloatFmt :=
  match f with
  | 2 => some ⟨1, 2, 0x7, true⟩
  | 3 => some ⟨2, 4, 0x1F, true⟩
  | 4 => some ⟨3, 8, 0x7F, true⟩
  | 5 => some ⟨2, 16, 0x7B, true⟩
  | 7 => some ⟨9, 31, 0x7DFF, false⟩
  | 8 => some ⟨22, 255, 0x7FBFFFFF, false⟩
  | _ => none

/-- Code of a positive magnitude code's negative (R52 to R60). -/
def negCode (f pos : Nat) : Nat :=
  match f with
  | 2 => 0x8 + pos
  | 3 => 0x20 + pos
  | 4 => 0x100 - pos
  | 5 => 0x80 + pos
  | 7 => 0x8000 + pos
  | 8 => 0x80000000 + pos
  | _ => pos

/-- The canonical NaN code (R61). -/
def nanCode (f : Nat) : Nat :=
  match f with
  | 2 => 0x8 | 3 => 0x20 | 4 => 0x80 | 5 => 0x80 | 7 => 0x7F00 | 8 => 0x7FE00000 | _ => 0

/-- Codes of +∞ where the format has one. -/
def infCode (f : Nat) : Option Nat :=
  match f with
  | 5 => some 0x7C | 7 => some 0x7E00 | 8 => some 0x7FC00000 | _ => none

/-- An element in the internal form of R62. -/
inductive Elem where
  | fin (neg : Bool) (sig : Nat) (exp : Int)
  | inf (neg : Bool)
  | nan
  deriving DecidableEq, Repr

/-- Signed value of a `w`-bit two's complement code. -/
def twos (w code : Nat) : Int := if bit code (w - 1) then (code : Int) - (2 ^ w : Nat) else code

def Elem.ofSigned (v : Int) : Elem := .fin (decide (v < 0)) v.natAbs 0

/-- A floating magnitude code with its sign, for formats whose subnormals count. -/
def shortElem (p bias : Nat) (neg : Bool) (mag : Nat) : Elem :=
  let e := mag / 2 ^ p
  let m := mag % 2 ^ p
  if e = 0 then .fin (neg && m != 0) m (1 - (bias : Int) - p)
  else .fin neg (2 ^ p + m) ((e : Int) - bias - p)

/-- Unscaled decoding (R63). -/
def decodeElem (f code : Nat) : Elem :=
  match f with
  | 0 => .fin (bit code 0) 1 0
  | 1 => Elem.ofSigned (twos 2 (code % 4))
  | 2 => if code % 16 = 8 then .nan else shortElem 1 2 (bit code 3) (code % 8)
  | 3 => if code % 64 = 0x20 then .nan else shortElem 2 4 (bit code 5) (code % 32)
  | 4 =>
    if code % 256 = 0x80 then .nan
    else if bit code 7 then shortElem 3 8 true (256 - code % 256) else shortElem 3 8 false (code % 256)
  | 5 =>
    if code % 256 = 0x80 then .nan
    else if code % 128 = 0x7C then .inf (bit code 7)
    else if 0x7C < code % 128 then .nan
    else shortElem 2 16 (bit code 7) (code % 128)
  | 6 => Elem.ofSigned (twos 8 (code % 256))
  | 7 =>
    let e := fld code 9 6
    let m := code % 512
    if e = 63 then (if m = 0 then .inf (bit code 15) else .nan)
    else if e = 0 then .fin false 0 0 else .fin (bit code 15) (512 + m) ((e : Int) - 40)
  | 8 =>
    let e := fld code 22 9
    let m := code % 4194304
    if e = 511 then (if m = 0 then .inf (bit code 31) else .nan)
    else if e = 0 then .fin false 0 0 else .fin (bit code 31) (4194304 + m) ((e : Int) - 277)
  | 9 => Elem.ofSigned (twos 32 code)
  | _ => .fin false 0 0

/-- Scaled decoding (R71): the coarse exponent part `ec` (R66) and a fine scale code, if any. -/
def scaleElem (x : Elem) (ec : Int) (fine : Option Nat) : Elem :=
  match fine with
  | none =>
    match x with
    | .fin neg s e => if s = 0 then .fin false 0 0 else .fin neg s (e + ec)
    | y => y
  | some c =>
    if c % 256 = 0xFF then .nan
    else match x with
      | .fin neg s e =>
        if s = 0 then .fin false 0 0
        else .fin neg (s * (4 + c % 4)) (e + ((fld c 2 6 : Nat) : Int) - 34 + ec)
      | y => y

def Elem.num : Elem → Num
  | .fin neg s e => Num.scaled neg s e
  | .inf neg => .inf neg
  | .nan => .nan

def decodeNum (f code : Nat) : Num := (decodeElem f code).num

/-- A QS32 code's number. -/
def qs32 (w : Word) : Num := decodeNum 8 w.toNat

/-- Exponent part of a coarse scale (R66). -/
def coarseExp (w : Nat) : Int := (fld w 22 9 : Int) - 255

/-- Sign and significand part of a coarse scale (R66). -/
def coarseSig (w : Nat) : Num := .fin (bit w 31) (4194304 + w % 4194304) 4194304

/-- A coarse scale has to be finite, normal and nonzero (R65). -/
def coarseLegal (w : Nat) : Bool := decide (1 ≤ fld w 22 9) && decide (fld w 22 9 ≤ 510)

/-! ## Conversion into a format -/

/-- Flag bits, as in ACC_FLAGS (R225) and EXC (R127): inexact 1, underflow 2, overflow 4, invalid 8. -/
def fInexact : Nat := 1
def fUnderflow : Nat := 2
def fOverflow : Nat := 4
def fInvalid : Nat := 8

/-- floor(log2(n / d)) for n, d above 0. -/
def floorLog2 (n d : Nat) : Int :=
  let k := (Nat.log2 n : Int) - Nat.log2 d
  let ge := match k with
    | .ofNat j => decide (d * 2 ^ j ≤ n)
    | .negSucc j => decide (d ≤ n * 2 ^ (j + 1))
  if ge then k else k - 1

/-- Random bits of a stochastic rounding by the width of its format (R75). -/
def stochWidth (f : Nat) : Nat := if 7 ≤ f then 16 else 12

/-- n of R74: the magnitude n / d in units of 2^`j`, rounded by nearest-even or with a 32-bit draw; and
whether anything was discarded. -/
def roundUnits (n d : Nat) (j : Int) (f : Nat) (draw : Option Nat) : Nat × Bool :=
  let num := match j with | .ofNat _ => n | .negSucc k => n * 2 ^ (k + 1)
  let den := match j with | .ofNat k => d * 2 ^ k | .negSucc _ => d
  let u := num / den
  let r := num % den
  if r = 0 then (u, false)
  else match draw with
    | none => (if den < 2 * r || (2 * r = den && u % 2 = 1) then u + 1 else u, true)
    | some x =>
      let w := stochWidth f
      (if 2 ^ w ≤ r * 2 ^ w / den + x / 2 ^ (32 - w) % 2 ^ w then u + 1 else u, true)

/-- Conversion of a finite magnitude into a floating format: code and flags (R74, R77). -/
def convFloat (f : Nat) (g : FloatFmt) (neg : Bool) (n d : Nat) (draw : Option Nat) : Nat × Nat :=
  if n = 0 then (0, 0)
  else
    let emin : Int := 1 - (g.bias : Int)
    let x0 := floorLog2 n d
    let x := if g.clamp && decide (x0 < emin) then emin else x0
    let (u, lost) := roundUnits n d (x - g.p) f draw
    let code : Int := (x + g.bias - 1) * (2 ^ g.p : Nat) + u
    let sgn (c : Nat) : Nat := if neg && c != 0 then negCode f c else c
    if (g.top : Int) < code then (sgn g.top, fInexact + fOverflow)
    else if !g.clamp && decide (code < (2 ^ g.p : Nat)) then (0, fInexact + fUnderflow)
    else if code ≤ 0 then (0, if lost then fInexact + fUnderflow else fUnderflow)
    else (sgn code.toNat, if lost then fInexact else 0)

/-- Saturation limits of the integer formats (R74). -/
def intLimits (f : Nat) : Nat × Nat :=
  match f with
  | 1 => (1, 2)
  | 6 => (127, 128)
  | _ => (2147483647, 2147483648)

/-- Conversion of a finite magnitude into QI8, QI32 or QW2. -/
def convInt (f : Nat) (neg : Bool) (n d : Nat) (draw : Option Nat) : Nat × Nat :=
  let (lp, ln) := intLimits f
  let (u, lost) := roundUnits n d 0 f draw
  let lim := if neg then ln else lp
  let m := min u lim
  let sat := decide (lim < u)
  let code := if neg && m != 0 then 2 ^ fmtWidth f - m else m
  (code, (if lost || sat then fInexact else 0) + (if sat then fOverflow else 0)
    + (if m = 0 && n != 0 then fUnderflow else 0))

/-- Conversion of any number into a format other than QW1 (R74, R76, R77): code and flags. `draw` is the
lane draw in stochastic mode. Minus infinity, or a value beyond the range, in QW2 becomes the least code 10b (R76, R74),
although R80 says that recast-out never produces it under a fresh scale (DEDUCED, log entry 95). -/
def convert (f : Nat) (draw : Option Nat) (v : Num) : Nat × Nat :=
  match floatFmt f with
  | some g =>
    match v with
    | .nan => (nanCode f, 0)
    | .inf neg =>
      match infCode f with
      | some c => (if neg then negCode f c else c, 0)
      | none => (if neg then negCode f g.top else g.top, fOverflow)
    | .fin neg n d => convFloat f g neg n d draw
  | none =>
    match v with
    | .nan => (0, fInvalid)
    | .inf neg =>
      let (lp, ln) := intLimits f
      (if neg then 2 ^ fmtWidth f - ln else lp, fOverflow)
    | .fin neg n d => convInt f neg n d draw

/-- A number rounded to QS32 with nearest-even (R182): code and flags. -/
def toQs32 (v : Num) : Word × Nat :=
  let (c, fl) := convert 8 none v
  (w32 c, fl)

/-! ## Fresh fine scales (R79 to R81) -/

/-- The value (numerator, denominator) of a QB8 code (R67). -/
def qb8 (c : Nat) : Nat × Nat :=
  let e := fld c 2 6
  let m := 4 + c % 4
  if 34 ≤ e then (m * 2 ^ (e - 34), 1) else (m, 2 ^ (34 - e))

/-- Fmax of R79; `none` for QW1, whose rule is the mean. -/
def freshMax (f : Nat) : Option Nat :=
  match f with
  | 2 => some 3 | 3 => some 14 | 4 => some 240 | 5 => some 28672 | 6 => some 127 | 1 => some 1
  | _ => none

/-- Least QB8 code, from a first one upward, whose value times `k` is at least n / d; FEh when none is. -/
def leastScale (n d k : Nat) : Nat → Nat → Nat
  | 0, _ => 0xFE
  | fuel + 1, c =>
    let (a, b) := qb8 c
    if n * b ≤ a * k * d then c else leastScale n d k fuel (c + 1)

/-- The scale of a block from its elements (R79). -/
def freshScale (f : Nat) (vs : List Num) : Nat :=
  let fins := vs.filterMap fun v => match v with | .fin _ n d => some (n, d) | _ => none
  if fins.all (fun p => p.1 == 0) then 0x80
  else match freshMax f with
    | some k =>
      let amax := fins.foldl (fun a p => if a.1 * p.2 < p.1 * a.2 then p else a) (0, 1)
      leastScale amax.1 amax.2 k 255 0
    | none =>
      let sum := fins.foldl (fun a p => (a.1 * p.2 + p.1 * a.2, a.2 * p.2)) (0, 1)
      leastScale sum.1 (sum.2 * fins.length) 1 255 0

/-- A QW1 element under a scale (R76, R79): code and flags. -/
def convertQw1 (scale : Nat) (v : Num) : Nat × Nat :=
  match v with
  | .nan => (0, fInvalid)
  | .inf neg => (b2n neg, fOverflow)
  | .fin neg n d =>
    let (a, b) := qb8 scale
    (b2n (neg && n != 0), if n * b = a * d then 0 else fInexact)

/-- An element of a block with a fresh scale (R80, R81). -/
def convertFresh (f scale : Nat) (draw : Option Nat) (v : Num) : Nat × Nat :=
  if f = 0 then convertQw1 scale v
  else
    let (a, b) := qb8 scale
    convert f draw (v.divBy a b)

/-! ## The lane generator (R82 to R86) -/

def rotl (x : Word) (n : Nat) : Word := (x <<< n) ||| (x >>> (32 - n))

structure Lane where
  k0 : Word
  k1 : Word
  x0 : Word
  x1 : Word
  x2 : Word
  x3 : Word

/-- One pass of the loop of R85. -/
def Lane.pass (s : Lane) : Lane :=
  let k0 := s.k0 + 0x6A3D2B15#32
  let x0 := s.x0 + k0
  let x1 := s.x1 ^^^ s.k1
  let x0 := x0 + x1
  let x3 := rotl (s.x3 ^^^ x0) 16
  let x2 := s.x2 + x3
  let x1 := rotl (x1 ^^^ x2) 12
  let x0 := x0 + x1
  let x3 := rotl (x3 ^^^ x0) 8
  let x2 := x2 + x3
  let x1 := rotl (x1 ^^^ x2) 5
  ⟨k0, s.k1, x0, x1, x2, x3⟩

/-- `lane_draw` of R85. -/
def laneDraw (seed : Nat) (stream : Nat) (pos : Nat) (draw : Nat) : Word :=
  let s : Lane := ⟨w32 seed, w32 (seed / 2 ^ 32), w32 pos, w32 (pos / 2 ^ 32), w32 stream, w32 draw⟩
  let t := s.pass.pass.pass.pass
  t.x0 ^^^ t.x2

/-- Stream number (R83): role, die-wide core and lane. -/
def laneStream (role core lane : Nat) : Nat := 2 ^ 30 * role + core * 64 + lane

/-! ## Functions of the vector engine (R193). The precision is log entry 14. -/

/-- Integer square root, bit by bit from bit `i` − 1 downward. -/
def isqrtGo (n : Nat) : Nat → Nat → Nat
  | 0, r => r
  | i + 1, r => if (r + 2 ^ i) * (r + 2 ^ i) ≤ n then isqrtGo n i (r + 2 ^ i) else isqrtGo n i r

def isqrt (n : Nat) : Nat := isqrtGo n (Nat.log2 n / 2 + 1) 0

/-- ln 2 in units of 2⁻²⁵⁶. -/
def ln2 : Nat := 80260960185991308862233904206310070533990667611589946606122867505419956976171

/-- Sum of the series of exp(y) − 1, y in units of 2⁻²⁵⁶: `t` is the present term. -/
def expSeries (y : Nat) : Nat → Nat → Nat → Nat
  | 0, _, _ => 0
  | n + 1, i, t =>
    let t := t * y / 2 ^ 256 / i
    t + expSeries y n (i + 1) t

/-- 2^V for a finite V, as a number that lies strictly between representable ones where V is no integer:
the last bit stands for what lies below 2⁻²⁵⁶. -/
def exp2Num (neg : Bool) (n d : Nat) : Num :=
  let v : Int := Num.signed neg n
  let k := v / (d : Int)
  let r := (v % (d : Int)).toNat
  if 1024 ≤ k then .fin false (2 ^ 1024) 1
  else if k < -1024 then .fin false 1 (2 ^ 1024)
  else if r = 0 then Num.scaled false 1 k
  else
    let y := r * 2 ^ 256 / d * ln2 / 2 ^ 256
    let m := 2 ^ 256 + expSeries y 80 1 (2 ^ 256)
    Num.scaled false (2 * m + 1) (k - 257)

/-- Binary digits of log2 of m / 2⁴⁰⁰ in [1, 2). -/
def log2Digits : Nat → Nat → Nat → Nat
  | 0, _, acc => acc
  | k + 1, m, acc =>
    let q := m * m / 2 ^ 400
    if 2 ^ 401 ≤ q then log2Digits k (q / 2) (2 * acc + 1) else log2Digits k q (2 * acc)

/-- log₂ of a finite positive number with power-of-two denominator. -/
def log2Num (n d : Nat) : Num :=
  let x := floorLog2 n d
  let m := match x with
    | .ofNat k => n * 2 ^ 400 / (d * 2 ^ k)
    | .negSucc k => n * 2 ^ (k + 1) * 2 ^ 400 / d
  if m = 2 ^ 400 then Num.ofInt x
  else
    let s : Int := x * (2 ^ 161 : Nat) + (2 * log2Digits 160 m 0 + 1 : Nat)
    Num.scaled (decide (s < 0)) s.natAbs (-161)

/-- 1 / √(n / d) for n above 0. -/
def rsqrtNum (n d : Nat) : Num :=
  let t := 2 ^ 800 * d / n
  let r := isqrt t
  if r * r * n = 2 ^ 800 * d then Num.scaled false r (-400) else Num.scaled false (2 * r + 1) (-401)

/-- EXP2, LOG2, RECIP and RSQRT with their special values: code and flags. -/
def vexp2 (v : Num) : Word × Nat :=
  match v with
  | .nan => (w32 (nanCode 8), 0)
  | .inf neg => (if neg then 0 else 0x7FC00000#32, 0)
  | .fin neg n d => toQs32 (exp2Num neg n d)

def vlog2 (v : Num) : Word × Nat :=
  match v with
  | .nan => (w32 (nanCode 8), 0)
  | .inf neg => if neg then (w32 (nanCode 8), fInvalid) else (0x7FC00000#32, 0)
  | .fin neg n d =>
    if n = 0 then (0xFFC00000#32, 0)
    else if neg then (w32 (nanCode 8), fInvalid)
    else toQs32 (log2Num n d)

def vrecip (v : Num) : Word × Nat :=
  match v with
  | .nan => (w32 (nanCode 8), 0)
  | .inf _ => (0, 0)
  | .fin neg n d => if n = 0 then (0x7FC00000#32, 0) else toQs32 (.fin neg d n)

def vrsqrt (v : Num) : Word × Nat :=
  match v with
  | .nan => (w32 (nanCode 8), 0)
  | .inf neg => if neg then (w32 (nanCode 8), fInvalid) else (0, 0)
  | .fin neg n d =>
    if n = 0 then (0x7FC00000#32, 0)
    else if neg then (w32 (nanCode 8), fInvalid)
    else toQs32 (rsqrtNum n d)

end Sys2Proof.Machine
end

