-- ==== Sys2Proof/Machine/Operands.lean ====
section
/-!
DEFINITION. Every operand form: the fields of a descriptor (R135, R142, R143, R145, R149, R152), operand
references and records (R138, R139), CONV geometry (R146, R147), where an element or a scale byte of an
operand lies (R69, R141, R148, R229), and where a tile lies (R165).
-/

namespace Sys2Proof.Machine

/-- Word `i` of a descriptor, a record or a pointer-list entry held as a number. -/
def wordAt (x i : Nat) : Nat := x / 2 ^ (32 * i) % 2 ^ 32

def Desc.word (d : Desc) (i : Nat) : Nat := wordAt d.toNat i
def Desc.pair (d : Desc) (i : Nat) : Nat := d.word i + 2 ^ 32 * d.word (i + 1)

/-! ## Header (R135) and mode word (R143) -/

def Desc.opcode (d : Desc) : Nat := fld (d.word 0) 0 8
def Desc.irq (d : Desc) : Bool := bit (d.word 0) 8
def Desc.order (d : Desc) : Bool := bit (d.word 0) 9
def Desc.inherit (d : Desc) : Bool := bit (d.word 0) 10
def Desc.job (d : Desc) : Nat := fld (d.word 0) 16 16

def Desc.aFmt (d : Desc) : Nat := fld (d.word 1) 0 4
def Desc.bFmt (d : Desc) : Nat := fld (d.word 1) 4 4
def Desc.outFmt (d : Desc) : Nat := fld (d.word 1) 8 4
def Desc.accInt (d : Desc) : Bool := bit (d.word 1) 12
def Desc.accInit (d : Desc) : Bool := bit (d.word 1) 13
def Desc.roundMode (d : Desc) : Nat := fld (d.word 1) 14 2
def Desc.train (d : Desc) : Bool := bit (d.word 1) 16
def Desc.outFine (d : Desc) : Bool := bit (d.word 1) 17
def Desc.outAxis (d : Desc) : Bool := bit (d.word 1) 18
def Desc.transA (d : Desc) : Bool := bit (d.word 1) 19
def Desc.transB (d : Desc) : Bool := bit (d.word 1) 20
def Desc.shapePin (d : Desc) : Nat := fld (d.word 1) 21 3
def Desc.cAcc (d : Desc) : Bool := bit (d.word 1) 24
def Desc.chainNo (d : Desc) : Nat := fld (d.word 1) 26 6

def Desc.aScale (d : Desc) : Nat := d.word 8
def Desc.bScale (d : Desc) : Nat := d.word 9
def Desc.dims (d : Desc) : Nat := d.pair 10
def Desc.seed (d : Desc) : Nat := d.pair 12
def Desc.dataPos (d : Desc) : Nat := d.pair 14

def dimM (x : Nat) : Nat := fld x 0 20
def dimN (x : Nat) : Nat := fld x 20 20
def dimK (x : Nat) : Nat := fld x 40 23

def opMatmul : Nat := 1
def opConv : Nat := 2
def opBatched : Nat := 3
def opElementwise : Nat := 4
def opMove : Nat := 5
def opWindowWrite : Nat := 6
def opWaitCount : Nat := 7
def opSignal : Nat := 8
def opFence : Nat := 9
def opSecureState : Nat := 10
def opJournalMark : Nat := 11
def opRestoreCheck : Nat := 12
def opScrub : Nat := 13

/-- Opcodes whose result passes a drain chain (R143). -/
def Desc.hasChain (d : Desc) : Bool := decide (1 ≤ d.opcode) && decide (d.opcode ≤ 4)

/-- Opcodes that run the array. -/
def Desc.isProduct (d : Desc) : Bool := decide (1 ≤ d.opcode) && decide (d.opcode ≤ 3)

/-- Format of the source: a MOVE from accumulator files reads `acc_format` (R153). -/
def Desc.srcFmt (d : Desc) : Nat :=
  if d.opcode = opMove ∧ fld (d.pair 2) 62 2 = 3 then (if d.accInt then 9 else 8) else d.aFmt

/-- Format of the output: a MOVE to accumulator files writes `acc_format` (R153). -/
def Desc.dstFmt (d : Desc) : Nat :=
  if d.opcode = opMove ∧ fld (d.pair 6) 62 2 = 3 then (if d.accInt then 9 else 8) else d.outFmt

/-- A MOVE that copies bits (R153). -/
def Desc.bitCopy (d : Desc) : Bool :=
  d.opcode == opMove && d.srcFmt == d.dstFmt && !d.outFine

/-- Output with fresh fine scales (R79, R153). -/
def Desc.fresh (d : Desc) : Bool := !d.bitCopy && (d.outFine || decide (d.dstFmt ≤ 1))

/-- Stochastic rounding at recast-out (R73). -/
def Desc.stochastic (d : Desc) : Bool :=
  d.roundMode == 2 || (d.roundMode == 0 && d.train && decide (1 ≤ d.dstFmt) && decide (d.dstFmt ≤ 6))

def OpRec.job (o : OpRec) : Nat := o.desc.job
def OpRec.opcode (o : OpRec) : Nat := o.desc.opcode

/-! ## Operand references (R138) -/

def refKind (r : Nat) : Nat := fld r 62 2

/-- A reference's fixed-zero bits and alignment by kind (R138). -/
def refLegal (r : Nat) : Bool :=
  match refKind r with
  | 0 => decide (fld r 52 10 = 0) && decide (r % 32 = 0)
  | 3 => decide (fld r 17 45 = 0)
  | _ => decide (fld r 6 56 = 0)

/-- An operand record as read at acceptance (R139). -/
def Operand.ofRecord (x : Nat) : Operand :=
  let base := wordAt x 0 + 2 ^ 32 * wordAt x 1
  let plane := wordAt x 2 + 2 ^ 32 * wordAt x 3
  .record (base % 2 ^ 52) (if bit plane 63 then some (plane % 2 ^ 52) else Option.none) (wordAt x 4) (wordAt x 5)
    (wordAt x 6) (wordAt x 7)

/-- First field of a record that R139 rejects, by its byte offset. -/
def recordFault (x : Nat) : Option Nat :=
  let base := wordAt x 0 + 2 ^ 32 * wordAt x 1
  let plane := wordAt x 2 + 2 ^ 32 * wordAt x 3
  if base % 4 ≠ 0 ∨ fld base 52 12 ≠ 0 then some 0
  else if fld plane 52 11 ≠ 0 then some 8
  else if wordAt x 4 % 4 ≠ 0 then some 16
  else none

/-! ## CONV geometry (R145 to R148) -/

structure ConvGeo where
  kh : Nat
  kw : Nat
  sh : Nat
  sw : Nat
  dh : Nat
  dw : Nat
  ph : Nat
  pw : Nat
  kout : Nat
  deriving DecidableEq, Repr

def Desc.conv (d : Desc) : ConvGeo :=
  let x := d.dims
  { kh := fld x 0 4 + 1, kw := fld x 4 4 + 1, sh := fld x 8 3 + 1, sw := fld x 11 3 + 1,
    dh := fld x 14 3 + 1, dw := fld x 17 3 + 1, ph := fld x 20 4, pw := fld x 24 4, kout := fld x 28 20 }

/-- P and Q of R146 for one axis: size, padding, dilation, kernel, stride. -/
def convOut (size pad dil ker str : Nat) : Nat :=
  if size + 2 * pad < dil * (ker - 1) + 1 then 0 else (size + 2 * pad - dil * (ker - 1) - 1) / str + 1

def ConvGeo.outP (g : ConvGeo) (h : Nat) : Nat := convOut h g.ph g.dh g.kh g.sh
def ConvGeo.outQ (g : ConvGeo) (w : Nat) : Nat := convOut w g.pw g.dw g.kw g.sw

/-- The pixel and channel that element (m, k) of the unrolled A reads; `none` in the halo (R147). -/
def ConvGeo.pixel (g : ConvGeo) (h w c m k : Nat) : Option (Nat × Nat) :=
  let p := g.outP h
  let q := g.outQ w
  let n := m / (p * q)
  let y := (m / q % p * g.sh : Nat) + (k / (c * g.kw) * g.dh : Nat)
  let x := (m % q * g.sw : Nat) + (k / c % g.kw * g.dw : Nat)
  if y < g.ph ∨ h + g.ph ≤ y ∨ x < g.pw ∨ w + g.pw ≤ x then none
  else some ((n * h + (y - g.ph)) * w + (x - g.pw), k % c)

/-! ## Where elements lie -/

/-- Pitch of an operand's stored rows. -/
def Operand.pitch (s : State) (cluster : Nat) : Operand → Nat
  | .record _ _ p _ _ _ => p
  | .handle h _ => (s.handle cluster h).stride
  | _ => 0

/-- Does the operand carry a scale plane in the cluster (R68)? -/
def Operand.hasPlane (s : State) (cluster : Nat) : Operand → Bool
  | .record _ pl _ _ _ _ => pl.isSome
  | .handle h _ => (s.handle cluster h).planeEn
  | _ => false

/-- Base of the stored rows: a package address, or 0 for a handle. -/
def Operand.base : Operand → Nat
  | .record b _ _ _ _ _ => b
  | _ => 0

/-- Base of the scale plane: a package address, or an offset within the handle. -/
def Operand.planeBase (s : State) (cluster : Nat) : Operand → Nat
  | .record _ pl _ _ _ _ => pl.getD 0
  | .handle h _ => (s.handle cluster h).planeOff
  | _ => 0

/-- Place of an element: address (or handle offset) of its first byte, its bit within that byte and the
number of bytes it touches (R11, R141). -/
def elemPlace (base pitch width row col : Nat) : Nat × Nat × Nat :=
  let b := col * width
  (base + row * pitch + b / 8, b % 8, ceilDiv (b % 8 + width) 8)

/-- Pitch of a line of a scale plane (R69): bytes of `n` elements along the block axis. -/
def planePitch (n : Nat) : Nat := 4 * ceilDiv (ceilDiv n 32) 4

/-- Bytes that a stored shape occupies (R141). -/
def occupied (rows cols width pitch : Nat) : Nat :=
  if rows = 0 ∨ cols = 0 then 0 else (rows - 1) * pitch + ceilDiv (cols * width) 8

/-- The element code in a run of bytes from its first bit (R11). -/
def codeOf (bytes : List Byte) (bitOff width : Nat) : Nat := ofLE bytes / 2 ^ bitOff % 2 ^ width

/-! ## Tiles -/

/-- Origin of tile `t` of a sliver in the output (R165). -/
def Sliver.origin (v : Sliver) (t : Nat) : Nat × Nat :=
  let tc := ceilDiv v.cols v.nt
  (v.row0 + t / tc * v.mt, v.col0 + t % tc * v.nt)

/-- Rows and columns of a tile that are not masked at an edge (R172). -/
def Sliver.extent (v : Sliver) (t : Nat) : Nat × Nat :=
  let (r, c) := v.origin t
  (min v.mt (v.row0 + v.rows - r), min v.nt (v.col0 + v.cols - c))

/-- Tiles of a sliver (R165, R166). -/
def Sliver.tiles (v : Sliver) : Nat := ceilDiv v.rows v.mt * ceilDiv v.cols v.nt

/-- The entry of an operation's list that a sliver belongs to. -/
def OpRec.entryOf (o : OpRec) (v : Sliver) : Option Entry := o.entries.find? (·.index == v.entry)

end Sys2Proof.Machine
end

