-- ==== Sys2Proof/Machine/Imposition.lean ====
section
/-!
DEFINITION. Imposition: how an output is split over clusters and cores (R155 to R171), the tile shapes and
their choice, and the rates of operand pairs (R43, R93).
-/

namespace Sys2Proof.Machine

/-! ## Rates (R43, R93) -/

/-- Products per PE and step, and the length of a step in cycles, of an operand pair; `b` is the weight
operand. -/
def pairStep (a b : Nat) : Nat × Nat :=
  if a = 8 ∨ b = 8 then (1, 64)
  else if a = 7 ∨ b = 7 then (1, 8)
  else if b = 0 then (8, 1)
  else if b = 1 then (4, 1)
  else if a = 2 ∧ b = 2 then (2, 1)
  else (1, 1)

/-! ## Shapes (R164, R167) -/

/-- One row of the tile menu: rows, columns, streamed vectors L, column groups G. -/
structure Shape where
  mt : Nat
  nt : Nat
  len : Nat
  groups : Nat
  deriving DecidableEq, Repr

def shapes : List Shape := [⟨8, 8, 8, 1⟩, ⟨16, 16, 16, 2⟩, ⟨32, 8, 32, 1⟩, ⟨8, 32, 8, 4⟩, ⟨4, 64, 64, 1⟩]

/-- Galley form is the form of 4×64 and of no other shape (R91). -/
def Shape.galley (p : Shape) : Bool := p.mt == 4

/-- Indices per pass (R93). -/
def Shape.ipp (p : Shape) (d : Nat) : Nat := if p.galley then 16 * d else 8 * d

/-- Column groups of a tile of this shape. -/
def shapeOf (mt nt : Nat) : Shape := (shapes.find? fun p => p.mt == mt && p.nt == nt).getD ⟨8, 8, 8, 1⟩

/-- Allowed shapes and granules by the output's fresh scales (R167). -/
def allowed (fresh axis : Bool) : List Shape × Nat × Nat :=
  if !fresh then (shapes, 8, 8)
  else if axis then ([⟨32, 8, 32, 1⟩], 32, 8)
  else ([⟨8, 32, 8, 4⟩, ⟨4, 64, 64, 1⟩], 8, 32)

/-- The shape that a pin names (R143); `none` for auto, galley-if-thin and the reserved code. -/
def pinned (pin : Nat) : Option Shape :=
  match pin with
  | 0 => none
  | n + 1 => if n < 5 then shapes[n]? else none

/-- Is an A row panel resident in the feeder store (R170)? `f` is its bytes of scales. -/
def panelResident (mt k wa f : Nat) : Bool := decide (mt * (ceilDiv (k * wa) 8 + f) ≤ 3072)

/-- Cycles and reuse of a shape for a sliver (R168); `/` is integer division (R20). -/
def shapeCost (p : Shape) (a b rows cols k : Nat) : Nat × Nat :=
  let (d, t) := pairStep a b
  let wa := fmtWidth a
  let wb := fmtWidth b
  let tiles := ceilDiv rows p.mt * ceilDiv cols p.nt
  let cycles := ceilDiv tiles 256 * t * p.groups * ceilDiv k (p.ipp d) * p.len
  let mt := min p.mt rows
  let nt := min p.nt cols
  let f := if 2 ≤ a ∧ a ≤ 6 then ceilDiv k 32 else 0
  let reuse := if panelResident p.mt k wa f then 8 * mt / wb else 8 * mt * nt / (mt * wa + nt * wb)
  (cycles, reuse)

/-- The compositor's choice (R168). -/
def chooseShape (ok : List Shape) (pin a b rows cols k : Nat) : Shape :=
  let gal : Shape := ⟨4, 64, 64, 1⟩
  match pinned pin with
  | some p => p
  | none =>
    if pin = 6 ∧ rows ≤ 4 ∧ ok.contains gal then gal
    else
      let rs := ok.map fun p => (p, shapeCost p a b rows cols k)
      let low := rs.foldl (fun m r => min m r.2.1) ((rs.head?.map (·.2.1)).getD 0)
      let cand := rs.filter fun r => 8 * r.2.1 ≤ 9 * low
      let best := cand.foldl
        (fun (b : Option (Shape × Nat)) r =>
          match b with
          | none => some (r.1, r.2.2)
          | some (p, u) => if u < r.2.2 then some (r.1, r.2.2) else some (p, u)) none
      (best.map (·.1)).getD ⟨8, 8, 8, 1⟩

/-! ## Clusters of a set (R155, R156) -/

/-- The clusters of a set on a port, ascending. -/
def portClusters (first count port : Nat) : List Nat :=
  ((List.range 10).map fun r =>
    (port / 8 * 5 + r / 2) * 16 + port % 8 * 2 + r % 2).filter fun c =>
      decide (first ≤ c) && decide (c < first + count)

/-- The clusters by position: by rank, then by home port (R156). -/
def positions (first count : Nat) : List Nat :=
  let ports := (List.range 32).map (portClusters first count)
  (List.range 10).flatMap fun rank => ports.filterMap fun l => l[rank]?

/-- Clusters of a set in ascending index. -/
def setClusters (first count : Nat) : List Nat := (List.range count).map (first + ·)

/-! ## Bands and slivers (R157, R158) -/

/-- Gm and Gn of R157. -/
def bands (c m n wa wb gr gc : Nat) : Nat × Nat :=
  let mg := ceilDiv m gr
  let ng := ceilDiv n gc
  let need := ceilDiv (3 * min c (mg * ng)) 4
  let tries := (List.range (min c mg)).map fun i => (i + 1, min (c / (i + 1)) ng)
  let best := tries.foldl
    (fun (b : Option (Nat × Nat × Nat)) g =>
      if g.1 * g.2 < need then b
      else
        let cost := g.2 * m * wa + g.1 * n * wb
        match b with
        | none => some (g.1, g.2, cost)
        | some x => if cost < x.2.2 then some (g.1, g.2, cost) else some x) none
  match best with
  | some x => (x.1, x.2.1)
  | none =>
    tries.foldl (fun b g => if b.1 * b.2 < g.1 * g.2 then g else b) (1, 0)

/-- How an operation's tiles are shaped and its bands cut. -/
structure Plan where
  ok   : List Shape
  gr   : Nat
  gc   : Nat
  wa   : Nat
  wb   : Nat
  pin  : Nat
  a    : Nat
  b    : Nat

def Plan.sliver (p : Plan) (entry cluster row0 rows col0 cols k : Nat) : Sliver :=
  let sh := chooseShape p.ok p.pin p.a p.b rows cols k
  { entry := entry, cluster := cluster, row0 := row0, rows := rows, col0 := col0, cols := cols,
    mt := sh.mt, nt := sh.nt }

/-- Slivers of one product over clusters given in position order (R157, R158). -/
def Plan.impose (p : Plan) (entry m n k : Nat) (clusters : List Nat) : List Sliver :=
  if m = 0 ∨ n = 0 then []
  else
    let (gm, gn) := bands clusters.length m n p.wa p.wb p.gr p.gc
    let hb := p.gr * ceilDiv (ceilDiv m p.gr) gm
    let wc := p.gc * ceilDiv (ceilDiv n p.gc) gn
    let bm := ceilDiv m hb
    let bn := ceilDiv n wc
    (List.range (bm * bn)).filterMap fun x =>
      let i := x / bn
      let j := x % bn
      clusters[x]?.map fun c =>
        p.sliver entry c (i * hb) (min hb (m - i * hb)) (j * wc) (min wc (n - j * wc)) k

/-- Slivers of a BATCHED list of entries (index, m, n, k), those of zero shape left out (R159). -/
def Plan.imposeList (p : Plan) (es : List (Nat × Nat × Nat × Nat)) (clusters : List Nat) : List Sliver :=
  let live := es.filter fun e => e.2.1 ≠ 0 && e.2.2.1 ≠ 0
  let c := clusters.length
  let e := live.length
  let ranked := (List.range e).zip live
  if c ≤ e then
    ranked.filterMap fun x =>
      clusters[x.1 % c]?.map fun cl => p.sliver x.2.1 cl 0 x.2.2.1 0 x.2.2.2.1 x.2.2.2.2
  else
    let g := c / e
    let r := c % e
    ranked.flatMap fun x =>
      let start := x.1 * g + min x.1 r
      let size := if x.1 < r then g + 1 else g
      p.impose x.2.1 x.2.2.1 x.2.2.2.1 x.2.2.2.2 ((clusters.drop start).take size)

/-- The plan of a descriptor (R157, R160, R167). -/
def Desc.plan (d : Desc) : Plan :=
  let (ok, gr, gc) := allowed d.fresh d.outAxis
  if d.isProduct then
    { ok := ok, gr := gr, gc := gc, wa := fmtWidth d.aFmt, wb := fmtWidth d.bFmt, pin := d.shapePin,
      a := d.aFmt, b := d.bFmt }
  else
    let ok := if d.fresh then (if d.outAxis then [⟨32, 8, 32, 1⟩] else [⟨8, 32, 8, 4⟩]) else [⟨8, 8, 8, 1⟩]
    { ok := ok, gr := gr, gc := gc, wa := 8, wb := 8, pin := 0, a := 4, b := 4 }

/-- Slivers of a MOVE from or to accumulator files: row i on the cluster of core `first` + i (R160), the
rows of one cluster tiled together (log entry 16). With fresh scales along M and a cluster's first row at no multiple
of 32, a block of R81 spans two clusters, and the spec does not say which core encodes it: each tile takes the elements
that it has of the block and writes the block's scale byte, the later one last (DESIGN CHOICE, log entry 96). -/
def Plan.imposeFiles (p : Plan) (first m n : Nat) : List Sliver :=
  let lo := first / 256
  let hi := (first + m - 1) / 256
  if m = 0 ∨ n = 0 then []
  else (List.range (hi - lo + 1)).map fun i =>
    let c := lo + i
    let r0 := 256 * c - first
    let r1 := min m (256 * (c + 1) - first)
    p.sliver 0 c r0 (r1 - r0) 0 n 0

/-- Core `i`'s tiles of a sliver (R166): first and one past the last. -/
def Sliver.share (v : Sliver) (i : Nat) : Nat × Nat :=
  let t := v.tiles
  let u := ceilDiv t 256
  (min (i * u) t, min ((i + 1) * u) t)

end Sys2Proof.Machine
end

