-- ==== Sys2Proof/Machine/OpLife.lean ====
section
/-!
DEFINITION. The life of an operation after its acceptance: failing under the stopping rule (R205), ending,
being interrupted by an error for a replay (R394, R395, R411), and the failure of control state (R396).
-/

namespace Sys2Proof.Machine

/-! ## Health counters and captures (R393 to R396, R401) -/

/-- A corrected error (R393). -/
def State.correctedError (s : State) : State :=
  { s.incReg 0x4C128 with health := { s.health with ce := s.health.ce + 1 } }

/-! ## Fault injection (R357, R359, R479) -/

/-- A page or core with this base is armed for a kind, and the access qualifies. -/
def State.injects (s : State) (base kind place : Nat) : Bool :=
  let w := s.regN (base + 0xF10)
  bit w 31 && fld w 0 4 == kind && Config.injectHits base (fld w 8 8) (s.regN (base + 0xF14)) place

/-- One injection is performed: T_INJ_DONE counts it, and ARM clears once COUNT are done. -/
def State.injectDone (s : State) (base : Nat) : State :=
  let n := SMap.getD s.injected (base + 0xF10) 0 + 1
  let s := ({ s with injected := SMap.put s.injected (base + 0xF10) n } : State).incReg (base + 0xF18)
  if s.regF (base + 0xF10) 16 8 = n then s.setRegF (base + 0xF10) 31 1 0 else s

/-- What SEC-DED finds in a word of a store, with the injection that the access takes (R393, R479). -/
def State.injectWord (s : State) (base place : Nat) (ecc : Ecc) : State × Ecc :=
  match ecc with
  | .clean =>
    if s.injects base 1 place then (s.injectDone base, .corrected)
    else if s.injects base 2 place then (s.injectDone base, .uncorrectable)
    else (s, .clean)
  | e => (s, e)

/-- What parity finds in a transfer, which is sent again once (R393, R479). -/
def State.injectPath (s : State) (base place : Nat) (ecc : Ecc) : State × Ecc :=
  match ecc with
  | .clean =>
    if s.injects base 3 place then
      let t := s.injectDone base
      if t.injects base 3 place then (t.injectDone base, .uncorrectable) else (t, .corrected)
    else (s, .clean)
  | e => (s, e)

/-- What parity finds in a word of a store: every error is uncorrectable (R393, R479). -/
def State.injectParity (s : State) (base place : Nat) (ecc : Ecc) : State × Ecc :=
  match ecc with
  | .clean => if s.injects base 3 place then (s.injectDone base, .uncorrectable) else (s, .clean)
  | .corrected => (s, .clean)
  | e => (s, e)

/-- A HEALTH capture: place, cluster or core, and sequence number of the affected descriptor (R401); with no
descriptor affected the spec gives that word no value, and it is free (log entry 3). -/
def State.healthCapture (s : State) (cause d0 d1 : Nat) (seq : Option Word) : State :=
  match seq with
  | some q => s.capture pgHealth cause [w32 d0, w32 d1, q]
  | none =>
    let (q, t) := s.freshWord
    t.capture pgHealth cause [w32 d0, w32 d1, q]

/-- An uncorrectable error is counted and reported (R397 input 6, R401). -/
def State.uncorrected (s : State) (cause d0 d1 : Nat) (seq : Option Word) : State :=
  let s := s.incReg 0x4C12C
  let s := { s with health := { s.health with replay := s.health.replay + 1 } }
  (s.healthCapture cause d0 d1 seq).raise pgHealth 4

/-! ## Work of an operation on cores -/

def Core.busyWith (c : Core) (id : Nat) : Bool :=
  (c.work.any fun w => w.op == id) || (c.tile.any fun t => t.op == id)
    || (c.slugs.any fun g => g.op == id) || (c.chain.any fun x => x.slug.op == id)
    || (c.formes.any fun f => f.op == id)

/-- Keys of a core's arrival buffer: below `useBuf` the feeder's, below `useMerge` those of the tile buffers,
above it the bytes of words under a merge (R173). -/
def useBuf : Nat := 2 ^ 28
def useMerge : Nat := 2 ^ 29

/-- The slug that the chain holds, or takes next. -/
def Core.current (c : Core) : Option Slug :=
  match c.chain with
  | some x => some x.slug
  | none => c.slugs.head?

/-- The formes before the refused slug's of an operation; what follows it of the operation cannot commit (R178, R204). -/
def formesBefore (id entry t : Nat) : List Forme → List Forme
  | [] => []
  | f :: r => if f.op = id ∧ f.sliver.entry = entry ∧ f.t = t then r.filter (·.op != id) else f :: formesBefore id entry t r

/-- Work that has not reached the drain is dropped (R205): tiles to come, the tile in the array and the
slugs in the queue. `cut` is the slug of this core with a refused write: it and what follows it in the drain goes too.
`all` drops whatever the core holds of the operation. -/
def Core.dropWork (c : Core) (id : Nat) (all : Bool) (cut : Option (Nat × Nat) := none) : Core :=
  let inDrain := all || cut.isSome
  let chain := match c.chain with
    | some x => if x.slug.op = id && inDrain then none else some x
    | none => none
  let fills := c.current.any (·.op == id) && chain.isNone
  let formes := if all then c.formes.filter (·.op != id)
    else match cut with
      | some x => formesBefore id x.1 x.2 c.formes
      | none => c.formes
  { c with
    work := c.work.filter (·.op != id)
    tile := match c.tile with
      | some t => if t.op = id then none else some t
      | none => none
    slugs := c.slugs.filter (·.op != id)
    chain := chain
    formes := formes
    feeder := c.feeder.filter (·.op != id)
    bounds := c.bounds.filter (·.op != id)
    filled := if fills then [] else c.filled
    arrived := c.arrived.keep fun k =>
      if k < useBuf then !(c.tile.any (·.op == id))
      else if k < useMerge then !fills
      else decide (formes = c.formes) }

def State.mapCores (s : State) (f : Nat → Core → Core) : State :=
  { s with cores := s.cores.map fun p => (p.1, f p.1 p.2) }

def State.coresBusy (s : State) (id : Nat) : Bool := s.cores.any fun p => p.2.busyWith id

/-- Accesses of an operation that have not been performed. -/
def State.accessesOf (s : State) (id : Nat) : Bool :=
  (s.xbar.any fun p => p.2.any fun a => a.op == some id)
    || (s.parked.any fun p => p.2.any fun a => a.op == some id)

/-- Reads that work before the drain has issued are not wanted any more. -/
def State.dropReads (s : State) (id : Nat) : State :=
  let keep (l : List BankAcc) : List BankAcc := l.filter fun a =>
    a.op != some id || !(match a.dest with
      | .arrived _ k => decide (k < useMerge)
      | _ => false)
  let cl (m : SMap (List BankAcc)) : SMap (List BankAcc) :=
    (m.map fun p => (p.1, keep p.2)).filter fun p => !p.2.isEmpty
  { s with xbar := cl s.xbar, parked := cl s.parked }

/-- Every closing bank without an outstanding write enters its state (R256 step 2). -/
def State.closeChecks (s : State) : State := s.banks.foldl (fun t p => t.closeCheck (p.1 / 48) (p.1 % 48)) s

/-- Accesses of an operation that no bank has performed are discarded; the outstanding-write counters fall with
them. -/
def State.dropAccesses (s : State) (id : Nat) : State :=
  let keep (l : List BankAcc) : List BankAcc := l.filter fun a => a.op != some id
  let cl (m : SMap (List BankAcc)) : SMap (List BankAcc) :=
    (m.map fun p => (p.1, keep p.2)).filter fun p => !p.2.isEmpty
  ({ s with xbar := cl s.xbar, parked := cl s.parked } : State).closeChecks

/-- Is an answer outstanding that the operation's work needs? -/
def Purpose.needs (id : Nat) : Purpose → Bool
  | .stage o _ => o == id
  | .merge o _ => o == id
  | .winSource o _ _ => o == id
  | .windowWrite o _ _ => o == id
  | .atomic o => o == id
  | _ => false

def State.waitsFor (s : State) (id : Nat) : Bool := s.outst.any fun x => x.purpose.needs id

/-! ## Ending -/

/-- Codes of R343 that halt a queue; STREAM_MISMATCH only without RESYNC (R426). -/
def halting (s : State) (st : Nat) : Bool :=
  match st with
  | 0x23 | 0x31 | 0x41 => true
  | 0x40 => !bit (s.regN 0x4E100) 0
  | _ => false

/-- FLAGS that make OK into OK_FLAGS (R127, R343): EXC, SAT and the rescue bits. -/
def flagsCount (f : Nat) : Bool := decide (f % 32 ≠ 0) || decide (f / 128 % 4 ≠ 0)

/-- Status of an operation whose work is done (R343, R415). -/
def OpRec.goodStatus (o : OpRec) : Nat :=
  if 0 < o.replays || o.fromJournal then 0x30 else if flagsCount o.flags then 1 else 0

/-- Its work is over: its completion is due or under way. -/
def OpRec.ended (o : OpRec) : Bool :=
  match o.phase with
  | .finished | .flushing _ => true
  | _ => false

/-- The operation's work is over with a status; its completion is due. -/
def State.finish (s : State) (id status : Nat) : State :=
  s.modOp id fun o =>
    if o.ended then o
    else { o with phase := .finished, status := if o.stopped then o.status else status }

/-- The operation ends with a failure. A securing first completes the copy of its handles (R421): its
completion follows SECURE_COMPLETE. -/
def State.failWith (s : State) (id status : Nat) : State :=
  match (s.op id).map OpRec.kind, s.securing with
  | some OpKind.secure, some x =>
    if x.op = id then
      { s.modOp id (fun p => { p with stopped := true, status := status, phase := .running }) with
        securing := some { x with failed := some (x.failed.getD status) } }
    else (s.modOp id fun p => { p with stopped := true, status := status }).finish id status
  | _, _ => (s.modOp id fun p => { p with stopped := true, status := status }).finish id status

/-- A compute operation or WINDOW_WRITE ends when nothing of it is left (R205, R250). -/
def State.settle (s : State) (id : Nat) : State :=
  match s.op id with
  | none => s
  | some o =>
    if o.phase != .running || s.coresBusy id || s.accessesOf id || s.waitsFor id then s
    else
      match o.kind with
      | .compute => s.finish id o.goodStatus
      | .window todo _ _ =>
        if todo.isEmpty || o.stopped then s.finish id (if 0 < o.replays then 0x30 else 0) else s
      | _ => s

/-- IMPOSE capture 04h (R478): a failure that stopped a running operation. -/
def State.captureStop (s : State) (o : OpRec) (core : Option Nat) (status : Nat)
    (tile : Option (Nat × Nat)) : State :=
  let (r, c) := tile.getD (0xFFFFFFFF, 0xFFFFFFFF)
  s.capture pgImpose 4
    [o.seq, w32 (o.q + o.job * 65536), w32 (core.getD 0x1FFFF + 2 ^ 24 * status), w32 r, w32 c]

/-- The stopping rule (R205): the first failure that the die observes fixes the status; every core computes no
further tile and takes no further slug of the operation, and the slug `cut` of the core, with a refused write, does not
commit. -/
def State.opFail (s : State) (id status : Nat) (core : Option Nat := none)
    (tile : Option (Nat × Nat) := none) (cut : Option (Nat × Nat) := none) : State :=
  match s.op id with
  | none => s
  | some o =>
    let s := (s.mapCores fun k c => c.dropWork id false (if core = some k then cut else none)).dropReads id
    if o.stopped then s.settle id
    else
      let s := s.captureStop o core status tile
      let s := s.modOp id fun p => { p with stopped := true, status := status }
      let s := s.modOp id fun p =>
        match p.kind with
        | .window _ sent acked => { p with kind := .window [] sent acked }
        | _ => p
      match o.kind with
      | .compute | .window _ _ _ => s.settle id
      | _ => s.failWith id status

/-! ## Replay of work in flight (R411 to R415) -/

/-- Had the operation, when interrupted, left something that a replay cannot compute again (R414)? -/
def State.cannotReplay (s : State) (o : OpRec) : Bool :=
  match o.kind with
  | .compute =>
    s.cores.any fun p =>
      (o.desc.accInit && ((p.2.tile.any fun t => t.first && t.op == o.id)
          || (p.2.slugs.any fun g => g.first && g.op == o.id)
          || (p.2.chain.any fun x => x.slug.first && x.slug.op == o.id)
          || (p.2.formes.any fun f => f.first && f.op == o.id)))
        || (o.desc.cAcc && (p.2.formes.any fun f => f.sent && f.op == o.id))
  | .window _ sent _ => !sent.isEmpty
  | _ => false

/-- A replay ends with REPLAY_FAILED (R397 input 6, R401). -/
def State.replayFailed (s : State) : State :=
  { s.incReg 0x4C134 with health := { s.health with replay := s.health.replay + 1 } }

/-- A recovery period is in force (R122): that of R471, or one in which replays run (R411, R416). -/
def State.inRecovery (s : State) : Bool :=
  s.recovery || (match s.replay with
    | .flight _ | .journal _ | .failing _ _ => true
    | .idle | .stopped => false)

def insOp : List Nat → Nat → List Nat := setIns

/-- A fault takes the operation out of its cores; the die replays it in a recovery period (R411), or ends it
with REPLAY_FAILED where there is no journal (R402) or a second replay has failed (R415). -/
def State.interrupt (s : State) (id : Nat) : State :=
  match s.op id with
  | none => s
  | some o =>
    if o.ended then s
    else if o.jindex.isNone || 2 ≤ o.replays then
      let s := s.mapCores fun _ c => c.dropWork id true
      let s := s.dropAccesses id
      (if 0 < o.replays then s.replayFailed else s).failWith id 0x31
    else
      let no := s.cannotReplay o
      let s := s.mapCores fun _ c => c.dropWork id true
      let s := s.dropAccesses id
      let s := s.modOp id fun p =>
        { p with phase := .interrupted, stopped := false, noReplay := p.noReplay || no }
      let s := s.dropStage id
      let s := { s with
        replay := match s.replay with
          | .flight l => .flight (insOp l id)
          | .idle | .stopped => .flight [id]
          | .journal n => .journal n
          | .failing n st => .failing n st }
      match s.replay with
      | .flight _ => s.setRegF 0x4D120 0 2 1
      | _ => s

/-- Handles named by an operation in flight, as cluster × 64 + handle. -/
def State.namedInFlight (s : State) (c h : Nat) : List Nat :=
  (s.ops.filter fun o => !o.ended && setHas o.named (c * 64 + h)).map (·.id)

/-- Is the handle named by a descriptor that has not completed? -/
def State.named (s : State) (c h : Nat) : Bool := s.ops.any fun o => setHas o.named (c * 64 + h)

/-- An uncorrectable error in the data of a handle (R394): it is scrubbed, reported, and every operation in
flight that names it is replayed. -/
def State.handleLost (s : State) (c h : Nat) (place : Word) : State :=
  let ids := s.namedInFlight c h
  let seq := (ids.head?.bind s.op).map (·.seq)
  let s := s.uncorrected 1 place.toNat c seq
  let s := s.scrub c h
  let s := match s.securing with
    | some x =>
      if (SMap.find x.side (c * 64 + h)).isSome then
        { s with securing := some { x with failed := some 0x31 } }
      else s
    | none => s
  ids.foldl (fun t id => t.interrupt id) s

/-- A block reset of a core (R475): the operations on it are stopped for a replay. The watermarks stay. -/
def State.resetCore (s : State) (k : Nat) (id : Option Nat) (fault : Bool) : State :=
  let s := (s.setRegN 0x1104 (4 + 16 * b2n fault + k * 256)).raise pgSteward 4
  let ids := (s.ops.filter fun o => some o.id == id || (s.core k).busyWith o.id).map (·.id)
  let s := ids.foldl (fun t i => t.interrupt i) s
  s.setCore k { Core.idle with marks := (s.core k).marks, work := (s.core k).work }

/-- An uncorrectable error in a core's own stores (R395): the core is block-reset, and the operation that
ran on it is replayed. -/
def State.coreLost (s : State) (k : Nat) (id : Option Nat) : State :=
  let seq := (id.bind s.op).map (·.seq)
  (s.uncorrected 2 0 k seq).resetCore k id true

/-- BOOT.STEP (R460): 1 to 9 the start-up step, 10 in service, 11 shut down. -/
def State.bootStep (s : State) : Nat := s.regF 0x1100 0 4

/-- LADDER.STATE as held: 0 run or idle, 2 still, 3 keep, 4 dark (R364, R381). -/
def State.ladder (s : State) (c : Nat) : Nat := s.regF (clusterBase c + 0x2104) 0 3

/-- Is an island reset of the cluster refused or ignored (R474)? A requested dark that runs comes first (R477). -/
def State.islandResetBarred (s : State) (c : Nat) : Bool :=
  s.ladder c == 4 || (s.island c).darkening || s.shut != .none || s.bootStep != 10

/-- An island reset (R474): the descriptors that hold the cluster are stopped for a replay, accesses of its
cores and compositor that no bank has performed are discarded, and cores and compositor are reset. -/
def State.islandReset (s : State) (c : Nat) (watchdog fault : Bool) : State :=
  if s.islandResetBarred c then s
  else
    let ids := (s.ops.filter fun o => setHas o.holds c).map (·.id)
    let s := ids.foldl (fun t i => t.interrupt i) s
    let keep (l : List BankAcc) : List BankAcc := l.filter fun a => decide (256 < a.lane)
    let s := s.setWaiting c (keep (s.waiting c))
    let s := (List.range 48).foldl
      (fun t b => (t.setParked (bankKey c b) (keep (t.parkedAt (bankKey c b)))).closeCheck c b) s
    let s := s.mapCores fun k x => if k / 256 = c then { Core.idle with marks := x.marks } else x
    let s := { s with stage := s.stage.filter fun p => p.1 != c }
    (s.setRegN 0x1104 (3 + 8 * b2n watchdog + 16 * b2n fault + c * 256)).raise pgSteward 2

/-- An uncorrectable error in a staging area: the operation that holds it is replayed (R395). -/
def State.stagingLost (s : State) (c place : Nat) : State :=
  let seq := (s.ops.find? fun o => setHas o.holds c).map (·.seq)
  (s.uncorrected 1 place c seq).islandReset c false true

/-- Data that only the operation holds and that the hub or the staging area lost (R395, cause 03h or 01h). -/
def State.opDataLost (s : State) (id cause d0 d1 : Nat) : State :=
  let seq := (s.op id).map (·.seq)
  (s.uncorrected cause d0 d1 seq).interrupt id

/-- A queue halts (R344). -/
def State.haltQueue (s : State) (q status : Nat) : State :=
  let Q := s.queue q
  match Q.st with
  | .run =>
    (s.setQueue q { Q with st := .halted, halt := status, held := none, reading := false }).raise
      (pgQueue q) 4
  | _ => s

/-- An uncorrectable error in control state fails the die (R396). -/
def State.controlLost (s : State) : State :=
  let s := s.uncorrected 4 0 0 none
  let s := { s with health := { s.health with failed := true } }
  let s := s.raise pgHealth 16
  let s := s.ops.foldl
    (fun t o =>
      let t := t.mapCores fun _ c => c.dropWork o.id true
      let t := t.dropAccesses o.id
      (t.modOp o.id fun p => { p with stopped := true, status := 0x31 }).finish o.id 0x31) s
  (List.range 16).foldl (fun t q => t.haltQueue q 0x31) s

/-- A word of control state is read under its SEC-DED code, with the injection that the access takes (R393, R396, R479);
the flag tells that it was lost. -/
def State.readControl (s : State) (base place : Nat) : State × Bool :=
  let r := s.injectWord base place .clean
  match r.2 with
  | .clean | .control => (r.1, false)
  | .corrected => (r.1.correctedError, false)
  | .uncorrectable => (r.1.controlLost, true)

end Sys2Proof.Machine
end

