-- ==== Sys2Proof/Machine/Store.lean ====
section
/-!
DEFINITION. The central store at work: accesses at banks, full/empty tags and parking (R214 to R218, R236 to
R239), accumulating writes (R241), window writes and their counters (R244 to R253), bank power (R254 to R258)
and the patrol (R393).
-/

namespace Sys2Proof.Machine

/-! ## Cluster islands -/

/-- The island's clock stands: accesses wait (R380, R381). -/
def State.asleep (s : State) (c : Nat) : Bool := s.ladder c == 2 || s.ladder c == 3

/-! ## Accumulating writes (R241) -/

/-- Sum of a stored and an incoming element: code and flags. -/
def accElem (fmt old new : Nat) : Nat × Nat :=
  if fmt = 9 then convert 9 none (Num.ofInt (twos 32 old + twos 32 new))
  else
    let (v, inv) := (decodeNum fmt old).add (decodeNum fmt new)
    let (c, fl) := convert fmt none v
    (c, if inv then fl ||| fInvalid else fl)

/-- Element-wise over the bytes of an access, `n` bytes to an element. -/
def accBytes (fmt n : Nat) : Nat → List Byte → List Byte → List Byte × Nat
  | 0, _, _ => ([], 0)
  | k + 1, old, new =>
    let (c, f) := accElem fmt (ofLE (old.take n)) (ofLE (new.take n))
    let (t, g) := accBytes fmt n k (old.drop n) (new.drop n)
    (toLE n c ++ t, f ||| g)

/-- The elements of an accumulating access: `lead` and `trail` bytes at its ends are no element of it and stay
(R214, R241). -/
def accRun (fmt lead trail : Nat) (old new : List Byte) : List Byte × Nat :=
  let n := if fmt = 7 then 2 else 4
  let len := new.length - lead - trail
  let (d, f) := accBytes fmt n (len / n) (old.drop lead) (new.drop lead)
  (old.take lead ++ d ++ old.drop (lead + len), f)

/-! ## Captures of the STORE page -/

def BankAcc.source (s : State) (a : BankAcc) : Word × Word :=
  match a.op.bind s.op with
  | some o => (errSource a.lane o.q o.job, o.seq)
  | none => (errSource a.lane 0 0, 0xFFFFFFFF#32)

/-- The capture of an event at an access's place (R261). -/
def State.captureAccess (s : State) (c : Nat) (a : BankAcc) (cause : Nat) : State :=
  let (src, seq) := a.source s
  s.capture (pgStore c) cause [errAddr a.bank.val a.row.val a.byte a.handle, src, seq]

/-! ## Windows -/

def winCountKey (c ctr : Nat) : Nat := clusterBase c + 0x1C00 + 4 * ctr

/-- The handle whose open window is linked to a counter, if any. -/
def State.windowOf (s : State) (c ctr : Nat) : Option Nat :=
  (List.range 64).find? fun h =>
    let e := s.handle c h
    s.windowOpen c h && e.winEn && e.winCtr == ctr

/-- Answer a window write (R247, R286). -/
def State.wack (s : State) (port tag stream srcpos srcpkg status : Nat) : State :=
  s.send { port := port, op := .wack, tag := tag, stream := stream, srcpos := srcpos, srcpkg := srcpkg,
           status := status }

/-- A WAIT_COUNT whose condition is met completes, or begins its ordered close: the port refuses from now on
(R251, R252). -/
def State.beginClose (s : State) (o : OpRec) (timedOut : Bool) : State :=
  match o.kind with
  | .wait cluster counter target timeout close none _ =>
    let count := s.reg (winCountKey cluster counter)
    match close, s.windowOf cluster counter with
    | true, some h =>
      let s := s.modOp o.id fun p =>
        { p with kind := .wait cluster counter target timeout close (some h) timedOut, holds := [cluster] }
      { s with closing := setIns s.closing (cluster * 64 + h) }
    | _, _ =>
      (s.modOp o.id fun p => { p with result := count.toNat }).finish o.id
        (if timedOut then 0x13 else if 0 < o.replays then 0x30 else 0)
  | _ => s

/-- Every waiting WAIT_COUNT whose counter has reached its target goes on. -/
def State.waitCheck (s : State) (c ctr : Nat) : State :=
  s.ops.foldl
    (fun t o =>
      match o.kind, o.phase with
      | .wait cluster counter target _ _ none _, .running
      | .wait cluster counter target _ _ none _, .journaling =>
        if cluster = c ∧ counter = ctr ∧ target.toNat ≤ t.regN (winCountKey c ctr) then t.beginClose o false
        else t
      | _, _ => t) s

/-- One window write of a WINDOW_WRITE leaves through the cluster's home port (R249). -/
def State.sendWindow (s : State) (o : OpRec) (cluster offset : Nat) (data : List Byte) : State :=
  let dest := o.desc.pair 6 % 2 ^ 52
  let p := (o.slivers.findIdx? (·.cluster == cluster)).getD 0
  let addr := dest + offset + 2 ^ 27 * p
  let foreign := decide (fld dest 40 8 ≠ 0xFF)
  let s := s.request
    { port := homePort cluster, op := if bit (o.desc.word 1) 4 then .wwa else .wwr,
      stream := clusterStream cluster, addr := addr, words := 16, fmt := fld (o.desc.word 1) 0 4,
      data := fitBytes 64 data } (.windowWrite o.id cluster offset) foreign
  s.modOp o.id fun q =>
    match q.kind with
    | .window todo sent acked =>
      { q with kind := .window (todo.filter (· ≠ (cluster, offset))) (sent ++ [(cluster, offset)]) acked }
    | _ => q

/-! ## Outcomes of an access -/

/-- The source bytes of the next write of a sending cluster are asked for (R249): from its own handle, through the
compositor's lane, or from package memory through its home port. R216 and R249 name no requester for the read of the
handle; DESIGN CHOICE, log entry 83. -/
def State.windowNext (s : State) (id cluster : Nat) : State :=
  match s.op id with
  | none => s
  | some o =>
    match o.kind, o.entries.head?.map (·.a) with
    | .window todo _ _, some x =>
      match todo.find? (·.1 == cluster), x with
      | some (_, off), .handle h _ =>
        let e := s.handle cluster h
        let (b, r, y) := e.place (s.readSide cluster h (off / 64)) off
        let a : BankAcc :=
          { lane := 256, op := some id, bank := Fin.ofNat 48 b, row := Fin.ofNat 512 r, byte := y, kind := .read,
            len := 64, data := [], fmt := e.fmt, handle := some h, tagMode := e.tagMode, timeout := e.timeout,
            dest := .winSource id off }
        s.setWaiting cluster (s.waiting cluster ++ [a])
      | some (_, off), .record base _ _ _ _ _ =>
        let a := base + off
        let n := min 64 (4096 - a % 4096)
        let p := homePort cluster
        let st := clusterStream cluster
        let s := s.readMem p st a n (.winSource id cluster off)
        if n < 64 then s.readMem p st (a + n) (64 - n) (.winSource id cluster off) else s
      | _, _ => s
    | _, _ => s

/-- A window write leaves with its source bytes, and the next one follows. -/
def State.windowGo (s : State) (id cluster off : Nat) (bytes : List Byte) : State :=
  match s.op id with
  | some o =>
    let due := match o.kind with
      | .window todo _ _ => todo.contains (cluster, off)
      | _ => false
    if o.stopped || !due then s.settle id else (s.sendWindow o cluster off bytes).windowNext id cluster
  | none => s

/-- A read has returned its bytes. -/
def State.deliverRead (s : State) (c : Nat) (a : BankAcc) (bytes : List Byte) : State :=
  match a.dest with
  | .arrived core key =>
    let k := s.core core
    s.setCore core { k with arrived := putBytes k.arrived key bytes }
  | .winSource id off => s.windowGo id c off bytes
  | _ => s

/-- A write has been performed. -/
def State.deliverWrite (s : State) (c : Nat) (a : BankAcc) : State :=
  match a.dest with
  | .slugWrite core entry t =>
    let k := s.core core
    let mine (f : Forme) : Bool := some f.op == a.op && f.sliver.entry == entry && f.t == t
    s.setCore core { k with
      formes := k.formes.map fun f =>
        if mine f then
          { f with waiting := f.waiting - 1, merging := if f.waiting ≤ 1 then [] else f.merging }
        else f }
  | .window port tag stream srcpos srcpkg ctr =>
    let key := winCountKey c ctr
    let s := s.setReg key (incSat (s.reg key))
    (s.wack port tag stream srcpos srcpkg 0).waitCheck c ctr
  | .staging slot =>
    let x := s.stageOf c
    s.setStage c { x with slots := x.slots.map fun y => if y.slot = slot then { y with ready := true } else y }
  | _ => s

/-- An access failed: its writer or reader learns the status (R205, R239, R247, R257). -/
def State.accessFailed (s : State) (_c : Nat) (a : BankAcc) (status : Nat) : State :=
  match a.dest with
  | .window port tag stream srcpos srcpkg _ => s.wack port tag stream srcpos srcpkg status
  | .slugWrite core entry t =>
    let tile := ((s.core core).formes.find? fun f =>
      some f.op == a.op && f.sliver.entry == entry && f.t == t).map fun f => f.sliver.origin f.t
    match a.op with
    | some id => s.opFail id status (some core) tile (some (entry, t))
    | none => s
  | .arrived core key =>
    let k := s.core core
    let merging := (k.formes.find? fun f => !f.writes.isEmpty && some f.op == a.op)
    let tile :=
      if key < useBuf then k.tile.map fun t => t.sliver.origin t.t
      else if key < useMerge then k.current.map fun g => g.sliver.origin g.t
      else merging.map fun f => f.sliver.origin f.t
    let cut := if key < useMerge then none else merging.map fun f => (f.sliver.entry, f.t)
    match a.op with
    | some id => s.opFail id status (some core) tile cut
    | none => s
  | .winSource id _ => s.opFail id status
  | .staging _ =>
    match a.op with
    | some id => s.opFail id status
    | none => s

/-- May the access be performed in its slot's state (R237)? -/
def State.tagAllows (s : State) (c : Nat) (a : BankAcc) : Bool :=
  if a.tagMode = 0 then true
  else
    let f := s.isFull (slotKey c a.bank.val a.row.val)
    match a.kind with
    | .read => f
    | _ => !f

/-- Perform an access at its bank (R214, R237, R241, R419). -/
def State.perform (s : State) (c : Nat) (a : BankAcc) : State :=
  let slot := slotKey c a.bank.val a.row.val
  let job := (a.op.bind s.op).map (·.job)
  let s := s.active c (if a.kind == .acc then evAcc else evSlot) job
  match a.kind with
  | .read =>
    let bytes := s.readStore c a.bank.val a.row.val a.byte a.len
    let s := if a.tagMode = 1 ∧ a.byte + a.len = 64 then s.setFull slot false else s
    s.deliverRead c a bytes
  | k =>
    let s := match a.handle with
      | some h =>
        (match s.securedSide c h, (s.handle c h).slotAt a.bank.val a.row.val with
        | some sd, some (side, t) => if side != sd then s.moveSlot c h t else s
        | _, _ => s)
      | none => s
    let old := s.readStore c a.bank.val a.row.val a.byte a.data.length
    let (d, fl) := match k with
      | .acc => accRun a.fmt a.lead a.trail old a.data
      | _ => (a.data, 0)
    let s := s.writeStore c a.bank.val a.row.val a.byte d
    let s := match a.op, a.handle with
      | some id, some h => s.modOp id fun p => { p with wrote := setIns p.wrote (c * 64 + h) }
      | _, _ => s
    let s := if fl = 0 then s else s.orReg (clusterBase c + 0x1104) fl
    let s := if a.tagMode ≠ 0 ∧ a.byte + a.data.length = 64 then s.setFull slot true else s
    (s.deliverWrite c a).closeCheck c a.bank.val

/-- The access reaches a dark bank, or is dropped there (R256, R257). -/
def State.atDark (s : State) (c : Nat) (a : BankAcc) (dropped : Bool) : State :=
  match a.kind with
  | .read => (s.captureAccess c a 2).accessFailed c a 0x20
  | _ =>
    let s := s.captureAccess c a (if dropped then 3 else 1)
    (s.incReg (clusterBase c + 0x1140)).accessFailed c a 0x20

/-- What the access finds at its bank and on its way there, with the injections that it takes (R393, R479): a word of
the bank, the crossbar transfer, the transfer between the crossbar and the compositor or mesh port, and the mesh. -/
def State.accessEcc (s : State) (c : Nat) (a : BankAcc) (ecc : Ecc) : State × Ecc :=
  let place := a.bank.val * 32768 + a.row.val * 64 + a.byte
  let r := s.injectWord (clusterBase c + 0x1000) place ecc
  let r := r.1.injectPath (clusterBase c + 0x1000) place r.2
  let r := if 256 ≤ a.lane then r.1.injectPath (clusterBase c) a.lane r.2 else r
  if 257 ≤ a.lane then r.1.injectPath 0 place r.2 else r

/-- The bank performs the access, whatever it finds (R393 to R396): data lost under a handle or in the staging area is
not delivered, but a window write is counted all the same. -/
def State.serveAccess (s : State) (c : Nat) (a : BankAcc) (ecc : Ecc) : State :=
  let r := s.accessEcc c a ecc
  match r.2, a.handle with
  | .clean, _ => r.1.perform c a
  | .corrected, _ => r.1.correctedError.perform c a
  | .control, _ => r.1.controlLost
  | .uncorrectable, some h =>
    let t := (r.1.handleLost c h (errAddr a.bank.val a.row.val a.byte (some h))).closeCheck c a.bank.val
    (match a.dest with
    | .window _ _ _ _ _ _ => t.perform c a
    | _ => t)
  | .uncorrectable, none =>
    (r.1.stagingLost c (errAddr a.bank.val a.row.val a.byte none).toNat).closeCheck c a.bank.val

/-- The access meets its bank: performed, parked, or waiting for the bank (R237, R238, R254). -/
def State.meetBank (s : State) (c : Nat) (a : BankAcc) (rest : List BankAcc) (ecc : Ecc) : State :=
  let b := bankKey c a.bank.val
  match s.bank b with
  | .dark => (s.setWaiting c rest).atDark c a false
  | .keep => s.setBank b (.waking false)
  | .waking _ => s
  | .on | .closing _ =>
    let behind := (s.parkedAt b).any fun p => p.lane == a.lane && p.row == a.row
    if s.tagAllows c a && !behind then (s.setWaiting c rest).serveAccess c a ecc
    else if (s.parkedAt b).length < 16 then
      (s.setWaiting c rest).setParked b (s.parkedAt b ++ [a])
    else s

/-- A parked access that may be served: the oldest allowed one, none of whose predecessors from its lane to
its slot is parked (R238). -/
def State.parkedReady (s : State) (c : Nat) : List BankAcc → List BankAcc → Nat → Option (Nat × BankAcc)
  | [], _, _ => none
  | a :: t, seen, i =>
    if s.tagAllows c a && !(seen.any fun p => p.lane == a.lane && p.row == a.row) then some (i, a)
    else State.parkedReady s c t (a :: seen) (i + 1)

/-- The `idx`-th access waiting for a bank, with its place in the cluster's list. -/
def nthFor (bank : Fin 48) : List BankAcc → Nat → Nat → Option (Nat × BankAcc)
  | [], _, _ => none
  | a :: t, i, idx =>
    if a.bank = bank then (match idx with | 0 => some (i, a) | n + 1 => nthFor bank t (i + 1) n)
    else nthFor bank t (i + 1) idx

/-- BANK_ACCESS (R214, R217, R218): the chosen access among those waiting meets its bank. A parked access
that a tag allows goes first, and an access behind another of its lane waits. -/
def State.bankAccess (s : State) (c : Nat) (bank : Fin 48) (idx : Nat) (ecc : Ecc) : State :=
  let b := bankKey c bank.val
  let wait := s.waiting c
  match nthFor bank wait 0 idx with
  | none => s
  | some (i, a) =>
    if s.asleep c || (s.parkedReady c (s.parkedAt b) [] 0).isSome
        || ((wait.take i).any fun p => p.bank == bank && p.lane == a.lane) then s
    else s.meetBank c a (dropAt wait i) ecc

/-- PARKED_ACCESS_SERVE (R238): a ready access is served; it wakes a bank in keep, as any access does, and meets a dark
one as any access does (R254, R257). -/
def State.serveParked (s : State) (c : Nat) (bank : Fin 48) : State :=
  let b := bankKey c bank.val
  match s.parkedReady c (s.parkedAt b) [] 0 with
  | some (i, a) =>
    if s.asleep c then s
    else
      (match s.bank b with
      | .on | .closing _ => (s.setParked b (dropAt (s.parkedAt b) i)).serveAccess c a .clean
      | .keep => s.setBank b (.waking false)
      | .dark => (s.setParked b (dropAt (s.parkedAt b) i)).atDark c a false
      | .waking _ => s)
  | none => s

/-- TAG_TIMEOUT (R239): a parked access has waited its TIMEOUT. -/
def State.tagTimeout (s : State) (c : Nat) (bank : Fin 48) (idx : Nat) : State :=
  let b := bankKey c bank.val
  match (s.parkedAt b)[idx]? with
  | some a =>
    if a.timeout = 0 then s
    else
      let s := s.setParked b (dropAt (s.parkedAt b) idx)
      let s := (s.captureAccess c a 4).incReg (clusterBase c + 0x1144)
      (s.accessFailed c a 0x13).closeCheck c bank.val
  | none => s

/-! ## Bank power -/

/-- The steward reads a slot of a bank (R393): an error in the data of a handle, in the staging area, or elsewhere. -/
def State.scrubRead (s : State) (c : Nat) (bank : Fin 48) (row : Fin 512) (ecc : Ecc) : State :=
  let r := s.injectWord (clusterBase c + 0x1000) (bank.val * 32768 + row.val * 64) ecc
  match r.2 with
  | .clean => r.1
  | .corrected => r.1.correctedError
  | .control => r.1.controlLost
  | .uncorrectable =>
    match (List.range 64).find? fun h => ((r.1.handle c h).slotAt bank.val row.val).isSome with
    | some h => r.1.handleLost c h (errAddr bank.val row.val 0 (some h))
    | none =>
      let place := (errAddr bank.val row.val 0 none).toNat
      if r.1.inStaging c bank.val then r.1.stagingLost c place else r.1.uncorrected 1 place c none

/-- BANK_WAKE_DONE (R254): a waking bank is on, or, when it left dark and keep is wanted, in keep. A bank that left
dark holds zeros with every tag empty; one that wakes from keep is read (R393), with what the read finds in a row. -/
def State.wakeDone (s : State) (c : Nat) (bank : Fin 48) (row : Fin 512) (ecc : Ecc) : State :=
  let b := bankKey c bank.val
  match s.bank b with
  | .waking fromDark =>
    let want := s.wanted c bank.val
    let s := if fromDark then s.wipeBank c bank.val else s
    if want = 2 then (s.setBank b (.closing true)).closeCheck c bank.val
    else if fromDark then s.setBank b (if want = 1 then .keep else .on)
    else (s.setBank b .on).scrubRead c bank row ecc
  | _ => s

/-- BANK_KEEP_RETURN (R254): KEEP_IDLE without an access while keep is still requested. -/
def State.keepReturn (s : State) (c : Nat) (bank : Fin 48) : State :=
  let b := bankKey c bank.val
  if s.bank b == .on && s.wanted c bank.val == 1 && s.outstanding c bank.val == 0
      && !((s.waiting c).any fun a => a.bank == bank) then s.setBank b .keep
  else s

/-- Drop every counted write of a bank that enters dark at its close timeout (R256 step 3). -/
def State.dropWrites (s : State) (c : Nat) (bank : Fin 48) : State :=
  let b := bankKey c bank.val
  let mine (a : BankAcc) : Bool := a.bank == bank && a.kind != .read
  let gone := ((s.waiting c).filter mine) ++ ((s.parkedAt b).filter mine)
  let s := s.setWaiting c ((s.waiting c).filter fun a => !mine a)
  let s := s.setParked b ((s.parkedAt b).filter fun a => !mine a)
  gone.foldl (fun t a => t.atDark c a true) s

/-- CLOSE_TIMEOUT (R256 step 3): the bank enters its target state with writes outstanding. -/
def State.closeTimeout (s : State) (c : Nat) (bank : Fin 48) : State :=
  match s.bank (bankKey c bank.val) with
  | .closing true => (s.bankDark c bank.val).dropWrites c bank
  | .closing false => s.setBank (bankKey c bank.val) .keep
  | _ => s

/-- PATROL_SCRUB (R393): the steward reads a slot of a bank that is on and serves no access. -/
def State.patrol (s : State) (c : Nat) (bank : Fin 48) (row : Fin 512) (ecc : Ecc) : State :=
  if s.bank (bankKey c bank.val) != .on || s.asleep c || (s.waiting c).any (fun a => a.bank == bank) then s
  else (s.readControl 0x1000 (bankKey c bank.val)).1.scrubRead c bank row ecc

/-! ## Window writes that arrive (R246) -/

/-- Header words of a window write (R282), for captures. -/
def winWords (w : WinWrite) (acc : Bool) : List Word :=
  let a := w.offset.toNat + 2 ^ 36 * w.addrHi.toNat
  [ w32 ((if acc then 9 else 8) + 0x100 + 2 ^ 16 * w.tag.toNat + 2 ^ 28 * w.stream.toNat),
    w32 a, w32 (a / 2 ^ 32 + 2 ^ 20 * 15),
    w32 (w.fmt.toNat + 2 ^ 16 * w.srcpos.toNat + 2 ^ 24 * w.srcpkg.toNat), 0 ]

/-- Is the handle the concord window of a group that is FORMING or FENCING (R430)? -/
def State.concordWindow (s : State) (c h : Nat) : Bool :=
  s.groups.any fun p =>
    (p.2.st == .forming || p.2.st == .fencing)
      && fld p.2.conc.toNat 0 9 == c && fld p.2.conc.toNat 16 6 == h

/-- Refuse a window write at the port (R246, R261). -/
def State.refuseWindow (s : State) (w : WinWrite) (c h o cause status : Nat) : State :=
  let e := s.handle c h
  let p := if e.count = 0 then (0, 0, 0) else e.place e.cur o
  let s := s.capture (pgStore c) cause
    [errAddr p.1 p.2.1 p.2.2 (some h), errSource 257 0 0, 0xFFFFFFFF#32]
  (s.incReg (clusterBase c + 0x1148)).wack w.port.val w.tag.toNat w.stream.toNat w.srcpos.toNat
    w.srcpkg.toNat status

/-- WWR and WWA from the hub: the port's checks, then an access of the mesh port (R246, R247, R293). Which of its six
lanes takes it the spec leaves open, and with it the order of two writes (R216, R218): a free value; log entry 82. -/
def State.windowArrive (s : State) (w : WinWrite) (acc : Bool) : State :=
  if s.mute then s
  else
    let x := w.offset.toNat
    let c := x / 2 ^ 27
    let h := fld x 21 6
    let o := fld x 0 21 / 64 * 64
    if 320 ≤ c ∨ homePort c ≠ w.port.val then
      (s.capture (pgPort w.port.val) 2 (winWords w acc)).wack w.port.val w.tag.toNat w.stream.toNat
        w.srcpos.toNat w.srcpkg.toNat 0x10
    else
      let e := s.handle c h
      if s.admitSt = 3 then s.refuseWindow w c h o 7 0x11
      else if !s.windowOpen c h || setHas s.closing (c * 64 + h) then s.refuseWindow w c h o 5 0x21
      else if e.extent < o + 64 then s.refuseWindow w c h o 6 0x10
      else if w.fmt.toNat ≠ e.fmt ∨ (acc ∧ (e.fmt < 7 ∨ 9 < e.fmt ∨ e.tagMode ≠ 0)) then
        s.refuseWindow w c h o 6 0x12
      else
        let d := fitBytes 64 w.data
        let d := if s.concordWindow c h then d.take 60 ++ toLE 4 (s.time.now % 2 ^ 32) else d
        let (b, r, y) := e.place (s.writeSide c h none) o
        let (w6, s) := s.freshWord
        let a : BankAcc :=
          { lane := 257 + w6.toNat % 6, op := none, bank := Fin.ofNat 48 b, row := Fin.ofNat 512 r, byte := y,
            kind := if acc then .acc else .write, len := 64, data := d, fmt := e.fmt, handle := some h,
            tagMode := e.tagMode, timeout := e.timeout,
            dest := .window w.port.val w.tag.toNat w.stream.toNat w.srcpos.toNat w.srcpkg.toNat e.winCtr }
        s.setWaiting c (s.waiting c ++ [a])

/-- Accepted window writes of a handle that have not been counted, timed out or dropped. -/
def State.windowBusy (s : State) (c h : Nat) : Bool :=
  let f (a : BankAcc) : Bool :=
    a.handle == some h && (match a.dest with | .window _ _ _ _ _ _ => true | _ => false)
  (s.waiting c).any f || (List.range 48).any fun b => (s.parkedAt (bankKey c b)).any f

/-- WINDOW_CLOSE_COMPLETE (R252 steps 2 and 3, R260): the close of a handle's window ends. -/
def State.closeComplete (s : State) (c h : Nat) : State :=
  if !setHas s.closing (c * 64 + h) || s.windowBusy c h then s
  else
    let ctr := (s.handle c h).winCtr
    let count := s.reg (winCountKey c ctr)
    let s := (s.setWindow c h false).bumpGen c h
    let s := { s with closing := setDel s.closing (c * 64 + h) }
    let s := match SMap.find s.endedOwners (c * 64 + h) with
      | some dark => s.releaseHandle c h dark
      | none => s
    s.ops.foldl
      (fun t o =>
        match o.kind, o.phase with
        | .wait cl cn target _ _ closing timedOut, .running
        | .wait cl cn target _ _ closing timedOut, .journaling =>
          if cl = c ∧ cn = ctr then
            let ok := if 0 < o.replays then 0x30 else 0
            let st :=
              if closing = some h then (if timedOut then 0x13 else ok)
              else if target.toNat ≤ count.toNat then ok else 0x21
            (t.modOp o.id fun p => { p with result := count.toNat }).finish o.id st
          else t
        | _, _ => t) s

/-- WAIT_COUNT_TIMEOUT (R251): the timeout expires before the condition is met. -/
def State.waitTimeout (s : State) (id : Nat) : State :=
  match s.op id with
  | some o =>
    match o.kind, o.phase with
    | .wait _ _ _ timeout _ none _, .running | .wait _ _ _ timeout _ none _, .journaling =>
      if timeout = 0 then s else s.beginClose o true
    | _, _ => s
  | none => s

/-- Opening of one window (R245): scrub, counter to zero, owner NONE, then the bit. -/
def State.openWindow (s : State) (c h : Nat) : State :=
  if s.windowOpen c h then s
  else
    let e := s.handle c h
    if !e.winEn || e.count = 0 || e.power ≠ 0 || s.named c h then
      (s.capture (pgStore c) 9 [w32 (h * 2097152 + 134217728)]).noteRefusal (pgStore c)
    else
      let s := (s.scrub c h).setReg (winCountKey c e.winCtr) 0
      (s.clearOwner c h).setWindow c h true

/-- Does opening the window stand refused? -/
def State.openRefused (s : State) (c h : Nat) : Bool :=
  let e := s.handle c h
  !s.windowOpen c h && (!e.winEn || e.count == 0 || e.power != 0 || s.named c h)

/-- A write of WIN_OPEN0 or WIN_OPEN1: every 1 asks to open its handle's window (R245). -/
def State.openWindows (s : State) (c word : Nat) (v : Nat) : State × Nat :=
  let hs := (List.range 32).filterMap fun i => if bit v i then some (32 * word + i) else none
  let refused := hs.any (s.openRefused c)
  (hs.foldl (fun t h => t.openWindow c h) s, if refused then 0x11 else 0)

/-! ## The meanings of the commands -/

/-- The outcome type of every meaning. -/
abbrev Outcome := Host.Outcome State Fault Refusal

def execBankAccess (cluster : Fin 320) (bank : Fin 48) (idx : Nat) (ecc : Ecc) (s : State) : Outcome :=
  .next (s.bankAccess cluster.val bank idx ecc)

def execParkedAccessServe (cluster : Fin 320) (bank : Fin 48) (s : State) : Outcome :=
  .next (s.serveParked cluster.val bank)

def execTagTimeout (cluster : Fin 320) (bank : Fin 48) (idx : Nat) (s : State) : Outcome :=
  .next (s.tagTimeout cluster.val bank idx)

def execBankWakeDone (cluster : Fin 320) (row : BankRow) (s : State) : Outcome :=
  .next (s.wakeDone cluster.val row.bank row.row row.ecc)

def execBankKeepReturn (cluster : Fin 320) (bank : Fin 48) (s : State) : Outcome :=
  .next (s.keepReturn cluster.val bank)

def execCloseTimeout (cluster : Fin 320) (bank : Fin 48) (s : State) : Outcome :=
  .next (s.closeTimeout cluster.val bank)

def execPatrolScrub (cluster : Fin 320) (bank : Fin 48) (row : Fin 512) (ecc : Ecc) (s : State) : Outcome :=
  .next (s.patrol cluster.val bank row ecc)

def execWindowCloseComplete (cluster : Fin 320) (handle : Fin 64) (s : State) : Outcome :=
  .next (s.closeComplete cluster.val handle.val)

def execWaitCountTimeout (op : Nat) (s : State) : Outcome := .next (s.waitTimeout op)

def execWwr (w : WinWrite) (s : State) : Outcome := .next (s.windowArrive w false)

def execWwa (w : WinWrite) (s : State) : Outcome := .next (s.windowArrive w true)

end Sys2Proof.Machine
end

