-- ==== Sys2Proof/Machine/Feeder.lean ====
section
/-!
DEFINITION. Operands on their way to a core: where an element and its scale byte lie (R69, R141, R147, R229), the slots
that the compositor stages (R162, R163, R221), the accesses that the feeder engine makes (R215, R222), and the feeder
store with the exponents derived from what enters it (R104, R105, R170, R224).
-/

namespace Sys2Proof.Machine

/-! ## The elements that a tile reads -/

/-- Planes of a MOVE run along the axis that `out_block_axis` names (R153); those of ELEMENTWISE along N (R210). -/
def OpRec.alongM (o : OpRec) : Bool := o.opcode == opMove && o.desc.outAxis

/-- First row and column of an operand's own coordinates: those of the band for a local handle (R138). -/
def Operand.bandAt (x : Operand) (v : Sliver) : Nat × Nat :=
  match x with
  | .handle _ true => (v.row0, v.col0)
  | _ => (0, 0)

/-- Rows and columns of the shape that an operand stores (R138). -/
def Operand.shape (x : Operand) (e : Entry) (v : Sliver) : Nat × Nat :=
  match x with
  | .handle _ true => (v.rows, v.cols)
  | _ => (e.m, e.n)

/-- What one side of an operation reads: an operand of an entry for the tiles of a sliver. A line is a row of A or a
column of B; for an operand in the output's orientation, a row, or a column where planes run along M. -/
structure Side where
  op    : OpRec
  entry : Entry
  v     : Sliver
  sideB : Bool

def Side.operand (d : Side) : Operand := if d.sideB then d.entry.b else d.entry.a
def Side.format (d : Side) : Nat := if d.sideB then d.op.desc.bFmt else d.op.desc.aFmt
def Side.width (d : Side) (scale : Bool) : Nat := if scale then 8 else fmtWidth d.format

/-- Are the lines columns of the output? -/
def Side.columns (d : Side) : Bool := if d.op.desc.isProduct then d.sideB else d.op.alongM

/-- First line of the sliver, and its lines (R157). -/
def Side.band (d : Side) : Nat × Nat := if d.columns then (d.v.col0, d.v.cols) else (d.v.row0, d.v.rows)

/-- First line of a tile, and those that are not masked (R165, R172). -/
def Side.span (d : Side) (t : Nat) : Nat × Nat :=
  let o := d.v.origin t
  let n := d.v.extent t
  if d.columns then (o.2, n.2) else (o.1, n.1)

/-- First index that a tile reads of a line, and how many: all reduction indices, or the tile's elements along the line
in the operand's own coordinates. -/
def Side.indices (d : Side) (t : Nat) : Nat × Nat :=
  if d.op.desc.isProduct then (0, d.entry.k)
  else
    let o := d.v.origin t
    let n := d.v.extent t
    let b := d.operand.bandAt d.v
    if d.columns then (o.1 - b.1, n.1) else (o.2 - b.2, n.2)

/-- First index that the sliver reads of a line, and how many. -/
def Side.reach (d : Side) : Nat × Nat :=
  if d.op.desc.isProduct then (0, d.entry.k)
  else
    let b := d.operand.bandAt d.v
    if d.columns then (d.v.row0 - b.1, d.v.rows) else (d.v.col0 - b.2, d.v.cols)

/-- A line in the operand's own coordinates (R138). -/
def Side.rel (d : Side) (line : Nat) : Nat :=
  let b := d.operand.bandAt d.v
  line - (if d.columns then b.2 else b.1)

/-- The pixel and channel of an element of the unrolled input; `none` in the halo (R147). -/
def Side.pixel (d : Side) (line idx : Nat) : Option (Nat × Nat) :=
  d.op.desc.conv.pixel d.op.dimH d.op.dimW d.op.dimC line idx

def Side.isConv (d : Side) : Bool := d.op.opcode == opConv && !d.sideB

/-- Place of an element: address or handle offset, bit and bytes; `none` in the halo (R141, R147, R148). -/
def Side.place (s : State) (d : Side) (line idx : Nat) : Option (Nat × Nat × Nat) :=
  let x := d.operand
  let w := fmtWidth d.format
  let pitch := x.pitch s d.v.cluster
  if d.isConv then (d.pixel line idx).map fun p => elemPlace x.base pitch w p.1 p.2
  else
    let r := d.rel line
    let rowwise := if d.op.desc.isProduct then (if d.sideB then d.op.desc.transB else !d.op.desc.transA) else !d.columns
    some (if rowwise then elemPlace x.base pitch w r idx else elemPlace x.base pitch w idx r)

/-- Does the operand carry a scale plane (R68)? -/
def Side.hasScale (s : State) (d : Side) : Bool := d.operand.hasPlane s d.v.cluster

/-- Place of a line's scale byte of a block (R69, R148); `none` where every element of a CONV block is halo. -/
def Side.scalePlace (s : State) (d : Side) (line blk : Nat) : Option Nat :=
  let x := d.operand
  let base := x.planeBase s d.v.cluster
  if d.isConv then
    (d.pixel line (32 * blk)).map fun p => base + p.1 * (4 * ceilDiv (d.op.dimC / 32) 4) + p.2 / 32
  else
    let all := if d.op.desc.isProduct then d.entry.k
      else let sh := x.shape d.entry d.v; if d.columns then sh.1 else sh.2
    some (base + d.rel line * planePitch all + blk)

/-- Place of an element, or of a scale byte, as bytes and a bit. -/
def Side.at (s : State) (d : Side) (scale : Bool) (line idx : Nat) : Option (Nat × Nat × Nat) :=
  if scale then (d.scalePlace s line idx).map fun a => (a, 0, 1) else d.place s line idx

/-- Elements, or scale blocks, of `n` indices from `i`. -/
def blocksOf (scale : Bool) (i n : Nat) : Nat × Nat :=
  if scale then (i / 32, if n = 0 then 0 else (i + n - 1) / 32 + 1 - i / 32) else (i, n)

/-! ## Accesses -/

/-- Some lines, each with some indices or scale blocks. -/
structure Rect where
  line0 : Nat
  lines : Nat
  k0    : Nat
  count : Nat
  deriving DecidableEq, Repr

/-- Its (line, index) pairs, line after line. -/
def Rect.cells (r : Rect) : List (Nat × Nat) :=
  (List.range r.lines).flatMap fun i => (List.range r.count).map fun j => (r.line0 + i, r.k0 + j)

def Rect.meet (r : Rect) (l n k m : Nat) : Rect :=
  let l0 := max r.line0 l
  let k0 := max r.k0 k
  { line0 := l0, lines := min (r.line0 + r.lines) (l + n) - l0, k0 := k0, count := min (r.k0 + r.count) (k + m) - k0 }

/-- Indices per line in a staging slot of eight lines: as many as fill 64 bytes (R221). -/
def slotIndices (width : Nat) : Nat := 64 / width

/-- The staging slot that holds an element: eight lines of the sliver, over as many indices as fill it (R221). -/
def Side.slotRect (d : Side) (scale : Bool) (line idx : Nat) : Rect :=
  let (b, n) := d.band
  let (j0, m) := blocksOf scale d.reach.1 d.reach.2
  let w := slotIndices (d.width scale)
  ({ line0 := b + (line - b) / 8 * 8, lines := 8, k0 := idx / w * w, count := w } : Rect).meet b n j0 m

/-- Number of leading values that satisfy a test. -/
def runLength (p : Nat → Bool) : Nat → Nat → Nat
  | 0, _ => 0
  | n + 1, i => if p i then 1 + runLength p n (i + 1) else 0

/-- The elements that one access to a handle brings: those of the tile around the element asked for, along the line or
else across the lines, that begin in its slot (R221). -/
def Side.handleRect (s : State) (d : Side) (t : Nat) (scale : Bool) (line idx : Nat) : Rect :=
  match d.at s scale line idx with
  | none => ⟨line, 1, idx, 1⟩
  | some (a, _, _) =>
    let same (l i : Nat) : Bool := match d.at s scale l i with
      | some (b, _, _) => b / 64 == a / 64
      | none => false
    let (l0, ln) := d.span t
    let (j0, jn) := blocksOf scale (d.indices t).1 (d.indices t).2
    let fwd := runLength (fun i => same line i) (min 512 (j0 + jn - idx)) idx
    let back := runLength (fun n => same line (idx - 1 - n)) (min 512 (idx - j0)) 0
    if scale then ⟨line, 1, idx, 1⟩
    else if 1 < fwd + back then ⟨line, 1, idx - back, back + fwd⟩
    else
      let lf := runLength (fun i => same i idx) (min 64 (l0 + ln - line)) line
      let lb := runLength (fun n => same (line - 1 - n) idx) (min 64 (line - l0)) 0
      ⟨line - lb, lb + lf, idx, 1⟩

/-- What one fetch for a tile brings: of a staged operand the tile's part of a slot, and of scales one block of each
line. -/
def Side.fetchRect (s : State) (d : Side) (t : Nat) (scale : Bool) (line idx : Nat) : Rect :=
  match d.operand with
  | .record _ _ _ _ _ _ =>
    let (l0, ln) := d.span t
    let (j0, jn) := blocksOf scale (d.indices t).1 (d.indices t).2
    let r := (d.slotRect scale line idx).meet l0 ln j0 jn
    if scale then { r with k0 := idx, count := 1 } else r
  | _ => d.handleRect s t scale line idx

/-- Byte addresses of a rectangle, ascending. -/
def Side.bytesOf (s : State) (d : Side) (scale : Bool) (r : Rect) : List Nat :=
  (r.cells.flatMap fun c => match d.at s scale c.1 c.2 with
    | some (a, _, n) => (List.range n).map (a + ·)
    | none => []).foldl (fun l a => setIns l a) []

/-- Word runs, each within one 64-byte part, that cover ascending byte addresses: first word and count. -/
def wordRuns : List Nat → List (Nat × Nat)
  | [] => []
  | a :: t =>
    let w := a / 4
    match wordRuns t with
    | (x, n) :: r =>
      if x = w then (x, n) :: r
      else if x = w + 1 ∧ x / 16 = w / 16 then (w, n + 1) :: r
      else (w, 1) :: (x, n) :: r
    | [] => [(w, 1)]

/-- Codes packed in their stored format, the first in the low bits (R11). -/
def packCodes (width : Nat) (codes : List Nat) : List Byte :=
  toLE (ceilDiv (codes.length * width) 8) (codes.foldr (fun c n => n * 2 ^ width + c % 2 ^ width) 0)

/-! ## Arrival buffer of a core -/

/-- Key of a handle's byte in a core's arrival buffer, for the use that starts at `u`; "handle" 64 is the staging area,
addressed by slot × 64 + byte. -/
def arrivedKey (u h off : Nat) : Nat := u + 2 ^ 21 * h + off

def stagingUse : Nat := 64

def State.arrivedByte (s : State) (core u h off : Nat) : Option Byte :=
  SMap.find (s.core core).arrived (arrivedKey u h off)

/-- The accesses of a cluster that wait in its crossbar or are parked. -/
def State.pendingAccesses (s : State) (c : Nat) : List BankAcc :=
  s.waiting c ++ (List.range 48).flatMap fun b => s.parkedAt (bankKey c b)

/-- Reads of a core in flight (R222). -/
def State.readsInFlight (s : State) (core : Nat) : Nat :=
  ((s.pendingAccesses (core / 256)).filter fun a =>
    match a.dest with
    | .arrived k _ => k == core
    | _ => false).length

/-- Is a read of the core in flight that will bring the byte? -/
def State.arriving (s : State) (core key : Nat) : Bool :=
  (s.pendingAccesses (core / 256)).any fun a =>
    match a.dest with
    | .arrived k x => k == core && decide (x ≤ key) && decide (key < x + a.len)
    | _ => false

/-- Issue the crossbar read of a word run of a handle (R215, R222, R237). A merge (R173) reads the side that its write
goes to. -/
def State.issueRead (s : State) (o : OpRec) (core u h : Nat) (run : Nat × Nat) : State :=
  let c := core / 256
  let e := s.handle c h
  let off := 4 * run.1
  let side :=
    if u = useMerge && s.securedSide c h == some (s.writeSide c h (some o.id)) then s.writeSide c h (some o.id)
    else s.readSide c h (off / 64)
  let (b, r, y) := e.place side off
  let a : BankAcc :=
    { lane := core % 256, op := some o.id, bank := Fin.ofNat 48 b, row := Fin.ofNat 512 r, byte := y,
      kind := .read, len := 4 * run.2, data := [], fmt := e.fmt, handle := some h, tagMode := e.tagMode,
      timeout := e.timeout, dest := .arrived core (arrivedKey u h off) }
  s.setWaiting c (s.waiting c ++ [a])

/-- Bank and row of a slot of the staging area (R162, R221). -/
def State.slotPlace (s : State) (c slot : Nat) : Nat × Nat :=
  let (b, n) := s.staging c
  (b + slot % n, slot / n)

/-- Issue the crossbar read of a word run of a staging slot. -/
def State.readStaged (s : State) (o : OpRec) (core u slot : Nat) (run : Nat × Nat) : State :=
  let c := core / 256
  let p := s.slotPlace c slot
  let off := 4 * run.1
  let a : BankAcc :=
    { lane := core % 256, op := some o.id, bank := Fin.ofNat 48 p.1, row := Fin.ofNat 512 p.2, byte := off % 64,
      kind := .read, len := 4 * run.2, data := [], fmt := 0, handle := none, tagMode := 0, timeout := 0,
      dest := .arrived core (arrivedKey u stagingUse off) }
  s.setWaiting c (s.waiting c ++ [a])

/-- Issue the reads of missing bytes, up to 8 of the core in flight (R222). -/
def State.askFor (s : State) (core : Nat) (key : Nat → Nat) (issue : State → Nat × Nat → State) (missing : List Nat) :
    State :=
  (wordRuns (missing.filter fun a => !s.arriving core (key a))).foldl
    (fun t r => if t.readsInFlight core < 8 then issue t r else t) s

/-- The bytes of a handle that a merge or a tile buffer needs and that are missing are asked for. -/
def State.fetchHandle (s : State) (o : OpRec) (core u h : Nat) (missing : List Nat) : State :=
  s.askFor core (arrivedKey u h) (fun t r => t.issueRead o core u h r) missing

/-! ## The compositor's staging (R162, R163, R221) -/

/-- Slots that the sliver's part of an operand fills. -/
def Side.slots (s : State) (d : Side) : Nat :=
  match d.operand with
  | .record _ _ _ _ _ _ =>
    let (j, m) := d.reach
    let groups := ceilDiv d.band.2 8
    let w := slotIndices (fmtWidth d.format)
    groups * (if m = 0 then 0 else (j + m - 1) / w + 1 - j / w)
      + (if d.hasScale s then groups * ceilDiv (blocksOf true j m).2 8 else 0)
  | _ => 0

def State.stageCapacity (s : State) (c : Nat) : Nat := (s.staging c).2 * 512

/-- The bands do not fit in the staging area: the cluster fetches in rounds (R163). -/
def State.streamed (s : State) (d : Side) : Bool :=
  decide (s.stageCapacity d.v.cluster
    < ({ d with sideB := false } : Side).slots s + ({ d with sideB := true } : Side).slots s)

/-- The slot of the staging area that holds a rectangle of the round. -/
def State.findSlot (s : State) (d : Side) (scale : Bool) (r : Rect) (round : Nat) : Option StageSlot :=
  (s.stageOf d.v.cluster).slots.find? fun y =>
    y.op == d.op.id && y.entry == d.entry.index && y.sideB == d.sideB && y.scale == scale && y.group == r.line0
      && y.k0 == r.k0 && y.round == round

/-- A staged byte of package memory that awaits its slot. -/
def State.stagedByte (s : State) (c id a : Nat) : Option Byte := SMap.find (s.stageOf c).bytes (stageKey id a)

/-- Is a staging read outstanding that will bring the byte? -/
def State.staging? (s : State) (id c a : Nat) : Bool :=
  s.outst.any fun x =>
    x.purpose == .stage id c && decide (x.addr ≤ a) && decide (a < x.addr + 4 * x.words)

/-- The slot that the next staging write takes: the next free one of the ring, else the oldest in use (log entry 85). -/
def State.nextSlot (s : State) (c : Nat) : Nat :=
  let x := s.stageOf c
  let used := x.slots.foldl (fun l y => setIns l y.slot) []
  let a := freeTag used used.length x.next
  let b := freeTag used used.length 0
  if a < s.stageCapacity c then a
  else if b < s.stageCapacity c then b
  else (x.slots.head?.map (·.slot)).getD 0

/-- The staging write of a slot (R216, R221): its elements packed line after line. It waits while an access to the slot
is outstanding. -/
def State.writeSlot (s : State) (d : Side) (scale : Bool) (r : Rect) (round : Nat) : State :=
  let c := d.v.cluster
  let n := s.nextSlot c
  let p := s.slotPlace c n
  if s.stageCapacity c = 0
      || (s.pendingAccesses c).any fun a => a.handle == none && a.bank.val == p.1 && a.row.val == p.2 then s
  else
    let code (x : Nat × Nat) : Nat := match d.at s scale x.1 x.2 with
      | some (a, bit, k) =>
        codeOf ((List.range k).map fun i => (s.stagedByte c d.op.id (a + i)).getD 0) bit (d.width scale)
      | none => 0
    let bytes := packCodes (d.width scale) (r.cells.map code)
    let x := s.stageOf c
    let slot : StageSlot :=
      { op := d.op.id, entry := d.entry.index, sideB := d.sideB, scale := scale, group := r.line0, k0 := r.k0,
        round := round, slot := n, ready := false }
    let used := d.bytesOf s scale r
    let s := s.setStage c
      { bytes := x.bytes.keep fun k => !(used.any fun a => stageKey d.op.id a == k)
        slots := x.slots.filter (·.slot != n) ++ [slot]
        next := (n + 1) % s.stageCapacity c }
    let stale (k : Nat) : Bool :=
      let off := k % useBuf
      decide (k < useMerge) && decide (arrivedKey 0 stagingUse (64 * n) ≤ off)
        && decide (off < arrivedKey 0 stagingUse (64 * n + 64))
    let s := s.mapCores fun k y => if k / 256 = c then { y with arrived := y.arrived.keep fun a => !stale a } else y
    let a : BankAcc :=
      { lane := 256, op := some d.op.id, bank := Fin.ofNat 48 p.1, row := Fin.ofNat 512 p.2, byte := 0, kind := .write,
        len := 0, data := fitBytes (4 * ceilDiv bytes.length 4) bytes, fmt := 0, handle := none, tagMode := 0,
        timeout := 0, dest := .staging n }
    s.setWaiting c (s.waiting c ++ [a])

/-- The compositor brings a slot: its missing bytes are read through the home port; all at hand, it is written (R163). -/
def State.stageSlot (s : State) (d : Side) (scale : Bool) (r : Rect) (round : Nat) : State :=
  let c := d.v.cluster
  let missing := (d.bytesOf s scale r).filter fun a => (s.stagedByte c d.op.id a).isNone
  if missing.isEmpty then s.writeSlot d scale r round
  else
    (wordRuns (missing.filter fun a => !s.staging? d.op.id c a)).foldl
      (fun t x => t.readMem (homePort c) (clusterStream c) (4 * x.1) (4 * x.2) (.stage d.op.id c)) s

/-! ## One fetch -/

/-- The bytes of a fetch as the core addresses them, those in a staging slot by slot × 64 + byte; `none` while the slot
does not stand in the staging area. -/
def State.fetchBytes (s : State) (d : Side) (scale : Bool) (r : Rect) (line idx round : Nat) : Option (Nat × List Nat) :=
  match d.operand with
  | .record _ _ _ _ _ _ =>
    let q := d.slotRect scale line idx
    (s.findSlot d scale q round).bind fun y =>
      if y.ready then
        let w := d.width scale
        let lo := (r.line0 - q.line0) * q.count * w / 8
        let hi := ceilDiv ((r.line0 + r.lines - q.line0) * q.count * w) 8
        some (stagingUse, (List.range (hi - lo)).map fun i => 64 * y.slot + lo + i)
      else none
  | .handle h _ => some (h, d.bytesOf s scale r)
  | _ => some (0, [])

/-- The code of an element, or the scale byte, among bytes at hand. -/
def State.fetchCode (s : State) (d : Side) (scale : Bool) (core u round line idx : Nat) : Nat :=
  let w := d.width scale
  match d.operand with
  | .record _ _ _ _ _ _ =>
    let q := d.slotRect scale line idx
    match s.findSlot d scale q round with
    | some y =>
      let bit := ((line - q.line0) * q.count + (idx - q.k0)) * w
      codeOf ((List.range 5).map fun i => (s.arrivedByte core u stagingUse (64 * y.slot + bit / 8 + i)).getD 0)
        (bit % 8) w
    | none => 0
  | .handle h _ =>
    match d.at s scale line idx with
    | some (a, bit, n) => codeOf ((List.range n).map fun i => (s.arrivedByte core u h (a + i)).getD 0) bit w
    | none => 0
  | _ => 0

/-- The codes of a fetch once its bytes are at hand. -/
def State.fetched (s : State) (d : Side) (scale : Bool) (core u : Nat) (r : Rect) (line idx round : Nat) :
    Option (List Nat) :=
  (s.fetchBytes d scale r line idx round).bind fun b =>
    if b.2.all fun a => (s.arrivedByte core u b.1 a).isSome then
      some (r.cells.map fun c => s.fetchCode d scale core u round c.1 c.2)
    else none

/-- What is missing of a fetch is asked for: its slot is staged, or its bytes are read from the banks. -/
def State.fetchMissing (s : State) (d : Side) (scale : Bool) (core u : Nat) (r : Rect) (line idx round : Nat) : State :=
  match s.fetchBytes d scale r line idx round with
  | some (h, bytes) =>
    let missing := bytes.filter fun a => (s.arrivedByte core u h a).isNone
    if h = stagingUse then
      s.askFor core (arrivedKey u h) (fun t x => t.readStaged d.op core u (x.1 / 16) x) missing
    else s.fetchHandle d.op core u h missing
  | none =>
    let q := d.slotRect scale line idx
    if (s.findSlot d scale q round).isSome then s else s.stageSlot d scale q round

/-- Drop the arrived bytes that a fetch has used. -/
def State.usedBytes (s : State) (d : Side) (scale : Bool) (core u : Nat) (r : Rect) (line idx round : Nat) : SMap Byte :=
  match s.fetchBytes d scale r line idx round with
  | some (h, bytes) => bytes.foldl (fun m a => SMap.del m (arrivedKey u h a)) (s.core core).arrived
  | none => (s.core core).arrived

/-! ## Bound exponents (R104, R105) -/

def tmax (f : Nat) : Int :=
  match f with
  | 0 => 1 | 1 => 2 | 2 => 2 | 3 => 4 | 4 => 8 | 5 => 15 | 6 => 8 | _ => 0

/-- Formats whose bound exponent is derived from the data. -/
def derived (f : Nat) : Bool := f == 7 || f == 8

/-- Exponent field of a normal element of QH16 or QS32. -/
def normalExp (f code : Nat) : Option Nat :=
  let e := if f = 7 then fld code 9 6 else fld code 22 9
  if e = 0 ∨ (f = 7 ∧ e = 63) ∨ (f = 8 ∧ e = 511) then none else some e

/-- An element enters the derived exponent of its line and block. -/
def noteExp (d : Side) (line idx code : Nat) : List LineBound → List LineBound
  | [] => [{ op := d.op.id, entry := d.entry.index, sideB := d.sideB, line := line, block := idx / 16,
             seen := 2 ^ (idx % 16), top := normalExp d.format code }]
  | b :: t =>
    if b.op = d.op.id ∧ b.entry = d.entry.index ∧ b.sideB = d.sideB ∧ b.line = line ∧ b.block = idx / 16 then
      { b with seen := b.seen ||| 2 ^ (idx % 16),
               top := match b.top, normalExp d.format code with
                 | some x, some y => some (max x y)
                 | some x, none => some x
                 | none, y => y } :: t
    else b :: noteExp d line idx code t

/-! ## The feeder store (R222) -/

/-- Regions of R170: first byte and size. -/
def feederRegion (sideB : Bool) : Nat × Nat := if sideB then (3072, 1024) else (0, 3072)

/-- Bytes of the feeder store that a line takes. -/
def FeedLine.bytes (l : FeedLine) (width : Nat) : Nat := ceilDiv (l.lines * l.count * (if l.scale then 8 else width)) 8

/-- A line with its bytes, in the region of its side. -/
def feedSpans (o : OpRec) (sideB : Bool) (ls : List FeedLine) : List (Nat × Nat) :=
  let w := fmtWidth (if sideB then o.desc.bFmt else o.desc.aFmt)
  (ls.filter (·.sideB == sideB)).map fun l => (l.pos, l.bytes w)

/-- Least place in a region from `at_` on where `n` bytes are free. -/
def firstFit (spans : List (Nat × Nat)) (n : Nat) : Nat → Nat → Nat
  | 0, at_ => at_
  | k + 1, at_ =>
    match spans.find? fun p => decide (p.1 < at_ + n) && decide (at_ < p.1 + p.2) with
    | some p => firstFit spans n k (p.1 + p.2)
    | none => at_

/-- Room for `n` bytes in a region: a place in it, or, with `evict`, one that the oldest lines of the region make way
for (log entry 84). -/
def makeRoom (o : OpRec) (sideB evict : Bool) (n : Nat) : Nat → List FeedLine → Option (Nat × List FeedLine)
  | 0, _ => none
  | k + 1, ls =>
    let (base, size) := feederRegion sideB
    let spans := feedSpans o sideB ls
    let p := firstFit spans n spans.length base
    if p + n ≤ base + size then some (p, ls)
    else if evict then
      match ls.find? (·.sideB == sideB) with
      | some l => makeRoom o sideB evict n k (ls.erase l)
      | none => none
    else none

/-- A fetched rectangle enters the feeder store, and its derived exponents stand beside it (R105, R224). One that finds
no room leaves only those. -/
def Core.load (c : Core) (d : Side) (scale evict : Bool) (r : Rect) (codes : List Nat) : Core :=
  let bytes := packCodes (d.width scale) codes
  let bounds := if scale || !derived d.format then c.bounds
    else (r.cells.zip codes).foldl (fun l x => noteExp d x.1.1 x.1.2 x.2 l) c.bounds
  match makeRoom d.op d.sideB evict bytes.length (c.feeder.length + 1) c.feeder with
  | some (pos, ls) =>
    { c with
      bounds := bounds
      fs := (List.range bytes.length).foldl (fun m i => SMap.putD m (pos + i) ((bytes[i]?).getD 0) 0) c.fs
      feeder := ls ++ [{ op := d.op.id, entry := d.entry.index, sideB := d.sideB, scale := scale, line0 := r.line0,
                         lines := r.lines, k0 := r.k0, count := r.count, pos := pos }] }
  | none => { c with bounds := bounds }

/-- The line of the feeder store that holds an element, or a scale byte. -/
def Core.findLine (c : Core) (d : Side) (scale : Bool) (line idx : Nat) : Option FeedLine :=
  c.feeder.find? fun l =>
    l.op == d.op.id && l.entry == d.entry.index && l.sideB == d.sideB && l.scale == scale
      && decide (l.line0 ≤ line) && decide (line < l.line0 + l.lines) && decide (l.k0 ≤ idx)
      && decide (idx < l.k0 + l.count)

/-- The code of an element, or a scale byte, as the feeder store holds it. -/
def Core.held (c : Core) (d : Side) (scale : Bool) (line idx : Nat) : Option Nat :=
  (c.findLine d scale line idx).map fun l =>
    let w := d.width scale
    let bit := ((line - l.line0) * l.count + (idx - l.k0)) * w
    codeOf ((List.range 5).map fun i => SMap.getD c.fs (l.pos + bit / 8 + i) 0) (bit % 8) w

/-- An element as the quad feeders see it: one in the halo is zero and needs no fetch (R172). -/
def Side.element (s : State) (d : Side) (c : Core) (line idx : Nat) : Option Nat :=
  if (d.place s line idx).isNone then some 0 else c.held d false line idx

/-- The scale byte of a line for a block: `some none` where there is none, `none` while it is not at hand. -/
def Side.scaleByte (s : State) (d : Side) (c : Core) (line blk : Nat) : Option (Option Nat) :=
  if !d.hasScale s || (d.scalePlace s line blk).isNone then some none else (c.held d true line blk).map some

/-- Bound exponent of a line for a reduction block, without the coarse part (R104): `some none` for a line that R106
leaves out, `none` while it is not known. −1,024 stands where the line has no finite nonzero element. -/
def Side.bound (s : State) (d : Side) (c : Core) (line b ec : Nat) : Option (Option Int) :=
  let ks := (List.range 16).filterMap fun i =>
    if 16 * b + i < d.entry.k && (d.place s line (16 * b + i)).isSome then some i else none
  if ks.isEmpty then some (some (-1024))
  else if derived d.format then
    match c.bounds.find? fun x => x.op == d.op.id && x.entry == d.entry.index && x.sideB == d.sideB && x.line == line
        && x.block == b with
    | some x =>
      if ks.all fun i => bit x.seen i then
        some (some (match x.top with
          | some e => (e : Int) - (if d.format = 7 then 30 else 254) + ((ec : Int) - 255)
          | none => -1024))
      else none
    | none => none
  else
    (d.scaleByte s c line (b / 2)).map fun sc =>
      match sc with
      | some 0xFF => none
      | some y => some (tmax d.format + (fld y 2 6 : Int) - 32 + (if y % 4 ≠ 0 then 1 else 0) + ((ec : Int) - 255))
      | none => some (tmax d.format + ((ec : Int) - 255))

end Sys2Proof.Machine
end

