-- ==== Sys2Proof/Machine/Flags.lean ====
section
/-!
DEFINITION. Every flag of a core: sticky flags (R128), slug status (R127), the first-exception capture with
its roll-ups (R129 to R132), and the rescue log (R130).
-/

namespace Sys2Proof.Machine

/-- Engines of SFLAGS and FX_STATUS: quads 0 to 3, the vector engine 4, the feeder engine 5. -/
def engVec : Nat := 4

/-- Set sticky flags of an engine of a core (R128). -/
def State.sticky (s : State) (core engine flags : Nat) : State :=
  if flags % 16 = 0 then s else s.orReg (coreKey core 0x200) (flags % 16 * 2 ^ (4 * engine))

/-- FX_CTRL bit of an event kind (R129, R130). -/
def kindBit (kind : Nat) : Nat :=
  match kind with
  | 1 => 0 | 2 => 1 | 3 => 2 | 4 => 3 | 9 => 4 | 10 => 5 | _ => 6

/-- Capture an event if its kind is enabled and nothing is held (R129); the interrupt of R132. -/
def State.fxCapture (s : State) (core : Nat) (o : OpRec) (v : Sliver) (t : Nat) (e : FxEvent) : State :=
  let k := coreKey core
  if !bit (s.regN (k 0x204)) (kindBit e.kind) || bit (s.regN (k 0x208)) 31 then s
  else
    let (r, c) := v.origin t
    let st := e.kind + e.engine * 16 + Nat.log2 v.mt * 256 + Nat.log2 v.nt * 4096
      + (if v.mt = 4 then 0x8000 else 0) + 0x80000000
    let entry := if o.opcode = opBatched then v.entry % 0x10000 else 0
    let s := s.setRegN (k 0x208) st
    let s := s.setRegN (k 0x20C) (o.job + o.q * 0x10000)
    let s := s.setReg (k 0x210) o.seq
    let s := s.setRegN (k 0x214) r
    let s := s.setRegN (k 0x218) c
    let s := s.setRegN (k 0x21C) (e.elem + entry * 0x10000)
    let s := s.setRegN (k 0x220) e.kblock
    if bit (s.regN (k 0x204)) 16 then s.raise pgErragg 1 else s

/-- Events in time order; only the first enabled one can be captured. -/
def State.fxOffer (s : State) (core : Nat) (o : OpRec) (v : Sliver) (t : Nat) (es : List FxEvent) : State :=
  es.foldl (fun u e => u.fxCapture core o v t e) s

/-- Insert a timed event keeping order of time, then element, then kind (R129). -/
def insEvent (x : Nat × FxEvent) : List (Nat × FxEvent) → List (Nat × FxEvent)
  | [] => [x]
  | y :: t =>
    if x.1 < y.1 || (x.1 = y.1 && (x.2.elem < y.2.elem || (x.2.elem = y.2.elem && x.2.kind < y.2.kind)))
    then x :: y :: t
    else y :: insEvent x t

/-- Events in the order of R129. -/
def orderEvents (l : List (Nat × FxEvent)) : List FxEvent :=
  (l.foldl (fun acc x => insEvent x acc) []).map (·.2)

/-- Slug status as the array forms it (R127): flags of the final attempt, saturation, classes, rescue. -/
def slugStatus (exc : Nat) (sat nan inf : Bool) (n op : Nat) (stop : Bool) : Nat :=
  exc % 16 + 16 * b2n sat + 32 * b2n nan + 64 * b2n inf + 256 * (n % 4) + 1024 * (op % 2)
    + 2048 * b2n stop

/-- FLAGS of a completion record from a slug status (R342). -/
def flagsOfStatus (st : Nat) : Nat :=
  st % 128 + (if fld st 8 2 ≠ 0 then 128 else 0) + (if bit st 11 then 256 else 0)

/-- RESCUE_LOG and RESCUE_SEQ record a rescued tile (R130). -/
def State.rescueLog (s : State) (core : Nat) (seq : Word) (n op : Nat) (stop : Bool) : State :=
  if n = 0 ∧ stop = false then s
  else
    let k := coreKey core 0x224
    let cnt := s.regF k 0 16
    let cnt := if n = 0 then cnt else min (cnt + 1) 0xFFFF
    (s.setRegN k (cnt + (n % 4) * 0x10000 + (op % 2) * 0x40000 + b2n stop * 0x80000)).setReg
      (coreKey core 0x228) seq

end Sys2Proof.Machine
end

