-- ==== Sys2Proof/Machine/Cores.lean ====
section
/-!
DEFINITION. The array of a core (R88 to R126): taking a tile, passes with their QA20 partials, promotion,
classes, rescue reruns and the entry of a finished tile into the slug queue.
-/

namespace Sys2Proof.Machine

/-! ## Marks (R412) -/

def Core.mark (c : Core) (id : Nat) : Mark :=
  (c.marks.find? (·.op == id)).getD { op := id, slugs := 0, status := 0, groups := 0, tiles := 0 }

def Core.setMark (c : Core) (m : Mark) : Core :=
  { c with marks := m :: c.marks.filter (·.op != m.op) }

/-! ## Protection contexts on a core (R456) -/

/-- Before work of a context reaches a core, its accumulator file is zeroed when another context used it
last. -/
def Core.enter (c : Core) (ctx : Option Nat) : Core :=
  if c.lastCtx = ctx then c else { c with file := [], lastCtx := ctx }

/-! ## Taking a tile -/

def Desc.qi32 (d : Desc) : Bool := d.accInt

/-- Starting value of an accumulator from a stored code (R115). -/
def startAccum (int : Bool) (w : Word) : Accum :=
  let z : Accum := { code := 0, nan := false, pinf := false, ninf := false, sat := false }
  if int then { z with code := w }
  else match decodeElem 8 w.toNat with
    | .nan => { z with nan := true }
    | .inf true => { z with ninf := true }
    | .inf false => { z with pinf := true }
    | .fin _ 0 _ => z
    | .fin _ _ _ => { z with code := w }

/-- Unmasked element indices of a tile with their row and column, in index order (R114, R172). -/
def Sliver.elems (v : Sliver) (t : Nat) : List (Nat × Nat × Nat) :=
  let (nr, nc) := v.extent t
  (List.range nr).flatMap fun i => (List.range nc).map fun j => (i * v.nt + j, i, j)

/-- The core takes no tile while T_QUAD.EN is 1 (R360) or its island's clock stands (R381). What a quad that runs alone
computes, on which operands and where its result stands, the spec does not say (R92): the bits [3:0] are held and start
nothing here. DESIGN CHOICE, log entry 86. -/
def State.coreHeld (s : State) (k : Nat) : Bool :=
  bit (s.regN (coreKey k 0xF20)) 31 || s.asleep (k / 256)

/-- Does the entry's MOVE read or write the accumulator file of the core (R153)? -/
def Entry.usesFile (e : Entry) (core : Nat) : Bool :=
  let hit (x : Operand) : Bool := match x with
    | .accFile base => decide (base ≤ core) && decide (core < base + e.m)
    | _ => false
  hit e.a || hit e.c

/-- An earlier descriptor of the same queue has still to use or to leave the core's accumulator file, whose order
is kept without `order` too (R116, R340). -/
def State.fileBusy (s : State) (o : OpRec) (core : Nat) : Bool :=
  s.ops.any fun p =>
    decide (p.id < o.id) && p.q == o.q
      && (match p.phase with
        | .finished | .flushing _ => false
        | _ =>
          if p.desc.isProduct then
            let c := s.core core
            (c.tile.any fun t => t.op == p.id) || c.work.any fun w => w.op == p.id
          else p.opcode == opMove && p.entries.any fun e => e.usesFile core)

/-- The core takes the next tile of its oldest sliver (R161, R166, R169), starting its accumulators (R115). Lines of
another operation are no content of its feeder store (R223). -/
def State.beginTile (s : State) (k : Nat) : State :=
  let c := s.core k
  match c.tile, c.work with
  | none, w :: rest =>
    match s.op w.op with
    | some o =>
      if (o.phase != .running && o.phase != .journaling) || o.stopped || s.coreHeld k
          || (o.desc.isProduct && s.fileBusy o k) then s
      else
        let c := c.enter o.context
        let m := c.mark o.id
        let first := decide (m.tiles = 0)
        let kk := ((o.entryOf w.sliver).map (·.k)).getD 0
        let accs : SMap Accum :=
          if o.desc.isProduct && o.desc.accInit && first then
            (w.sliver.elems w.next).map fun e =>
              (e.1, startAccum o.desc.accInt (SMap.getD c.file e.1 0))
          else []
        let t : Tile :=
          { op := o.id, sliver := w.sliver, t := w.next, first := first, accs := accs, k0 := 0, g := 0,
            k1 := 0, walked := !o.desc.isProduct || kk == 0, round := w.next - w.base, clock := 0, busy := false,
            vec := 0, loaded := false, erefs := [], parts := [], fx := [], exc := 0,
            ecA := fld o.desc.aScale 22 9, ecB := fld o.desc.bScale 22 9, reruns := 0, lastOp := 0,
            stop := false, entry := false, complete := false }
        let c := c.setMark { m with tiles := m.tiles + 1 }
        s.setCore k { c with
          tile := some t
          feeder := c.feeder.filter (·.op == o.id)
          bounds := c.bounds.filter (·.op == o.id)
          arrived := c.arrived.keep fun x => decide (useBuf ≤ x)
          work := if w.next + 1 < w.stop then { w with next := w.next + 1 } :: rest else rest }
    | none => s
  | _, _ => s

/-! ## Passes (R94 to R110) -/

/-- Quad of a PE (R88). -/
def quadOf (galley : Bool) (r c : Nat) : Nat :=
  if galley then c / 4 else (if 4 ≤ r then 2 else 0) + (if 4 ≤ c then 1 else 0)

/-- Quad at whose edge an element leaves (R128), by its column within the group. -/
def edgeQuad (galley : Bool) (c : Nat) : Nat := if galley then 3 else if c < 4 then 2 else 3

def maxBound (l : List (Option Int)) : Option Int :=
  l.foldl (fun m x => match m, x with
    | none, y => y
    | some a, some b => some (max a b)
    | a, none => a) none

/-- Reference exponent (R106, R107). -/
def refExp (int : Bool) (as bs : List (Option Int)) : Int :=
  if int then 15 else (maxBound as).getD 0 + (maxBound bs).getD 0

/-- One product: its tag and truncated magnitude in window units (R108, R117). -/
structure Product where
  q : Int
  lost : Bool
  nanIn : Bool
  inv : Bool
  nan : Bool
  pinf : Bool
  ninf : Bool

def Product.zero : Product := ⟨0, false, false, false, false, false, false⟩

def product (eref : Int) (a b : Elem) : Product :=
  match a, b with
  | .nan, _ | _, .nan => { Product.zero with nanIn := true, nan := true }
  | .inf x, .inf y => { Product.zero with pinf := x == y, ninf := x != y }
  | .inf x, .fin y n _ =>
    if n = 0 then { Product.zero with inv := true, nan := true }
    else { Product.zero with pinf := x == y, ninf := x != y }
  | .fin x n _, .inf y =>
    if n = 0 then { Product.zero with inv := true, nan := true }
    else { Product.zero with pinf := x == y, ninf := x != y }
  | .fin x n e, .fin y m f =>
    let p := n * m
    let (mag, lost) := match e + f - (eref - 15) with
      | .ofNat j => (p * 2 ^ j, false)
      | .negSucc j => (p / 2 ^ (j + 1), p % 2 ^ (j + 1) != 0)
    { Product.zero with q := if x = y then (mag : Int) else -(mag : Int), lost := lost }

def PartElem.add (e : PartElem) (p : Product) : PartElem :=
  { e with q := e.q + p.q, inexact := e.inexact || p.lost, nan := e.nan || p.nan, pinf := e.pinf || p.pinf,
           ninf := e.ninf || p.ninf, inv := e.inv || p.inv }

def PartElem.join (a b : PartElem) : PartElem :=
  { a with q := a.q + b.q, inexact := a.inexact || b.inexact, nan := a.nan || b.nan, pinf := a.pinf || b.pinf,
           ninf := a.ninf || b.ninf, inv := a.inv || b.inv }

/-- The operand lines that a pass works with, and where its products arise. -/
structure Pass where
  galley : Bool
  d      : Nat
  shape  : Shape
  k1     : Nat
  /-- One past the last reduction index of the pass. -/
  stop   : Nat
  /-- Tile rows and tile columns that take part. -/
  rows   : List Nat
  cols   : List Nat

/-- The pass that a tile's pointer names (R93, R94, R169). -/
def Tile.pass (t : Tile) (o : OpRec) (kk : Nat) : Pass :=
  let sh := shapeOf t.sliver.mt t.sliver.nt
  let d := (pairStep o.desc.aFmt o.desc.bFmt).1
  let ipp := sh.ipp d
  let (nr, nc) := t.sliver.extent t.t
  { galley := sh.galley, d := d, shape := sh, k1 := t.k1, stop := min kk (t.k1 + ipp),
    rows := List.range nr,
    cols := if sh.galley then List.range nc
            else (List.range 8).filterMap fun i => if 8 * t.g + i < nc then some (8 * t.g + i) else none }

/-- Blocks that a pass covers, in ascending order (R103). -/
def Pass.blocks (p : Pass) : List Nat := (List.range (ceilDiv p.stop 16)).filter fun b => p.k1 < 16 * b + 16

/-- Step within the pass, after its vector enters, at which a product's PE works, and its quad (R94, R98). -/
def Pass.place (p : Pass) (row col kk : Nat) : Nat × Nat :=
  let x := (kk - p.k1) / p.d
  if p.galley then (col + row + x, quadOf true row x) else (row + x + col % 8, quadOf false x (col % 8))

/-- Steps that a pass occupies (R99), and from a vector's entry to its release (R98). -/
def Pass.steps (p : Pass) : Nat := max p.shape.len (if p.galley then 16 else 8)
def Pass.latency (p : Pass) : Nat := if p.galley then 20 else 16

/-! ## Stationary registers (R95 to R97) -/

/-- The PEs that hold stationary elements: PE number, stationary line of the tile and reduction indices (R94). -/
def Pass.stationary (p : Pass) : List (Nat × Nat × List Nat) :=
  let idxs (x : Nat) : List Nat :=
    (List.range p.d).filterMap fun i =>
      let kk := p.k1 + p.d * x + i
      if kk < p.stop then some kk else none
  if p.galley then p.rows.flatMap fun m => (List.range 16).map fun x => (16 * m + x, m, idxs x)
  else p.cols.flatMap fun j => (List.range 8).map fun x => (8 * x + j % 8, j, idxs x)

/-- The element of a PE's working register that a product uses (R95). -/
def Pass.fromPe (p : Pass) (working : SMap (BitVec 64)) (width line kk : Nat) : Nat :=
  let x := (kk - p.k1) / p.d
  let pe := if p.galley then 16 * line + x else 8 * x + line % 8
  (SMap.getD working pe 0).toNat / 2 ^ ((kk - p.k1) % p.d * width) % 2 ^ width

/-- A load of every row's shadow registers over the row broadcast buses (R96), packed per R11; `none` while an element
is not in the feeder store (R101). A masked stationary line leaves zeros (R172). -/
def Pass.load (p : Pass) (s : State) (c : Core) (d : Side) (line0 : Nat) : Option (SMap (BitVec 64)) :=
  p.stationary.foldl
    (fun m x =>
      let codes := x.2.2.map fun kk => d.element s c (line0 + x.2.1) kk
      m.bind fun m =>
        if codes.all Option.isSome then
          some (SMap.putD m x.1
            (BitVec.ofNat 64 (codes.foldr (fun y n => n * 2 ^ fmtWidth d.format + y.getD 0) 0)) 0)
        else none) (some [])

/-- Put a pass's part of a streamed vector's block beside what an earlier pass left at the edge (R103). -/
def joinPart (l : List Partial) (x : Partial) : List Partial :=
  match l with
  | [] => [x]
  | y :: t =>
    if y.group = x.group ∧ y.vec = x.vec ∧ y.block = x.block ∧ !y.ready then
      { y with ready := x.ready, due := x.due, elems := (y.elems.zip x.elems).map fun e => e.1.join e.2 } :: t
    else y :: joinPart t x

/-- The pointer after a pass (R169): the next pass may start when the vectors of this one have entered (R99). -/
def Tile.advance (t : Tile) (o : OpRec) (kk : Nat) : Tile :=
  let sh := shapeOf t.sliver.mt t.sliver.nt
  let ipp := sh.ipp (pairStep o.desc.aFmt o.desc.bFmt).1
  let chunk := max ipp 16
  let t := { t with clock := t.clock + (t.pass o kk).steps, busy := false, vec := 0, erefs := [] }
  if t.k1 + ipp < min kk (t.k0 + chunk) then { t with k1 := t.k1 + ipp }
  else if t.g + 1 < sh.groups then { t with g := t.g + 1, k1 := t.k0 }
  else
    let k0 := t.k0 + chunk
    { t with g := 0, k0 := k0, k1 := k0, walked := decide (kk ≤ k0) }

/-- The step that the array executes next; `none` when the walk has ended (R98, R101). -/
def Tile.now (t : Tile) : Option Nat := if t.walked then none else some (t.clock + if t.busy then t.vec else 0)

/-- A partial released before the step still awaits its promotion, so that the array cannot go on (R101). -/
def Tile.behind (t : Tile) (step : Nat) : Bool := t.parts.any fun x => x.ready && decide (x.due < step)

/-- What the array works on: the tile with its operation and entry. -/
structure Run where
  tile  : Tile
  op    : OpRec
  entry : Entry

def State.running (s : State) (k : Nat) : Option Run :=
  (s.core k).tile.bind fun t => (s.op t.op).bind fun o => (o.entryOf t.sliver).map fun e => ⟨t, o, e⟩

def Run.side (r : Run) (sideB : Bool) : Side := { op := r.op, entry := r.entry, v := r.tile.sliver, sideB := sideB }

def Run.pass (r : Run) : Pass := r.tile.pass r.op r.entry.k

/-- Stationary and streamed side of the form (R88). -/
def Run.stat (r : Run) : Side := r.side (!r.pass.galley)

def State.setTile (s : State) (k : Nat) (t : Tile) : State := s.setCore k { s.core k with tile := some t }

/-- The events of products that have arisen before a step are offered to the capture, in order (R129). -/
def State.fxReach (s : State) (k : Nat) (r : Run) (step : Nat) : State :=
  s.fxOffer k r.op r.tile.sliver r.tile.t (orderEvents (r.tile.fx.filter fun x => decide (x.1 < step)))

/-- The shadow registers take the stationary operand of the next pass to start, once it is in the feeder store and the
rows' last PEs have swapped (R96 to R98). -/
def State.loadShadow (s : State) (k : Nat) : State :=
  match s.running k with
  | some r =>
    let t := r.tile
    let next := if t.busy then t.advance r.op r.entry.k else t
    let p := next.pass r.op r.entry.k
    if t.loaded || next.walked || (t.busy && decide (t.vec < if p.galley then 16 else 8)) then s
    else
      let d := r.side (!p.galley)
      (match p.load s (s.core k) d (d.span t.t).1 with
      | some regs => s.setCore k { s.core k with shadow := regs, tile := some { t with loaded := true } }
      | none => s)
  | none => s

/-- Reference exponents of the blocks of a pass (R106); `none` while a bound of a line in scope is not known. -/
def Run.refs (r : Run) (s : State) (c : Core) : Option (List (Nat × Int)) :=
  let p := r.pass
  let a := r.side false
  let b := r.side true
  let la := p.rows.map ((a.span r.tile.t).1 + ·)
  let lb := p.cols.map ((b.span r.tile.t).1 + ·)
  let all := p.blocks.map fun x =>
    (x, la.map fun l => a.bound s c l x r.tile.ecA, lb.map fun l => b.bound s c l x r.tile.ecB)
  if r.op.desc.accInt then some (p.blocks.map fun x => (x, 15))
  else if all.all fun x => x.2.1.all Option.isSome && x.2.2.all Option.isSome then
    some (all.map fun x => (x.1, refExp false (x.2.1.filterMap id) (x.2.2.filterMap id)))
  else none

/-- An element of one side for a product: stationary ones from the working registers, streamed ones from the feeder
store, with the line's fine scale and the coarse exponent in force (R71); `none` while it is not at hand. -/
def Run.elem (r : Run) (s : State) (c : Core) (sideB : Bool) (line kk : Nat) : Option Elem :=
  let d := r.side sideB
  let l := (d.span r.tile.t).1 + line
  let code := if sideB == !r.pass.galley then some (r.pass.fromPe c.working (fmtWidth d.format) line kk)
    else d.element s c l kk
  code.bind fun x => (d.scaleByte s c l (kk / 32)).map fun sc =>
    scaleElem (decodeElem d.format x) (((if sideB then r.tile.ecB else r.tile.ecA) : Int) - 255) sc

/-- What an element's products of one block are: the partial, timed events and sticky flags by quad. -/
def elemBlock (p : Pass) (clock idx row col b : Nat) (eref : Int) (xs : List (Nat × Elem × Elem)) :
    PartElem × List (Nat × FxEvent) × List (Nat × Nat) :=
  (xs.filter fun x => x.1 / 16 == b).foldl
    (fun (acc : PartElem × List (Nat × FxEvent) × List (Nat × Nat)) x =>
      let pr := product eref x.2.1 x.2.2
      let (time, quad) := p.place row col x.1
      let ev := if pr.nanIn then [(clock + time, (⟨4, quad, idx, b⟩ : FxEvent))]
        else if pr.inv then [(clock + time, (⟨1, quad, idx, b⟩ : FxEvent))] else []
      (acc.1.add pr, acc.2.1 ++ ev, if pr.inv then (quad, fInvalid) :: acc.2.2 else acc.2.2))
    (⟨idx, 0, false, false, false, false, false⟩, [], [])

/-- The products of the next vector of a running pass against the stationary lines; `none` while an element or a scale
of it is not at hand (R101). A masked vector slot has none (R100). -/
def Run.vector (r : Run) (s : State) (c : Core) : Option (List (Nat × Nat × List (Nat × Elem × Elem))) :=
  let p := r.pass
  let v := r.tile.vec
  let cells :=
    if p.galley then (if p.cols.contains v then p.rows.map fun m => (m, v) else [])
    else if p.rows.contains v then p.cols.map fun j => (v, j) else []
  let ks := (List.range (p.stop - p.k1)).map (p.k1 + ·)
  let all := cells.map fun x => (x.1, x.2, ks.map fun kk =>
    (kk, r.elem s c false x.1 kk, r.elem s c true x.2 kk))
  if all.all fun x => x.2.2.all fun y => y.2.1.isSome && y.2.2.isSome then
    some (all.map fun x => (x.1, x.2.1, x.2.2.filterMap fun y => match y.2.1, y.2.2 with
      | some a, some b => some (y.1, a, b)
      | _, _ => none))
  else none

/-- The next vector slot of the running pass enters the array, in lockstep with the promotions due (R98, R100, R101);
after the last one the pass ends. -/
def State.streamOne (s : State) (k : Nat) : Option State :=
  (s.running k).bind fun r =>
    let t := r.tile
    let p := r.pass
    let step := t.clock + t.vec
    if !t.busy || t.behind step || s.asleep (k / 256) then none
    else (r.vector s (s.core k)).map fun cells =>
      let made := p.blocks.map fun b =>
        let e := ((t.erefs.find? (·.1 == b)).map (·.2)).getD 0
        let outs := cells.map fun x => elemBlock p t.clock (x.1 * t.sliver.nt + x.2.1) x.1 x.2.1 b e x.2.2
        (({ group := t.g, vec := t.vec, block := b, eref := e, ready := decide (min r.entry.k (16 * b + 16) ≤ p.stop),
            due := step + p.latency, elems := outs.map (·.1) } : Partial),
          outs.flatMap (·.2.1), outs.flatMap (·.2.2))
      let made := if cells.isEmpty then [] else made
      let flags := made.flatMap (·.2.2)
      let u := s.fxReach k r step
      let t := { t with
        vec := t.vec + 1
        parts := made.foldl (fun l x => joinPart l x.1) t.parts
        fx := (t.fx.filter fun x => decide (step ≤ x.1)) ++ made.flatMap (·.2.1)
        exc := t.exc ||| (if flags.isEmpty then 0 else fInvalid) }
      let u := u.setTile k (if t.vec < p.shape.len then t else t.advance r.op r.entry.k)
      let u := flags.foldl (fun w x => w.sticky k x.1 x.2) u
      let (d, st) := pairStep r.op.desc.aFmt r.op.desc.bFmt
      u.active (k / 256) (evMac d st) (some r.op.job) (cells.length * (p.stop - p.k1))

/-- Vectors enter while nothing holds the array, at most `n` of them. -/
def State.stream (s : State) (k : Nat) : Nat → State
  | 0 => s
  | n + 1 => match s.streamOne k with
    | some u => u.stream k n
    | none => s

/-- The array goes on after new data or a promotion. -/
def State.arrayOn (s : State) (k : Nat) : State := ((s.loadShadow k).stream k 64).loadShadow k

/-- The pass at the pointer starts (R97, R99, R106): every earlier promotion is made, its stationary operand stands in
the shadow registers, its reference exponents are known and its first vector is there; the PEs swap. -/
def State.swap (s : State) (k : Nat) : State :=
  match s.running k with
  | some r =>
    let t := r.tile
    let c := s.core k
    if t.walked || t.busy || !t.loaded || t.behind t.clock || s.asleep (k / 256) then s
    else
      (match r.refs s c with
      | some refs =>
        let u := s.setCore k { c with
          working := c.shadow, shadow := [],
          tile := some { t with busy := true, vec := 0, loaded := false, erefs := refs } }
        if (u.streamOne k).isSome then u else s
      | none => s)
  | none => s

/-- PASS_START (R99): once the data is present, a pass starts and its vectors stream while theirs is. -/
def State.runPass (s : State) (k : Nat) : State := (((s.beginTile k).loadShadow k).swap k).arrayOn k

/-! ## Promotion (R111 to R113, R118, R119) -/

/-- Promote a partial into a QI32 accumulator (R112). -/
def promoteInt (a : Accum) (q : Int) : Word × Nat × Bool :=
  let x := twos 32 a.code.toNat + q
  if 2147483647 < x then (0x7FFFFFFF#32, fOverflow, true)
  else if x < -2147483648 then (0x80000000#32, fOverflow, true)
  else (BitVec.ofInt 32 x, 0, false)

/-- Promote a partial into a QS32 accumulator (R111). -/
def promoteFloat (a : Accum) (q eref : Int) : Word × Nat × Bool :=
  let x := ((qs32 a.code).add (Num.scaled (decide (q < 0)) q.natAbs (eref - 15))).1
  let (c, fl) := convert 8 none x
  (w32 c, fl, fl / 4 % 2 = 1)

/-- One element's promotion: the accumulator, the flags, and the first opposite-infinity event (R118,
R129). -/
def promote (int : Bool) (eref : Int) (a : Accum) (p : PartElem) : Accum × Nat × Bool :=
  let (c, fl, sat) := if int then promoteInt a p.q else promoteFloat a p.q eref
  let pinf := a.pinf || p.pinf
  let ninf := a.ninf || p.ninf
  let opp := pinf && ninf && !(a.pinf && a.ninf)
  ({ code := if a.sat then a.code else c, nan := a.nan || p.nan, pinf := pinf, ninf := ninf,
     sat := a.sat || sat },
   fl ||| (if p.inexact then fInexact else 0) ||| (if opp then fInvalid else 0), opp)

/-- The oldest partial whose block is whole (R98), and the others. -/
def takeReady : List Partial → Option (Partial × List Partial)
  | [] => none
  | x :: t => if x.ready then some (x, t) else (takeReady t).map fun r => (r.1, x :: r.2)

/-- May the tile be rerun when an element saturates (R124)? -/
def Tile.mayRerun (t : Tile) (o : OpRec) : Bool := o.rescue && !o.desc.accInt && !(o.desc.accInit && t.first)

/-- Entries of the slug queue that are taken (R176, R177). -/
def Core.entries (c : Core) : Nat := c.slugs.length + b2n (c.tile.any (·.entry))

/-- The last promotion of the tile's first element (R177). -/
def Partial.lastOfFirst (x : Partial) (kk : Nat) : Bool := x.group == 0 && x.vec == 0 && x.block + 1 == ceilDiv kk 16

/-- Promotions of one partial: element, accumulator, flags, quad and events. -/
def Partial.promotions (x : Partial) (t : Tile) (int : Bool) : List (Nat × Accum × Nat × Nat × List (Nat × FxEvent)) :=
  let galley := t.sliver.mt == 4
  let zero : Accum := { code := 0, nan := false, pinf := false, ninf := false, sat := false }
  x.elems.map fun e =>
    let (a, fl, opp) := promote int x.eref (SMap.getD t.accs e.idx zero) e
    let quad := edgeQuad galley (e.idx % t.sliver.nt % 8)
    let ev := (if opp then [(x.due, (⟨1, quad, e.idx, x.block⟩ : FxEvent))] else [])
      ++ (if fl / 4 % 2 = 1 then [(x.due, (⟨2, quad, e.idx, x.block⟩ : FxEvent))] else [])
      ++ (if fl / 2 % 2 = 1 then [(x.due, (⟨3, quad, e.idx, x.block⟩ : FxEvent))] else [])
    (e.idx, a, fl, quad, ev)

/-- Every step of the array stalls while no slug queue entry is free (R101, R209). -/
def State.stall (s : State) (k : Nat) : State :=
  s.setCore k { s.core k with fullStalls := ((s.core k).fullStalls + 1) % 65536 }

/-- The next released vector's block is promoted, at the step at which the array releases it (R98, R111), and the events
of that step and before go to the capture (R129). At the first element's last promotion the tile takes a slug queue
entry, unless a rerun may follow (R177; log entry 81); while none is free, the array stalls. -/
def State.promoteStep (s : State) (k : Nat) (ecc : Ecc) : State :=
  match s.running k with
  | some r =>
    match takeReady r.tile.parts with
    | some (x, rest) =>
      let t := r.tile
      let waits := match t.now with
        | some n => decide (n ≤ x.due)
        | none => false
      let takes := x.lastOfFirst r.entry.k && !t.mayRerun r.op && !t.entry
      if s.asleep (k / 256) || waits then s
      else if takes && decide (4 ≤ (s.core k).entries) then s.stall k
      else
        let f := s.injectWord (coreKey k 0) (2 ^ 40 + x.block) ecc
        (match f.2 with
        | .uncorrectable => f.1.coreLost k (some r.op.id)
        | .control => f.1.controlLost
        | found =>
          let s := if found = .corrected then f.1.correctedError else f.1
          let outs := x.promotions t r.op.desc.accInt
          let t' := { t with
            parts := rest
            accs := outs.foldl (fun m u => SMap.put m u.1 u.2.1) t.accs
            fx := t.fx.filter fun y => decide (x.due < y.1)
            entry := t.entry || takes
            exc := outs.foldl (fun f u => f ||| u.2.2.1) t.exc }
          let s := s.setTile k t'
          let s := outs.foldl (fun u y => u.sticky k y.2.2.2.1 y.2.2.1) s
          s.fxOffer k r.op t.sliver t.t
            (orderEvents ((t.fx.filter fun y => decide (y.1 ≤ x.due)) ++ outs.flatMap (·.2.2.2.2))))
    | none => s
  | none => s

/-- BLOCK_PROMOTION, after which the array goes on. -/
def State.promoteNext (s : State) (k : Nat) : State := (s.promoteStep k .clean).arrayOn k

/-! ## The end of a tile -/

def Accum.isNan (a : Accum) : Bool := a.nan || (a.pinf && a.ninf)

/-- Final code of an element (R118, R120). -/
def Accum.final (a : Accum) : Word :=
  if a.isNan then 0x7FE00000#32
  else if a.pinf then 0x7FC00000#32
  else if a.ninf then 0xFFC00000#32
  else a.code

/-- Start the tile again from zero with the scales given (R125). -/
def Tile.rerun (t : Tile) (ecA ecB op kk : Nat) : Tile :=
  { t with accs := [], k0 := 0, g := 0, k1 := 0, walked := decide (kk = 0), clock := 0, busy := false, vec := 0,
           loaded := false, erefs := [], parts := [], fx := [], exc := 0, ecA := ecA, ecB := ecB,
           reruns := t.reruns + 1, lastOp := op }

/-- TILE_COMPLETE (R124 to R126): after the last promotion, a rescue rerun if one is due; else the tile is complete,
with a slug queue entry (R177). -/
def State.completeTile (s : State) (k : Nat) : State :=
  let c := s.core k
  match c.tile with
  | some t =>
    match s.op t.op with
    | some o =>
      if !t.walked || !t.parts.isEmpty || t.complete || !o.desc.isProduct then s
      else
        let kk := ((o.entryOf t.sliver).map (·.k)).getD 0
        let due := t.mayRerun o && (t.accs.any fun a => a.2.sat) && !(t.accs.any fun a => a.2.isNan)
        let done (st : Bool) :=
          if !t.entry && decide (4 ≤ c.entries) then s.stall k
          else s.setCore k { c with tile := some { t with complete := true, stop := st, entry := true } }
        if !due then done false
        else if 3 ≤ t.reruns then done true
        else
          let aFirst := decide (t.ecB ≤ t.ecA)
          let canA := decide (5 ≤ t.ecA)
          let canB := decide (5 ≤ t.ecB)
          if (aFirst && canA) || (!aFirst && !canB && canA) then
            s.setCore k { c with tile := some (t.rerun (t.ecA - 4) t.ecB 0 kk) }
          else if canB then s.setCore k { c with tile := some (t.rerun t.ecA (t.ecB - 4) 1 kk) }
          else done true
    | none => s
  | none => s

/-- Does the next tile find a line, or a derived exponent, in the feeder store: that of a resident A panel whose row
panel stays, or one fetched ahead (R169, R170, R222)? -/
def Core.keeps (c : Core) (s : State) (o : OpRec) (t : Tile) (sideB : Bool) (line0 : Nat) : Bool :=
  let v := t.sliver
  match c.work, o.entryOf v with
  | w :: _, some e =>
    let a : Side := { op := o, entry := e, v := v, sideB := false }
    let f := if e.a.hasPlane s v.cluster then ceilDiv e.k 32 else 0
    let panel := w.next / ceilDiv v.cols v.nt == t.t / ceilDiv v.cols v.nt
      && panelResident v.mt e.k (fmtWidth o.desc.aFmt) f
    let d := { a with sideB := sideB }
    let (l, n) := d.span t.t
    let (m, q) := d.span w.next
    w.op == t.op && w.sliver == v
      && ((!sideB && panel)
        || (!(decide (l ≤ line0) && decide (line0 < l + n)) && decide (m ≤ line0) && decide (line0 < m + q)))
  | _, _ => false

/-- The slug of a finished product tile (R120, R127). -/
def Tile.slug (t : Tile) (o : OpRec) : Slug :=
  let zero : Accum := { code := 0, nan := false, pinf := false, ninf := false, sat := false }
  let es := t.sliver.elems t.t
  let get (i : Nat) : Accum := SMap.getD t.accs i zero
  { op := o.id, sliver := t.sliver, t := t.t, codes := es.map fun e => (e.1, (get e.1).final), scales := [],
    first := t.first
    status := slugStatus t.exc (t.accs.any fun a => a.2.sat) (t.accs.any fun a => a.2.isNan)
      (t.accs.any fun a => !a.2.isNan && (a.2.pinf || a.2.ninf)) t.reruns t.lastOp t.stop }

/-- Lines and scale blocks that a MOVE's tile reads. -/
def Side.blocks (d : Side) (t : Nat) : List (Nat × Nat) :=
  let (l, n) := d.span t
  let (j, m) := blocksOf true (d.indices t).1 (d.indices t).2
  (List.range n).flatMap fun i => (List.range m).map fun b => (l + i, j + b)

/-- The slug of a MOVE's tile: source codes and scale bytes from the feeder store, or from accumulator files
(R153); `none` until every element is there. -/
def State.moveSlug (s : State) (k : Nat) (r : Run) : Option Slug :=
  let t := r.tile
  let o := r.op
  let v := t.sliver
  let (r0, c0) := v.origin t.t
  let c := s.core k
  match r.entry.a with
  | .accFile base =>
    if (List.range (v.extent t.t).1).any fun i => s.fileBusy o (base + r0 + i) then none
    else
      some { op := o.id, sliver := v, t := t.t, scales := [], status := 0, first := t.first
             codes := (v.elems t.t).map fun x =>
               (x.1, SMap.getD (((s.core (base + r0 + x.2.1)).enter o.context).file) (c0 + x.2.2) 0) }
  | _ =>
    let d := r.side false
    let (j0, _) := d.indices t.t
    let codes := (v.elems t.t).map fun x =>
      (x.1, if d.columns then d.element s c (c0 + x.2.2) (j0 + x.2.1) else d.element s c (r0 + x.2.1) (j0 + x.2.2))
    let scales := (d.blocks t.t).map fun n => (n, d.scaleByte s c n.1 n.2)
    if codes.all (·.2.isSome) && scales.all (·.2.isSome) then
      some { op := o.id, sliver := v, t := t.t, status := 0, first := t.first
             codes := codes.map fun x => (x.1, w32 (x.2.getD 0))
             scales := scales.filterMap fun x => (x.2.getD none).map fun b => (x.1, b) }
    else none

/-- Accumulator files that a MOVE reads count as used by its task (R153, R456). -/
def State.enterFiles (s : State) (x : Operand) (r0 n : Nat) (ctx : Option Nat) : State :=
  match x with
  | .accFile base => (List.range n).foldl (fun t i => t.setCore (base + r0 + i) ((t.core (base + r0 + i)).enter ctx)) s
  | _ => s

/-- The tile's slug enters the queue and the array is free for the next tile (R114, R116, R177). -/
def State.pushSlug (s : State) (k : Nat) (o : OpRec) (t : Tile) (g : Slug) : State :=
  let c := s.core k
  s.setCore k { c with
    tile := none
    slugs := c.slugs ++ [g]
    feeder := c.feeder.filter fun l => c.keeps s o t l.sideB l.line0
    bounds := c.bounds.filter fun b => c.keeps s o t b.sideB b.line
    arrived := c.arrived.keep fun x => decide (useBuf ≤ x)
    file := if o.desc.isProduct then g.codes.foldl (fun m e => SMap.putD m e.1 e.2 0) c.file else c.file }

/-- The finished slug of the tile in the array, if it is finished: an ELEMENTWISE tile carries no codes yet (R210). -/
def State.finished (s : State) (k : Nat) (r : Run) : Option Slug :=
  if r.op.desc.isProduct then (if r.tile.complete then some (r.tile.slug r.op) else none)
  else if r.op.opcode = opMove then s.moveSlug k r
  else some { op := r.op.id, sliver := r.tile.sliver, t := r.tile.t, codes := [], scales := [], status := 0,
              first := r.tile.first }

/-- SLUG_ENQUEUE (R177): the slug stands in its queue entry; a tile without an array takes the entry now, or waits for a
full queue (R209). -/
def State.enqueue (s : State) (k : Nat) : State :=
  let kind := ((s.core k).work.head?.bind fun w => s.op w.op).map fun o => o.desc.isProduct
  let s := if kind = some false then s.beginTile k else s
  match s.running k with
  | some r =>
    match s.finished k r with
    | none => s
    | some g =>
      if s.asleep (k / 256) then s
      else if !r.tile.entry && decide (4 ≤ (s.core k).entries) then s.stall k
      else
        let s := s.enterFiles r.entry.a (r.tile.sliver.origin r.tile.t).1 (r.tile.sliver.extent r.tile.t).1 r.op.context
        (s.pushSlug k r.op r.tile g).rescueLog k r.op.seq (fld g.status 8 2) (fld g.status 10 1) (bit g.status 11)
  | none => s

/-! ## The feeder (R222) -/

/-- The tile for which a line and index are fetched: the one in the array, or ahead of it the next (R222); with its
round, and whether it is the next. -/
def Side.target (d : Side) (c : Core) (t : Tile) (scale : Bool) (line idx : Nat) : Option (Nat × Nat × Bool) :=
  let holds (n : Nat) : Bool :=
    let (l, m) := d.span n
    let (j, q) := blocksOf scale (d.indices n).1 (d.indices n).2
    decide (l ≤ line) && decide (line < l + m) && decide (j ≤ idx) && decide (idx < j + q)
  if holds t.t then some (t.t, t.round, false)
  else match c.work with
    | w :: _ => if w.op = t.op ∧ w.sliver = t.sliver ∧ holds w.next = true then some (w.next, t.round + 1, true) else none
    | [] => none

/-- Does the side come through the feeder store: an operand of a product, or the source of a MOVE (R222, R210)? -/
def Side.isFed (d : Side) : Bool :=
  (d.op.desc.isProduct || (d.op.opcode == opMove && !d.sideB))
    && (match d.operand with
      | .accFile _ | .none => false
      | _ => true)

/-- The fetched rectangle enters the feeder store, with what the code of the store finds (R222, R393). -/
def State.feed (s : State) (k : Nat) (d : Side) (scale ahead : Bool) (rect : Rect) (codes : List Nat) (used : SMap Byte)
    (ecc : Ecc) : State :=
  let f := s.injectWord (coreKey k 0) (rect.line0 * 2 ^ 20 + rect.k0 * 4 + 2 * b2n scale + b2n d.sideB) ecc
  match f.2 with
  | .control => f.1.controlLost
  | .uncorrectable => f.1.coreLost k (some d.op.id)
  | found =>
    let s := if found = .corrected then f.1.correctedError else f.1
    (s.setCore k ({ s.core k with arrived := used }.load d scale (!ahead) rect codes)).active (k / 256) evLine
      (some d.op.job)

/-- FEEDER_FETCH (R222): an access returns its line into the feeder store, or what is missing of it is asked for; the
array goes on with it. -/
def State.feederFetch (s : State) (k : Nat) (sideB scale : Bool) (line idx : Nat) (ecc : Ecc) : State :=
  let s := s.beginTile k
  match s.running k with
  | some r =>
    let d := r.side sideB
    let c := s.core k
    let wanted := d.isFed && !(scale && !d.hasScale s) && (d.at s scale line idx).isSome
      && (c.findLine d scale line idx).isNone
    match d.target c r.tile scale line idx with
    | some (n, round, ahead) =>
      if !wanted || s.asleep (k / 256) then s
      else
        let round := if s.streamed d then round else 0
        let rect := d.fetchRect s n scale line idx
        (match s.fetched d scale k 0 rect line idx round with
        | some codes => (s.feed k d scale ahead rect codes (s.usedBytes d scale k 0 rect line idx round) ecc).arrayOn k
        | none => s.fetchMissing d scale k 0 rect line idx round)
    | none => s
  | none => s

/-! ## The meanings of the commands -/

def execFeederFetch (core : Fin 81920) (sideB : Bool) (line : Nat) (part : FeedPart) (ecc : Ecc) (s : State) :
    Outcome :=
  .next (match part with
    | .element i => s.feederFetch core.val sideB false line i ecc
    | .scale b => s.feederFetch core.val sideB true line b ecc)

def execPassStart (core : Fin 81920) (s : State) : Outcome := .next (s.runPass core.val)

def execBlockPromotion (core : Fin 81920) (s : State) : Outcome := .next (s.promoteNext core.val)

def execTileComplete (core : Fin 81920) (s : State) : Outcome := .next (s.completeTile core.val)

def execSlugEnqueue (core : Fin 81920) (s : State) : Outcome := .next (s.enqueue core.val)

end Sys2Proof.Machine
end

