-- ==== Sys2Proof/Machine/Drain.lean ====
section
/-!
DEFINITION. The drain (R176 to R213): tile buffers, the chain's stages, recast-in and recast-out, the writes of
a slug, their merges (R173), and the commit of slugs.
-/

namespace Sys2Proof.Machine

/-! ## Chain records (R183 to R188) -/

/-- Word `i` of a chain record: 0 CFG, 1 BUF, 2 to 9 the stages, 10 and 11 K0 and K1. -/
def chainWord (r : List Word) (i : Nat) : Nat := ((r[i]?).getD 0).toNat

def chainStages (r : List Word) : Nat := fld (chainWord r 0) 0 4
def chainMask (r : List Word) : Nat := fld (chainWord r 0) 4 3
def chainBlank (r : List Word) : Bool := bit (chainWord r 0) 7
def chainLocal (r : List Word) (b : Nat) : Bool := bit (chainWord r 0) (8 + b)
def chainHandle (r : List Word) (b : Nat) : Nat := fld (chainWord r 1) (8 * b) 6
def chainLoad (r : List Word) (b : Nat) : Nat := fld (chainWord r 1) (8 * b + 6) 2

structure Stage where
  func : Nat
  b    : Nat
  c    : Nat
  mode : Nat
  imm  : Nat
  deriving DecidableEq, Repr

def Stage.ofWord (w : Nat) : Stage :=
  { func := fld w 0 5, b := fld w 5 4, c := fld w 9 4, mode := fld w 13 3, imm := fld w 16 16 }

/-- The stages in use, in order. -/
def stagesOf (r : List Word) : List Stage :=
  (List.range (chainStages r)).map fun i => Stage.ofWord (chainWord r (2 + i))

def fRred : Nat := 0xD
def fDrop : Nat := 0xF

/-- Latency of a stage (R189); RRED has none of its own. -/
def Stage.latency (g : Stage) : Nat :=
  if g.func = 5 then 3 else if 9 ≤ g.func ∧ g.func ≤ 0xC then 6 else if g.func = fRred then 0 else 2

def hasRred (r : List Word) : Bool := (stagesOf r).any (·.func == fRred)

/-- The chain of an operation; MOVE has none. -/
def OpRec.stages (o : OpRec) : List Stage := if o.desc.hasChain then stagesOf o.chain else []

def OpRec.load (o : OpRec) (b : Nat) : Nat :=
  if !o.desc.hasChain then 0
  else if o.opcode = opElementwise ∧ (b = 3 ∨ (b = 2 ∧ o.desc.pair 4 ≠ 0)) then 1
  else chainLoad o.chain b

/-- Sources that a stage reads (R187). -/
def Stage.sources (g : Stage) : List Nat :=
  match g.func with
  | 2 | 3 | 4 | 7 | 8 | 0xF => [g.b]
  | 5 | 6 | 0xE => [g.b, g.c]
  | _ => []

/-- The stages before RRED, which run in the first sweep, and those after it (R207). -/
def OpRec.before (o : OpRec) : List Stage := o.stages.takeWhile (·.func != fRred)
def OpRec.rred (o : OpRec) : Option Stage := o.stages.find? (·.func == fRred)
def OpRec.after (o : OpRec) : List Stage := (o.stages.dropWhile (·.func != fRred)).drop 1

/-! ## Tile buffers (R196) -/

/-- Is the buffer filled as ELEMENTWISE's A or B (R210)? -/
def OpRec.tileSource (o : OpRec) (b : Nat) : Bool :=
  o.opcode == opElementwise && (b == 3 || (b == 2 && o.desc.pair 4 != 0))

/-- Segments of a slug in a sweep: four of 64 elements for 256 where a tile-shaped buffer is refilled (R196). -/
def OpRec.segments (o : OpRec) (v : Sliver) : Nat :=
  if (List.range 4).any fun b => o.load b == 1 then ceilDiv (v.mt * v.nt) 64 else 1

/-- Fills that must stand for a segment: in the first sweep those of every loaded buffer, in the second those of the
buffers that a stage after RRED reads. -/
def OpRec.fills (o : OpRec) (again : Bool) (seg : Nat) : List (Nat × Nat) :=
  (List.range 4).filterMap fun b =>
    if o.load b = 0 || (again && !(o.after.any fun g => g.sources.contains (b + 4))) then none
    else some (b, if o.load b = 1 then seg else 0)

/-- Segment and sweep that the core's chain is at, for the slug that it holds or takes next. -/
def Core.chainAt (c : Core) : Bool × Nat := match c.chain with
  | some x => (x.again, x.seg)
  | none => (false, 0)

/-- Place of a value in the core's buffers. -/
def bufKey (b i : Nat) : Nat := b * 64 + i

/-- Places of a chain buffer's elements: buffer index, byte place (R196, R229). -/
def chainPlaces (s : State) (o : OpRec) (v : Sliver) (t b g : Nat) : List (Nat × (Nat × Nat × Nat)) :=
  let c := v.cluster
  let e := s.handle c (chainHandle o.chain b)
  let w := fmtWidth e.fmt
  let (r0, c0) := v.origin t
  let (nr, nc) := v.extent t
  let (dr, dc) := if chainLocal o.chain b then (v.row0, v.col0) else (0, 0)
  match o.load b with
  | 1 => ((v.elems t).filter fun x => x.1 / 64 == g).map fun x =>
      (x.1 % 64, elemPlace 0 e.stride w (r0 + x.2.1 - dr) (c0 + x.2.2 - dc))
  | 2 => (List.range nc).map fun j => (j, elemPlace 0 0 w 0 (c0 + j - dc))
  | _ => (List.range nr).map fun i => (i, elemPlace 0 0 w 0 (r0 + i - dr))

def placesNeeds (l : List (Nat × (Nat × Nat × Nat))) : List Nat :=
  (l.flatMap fun p => (List.range p.2.2.2).map (p.2.1 + ·)).foldl setIns []

/-- A fill is in place: values with the flags of their conversion. -/
def Core.fill (c : Core) (b seg : Nat) (vals : List (Nat × Word × Nat)) (used : SMap Byte) : Core :=
  { c with
    bufs := vals.foldl (fun m x => SMap.put m (bufKey b x.1) x.2.1) c.bufs
    bufFlags := vals.foldl (fun m x => SMap.putD m (bufKey b x.1) x.2.2 0) c.bufFlags
    arrived := used
    filled := c.filled ++ [(b, seg)] }

/-- Fill a buffer from a chain's handle: QS32 codes (R199). -/
def State.fillChain (s : State) (k : Nat) (o : OpRec) (g : Slug) (b seg : Nat) : State :=
  let h := chainHandle o.chain b
  let places := chainPlaces s o g.sliver g.t b seg
  let needs := placesNeeds places
  let missing := needs.filter fun a => (s.arrivedByte k useBuf h a).isNone
  if missing.isEmpty then
    let f := (s.handle (k / 256) h).fmt
    let vals := places.map fun p =>
      let bytes := (List.range p.2.2.2).map fun i => (s.arrivedByte k useBuf h (p.2.1 + i)).getD 0
      (p.1, (toQs32 (decodeNum f (codeOf bytes p.2.2.1 (fmtWidth f)))).1, 0)
    let used := needs.foldl (fun m a => SMap.del m (arrivedKey useBuf h a)) (s.core k).arrived
    s.setCore k ((s.core k).fill b seg vals used)
  else s.fetchHandle o k useBuf h missing

/-- Decoding of an ELEMENTWISE operand's element (R211). -/
def recastTile (f scaleWord code : Nat) (fine : Option Nat) : Num × Nat :=
  let (w, fl) := toQs32 ((scaleElem (decodeElem f code) (coarseExp scaleWord) fine).num.mul (coarseSig scaleWord)).1
  (qs32 w, fl)

/-- Fill buffer 3 with A's tile, or buffer 2 with B's, decoded to QS32 (R210, R211), once every element and scale byte
of it is at hand. -/
def State.fillTile (s : State) (k : Nat) (o : OpRec) (e : Entry) (g : Slug) (b : Nat) : State :=
  let d : Side := { op := o, entry := e, v := g.sliver, sideB := b == 2 }
  let scaleWord := if b = 2 then o.desc.bScale else o.desc.aScale
  let (r0, _) := g.sliver.origin g.t
  let (j0, _) := d.indices g.t
  let round := if s.streamed d then g.t - (g.sliver.share (k % 256)).1 else 0
  let rect (scale : Bool) (line idx : Nat) : Rect := d.fetchRect s g.t scale line idx
  let one (scale : Bool) (line idx : Nat) : Option Nat :=
    (s.fetched d scale k useBuf (rect scale line idx) line idx round).map fun _ =>
      s.fetchCode d scale k useBuf round line idx
  let parts := (g.sliver.elems g.t).map fun x =>
    let line := r0 + x.2.1
    let idx := j0 + x.2.2
    (x.1, line, idx, one false line idx, if d.hasScale s then (one true line (idx / 32)).map some else some none)
  if parts.all fun x => x.2.2.2.1.isSome && x.2.2.2.2.isSome then
    let vals := parts.map fun x =>
      let r := recastTile d.format scaleWord (x.2.2.2.1.getD 0) (x.2.2.2.2.getD none)
      (x.1, (toQs32 r.1).1, r.2)
    let drop (m : SMap Byte) : SMap Byte := m.keep fun a => decide (a < useBuf) || decide (useMerge ≤ a)
    s.setCore k ((s.core k).fill b 0 vals (drop (s.core k).arrived))
  else
    parts.foldl
      (fun t x =>
        let t := if x.2.2.2.1.isNone then t.fetchMissing d false k useBuf (rect false x.2.1 x.2.2.1) x.2.1 x.2.2.1 round
          else t
        if x.2.2.2.2.isNone then
          t.fetchMissing d true k useBuf (rect true x.2.1 (x.2.2.1 / 32)) x.2.1 (x.2.2.1 / 32) round
        else t) s

/-- TILE_BUFFER_FILL (R196): a fill for the slug that the chain holds or takes next. -/
def State.fillBuffer (s : State) (k b seg : Nat) : State :=
  let c := s.core k
  match c.current with
  | some g =>
    match s.op g.op with
    | some o =>
      let p := c.chainAt
      if s.asleep (k / 256) || c.filled.contains (b, seg) || !(o.fills p.1 p.2).contains (b, seg) then s
      else if o.tileSource b then
        match o.entryOf g.sliver with
        | some e => s.fillTile k o e g b
        | none => s
      else s.fillChain k o g b seg
    | none => s
  | none => s

/-! ## The chain -/

/-- One unmasked element on its way through the chain: its value, whether it is lane-masked, and the flags that
it has raised with the cycle of each (R206, R207). -/
structure Cell where
  idx  : Nat
  i    : Nat
  j    : Nat
  v    : Num
  masked : Bool
  flags : List (Nat × Nat)
  deriving DecidableEq, Repr

def Cell.flag (c : Cell) (time fl : Nat) : Cell :=
  if fl = 0 || c.masked then c else { c with flags := c.flags ++ [(time, fl)] }

/-- Value of a tile buffer for an element, by its content (R196); a buffer that RRED wrote is a column vector (R194). -/
def bufVal (bufs : SMap Word) (load b : Nat) (c : Cell) : Num :=
  qs32 (SMap.getD bufs (bufKey b (match load with | 1 => c.idx % 64 | 2 => c.j | _ => c.i)) 0)

/-- What the stages of one slug read beside the element itself. -/
structure Env where
  k0   : Num
  k1   : Num
  /-- X0 of an element (R187), by index. -/
  x0   : SMap Word
  bufs : SMap Word
  loads : List Nat

/-- An operand of a stage for an element (R187). -/
def Env.operand (e : Env) (src imm : Nat) (c : Cell) : Num :=
  match src with
  | 0 => decodeNum 7 imm
  | 1 => e.k0
  | 2 => e.k1
  | 3 => qs32 (SMap.getD e.x0 c.idx 0)
  | n => bufVal e.bufs ((e.loads[n - 4]?).getD 0) (n - 4) c

/-- Round to QS32 (R182). -/
def round32 (x : Num) : Num × Nat :=
  let (w, fl) := toQs32 x
  (qs32 w, fl)

/-- A result that one rounding follows, with the invalid of its operands. -/
def rounded (r : Num × Bool) : Num × Nat :=
  let (v, fl) := round32 r.1
  (v, if r.2 then fl ||| fInvalid else fl)

/-- Multiply by a power of two, exactly. -/
def Num.shift (x : Num) (n : Int) : Num :=
  match x, n with
  | .fin a m d, .ofNat k => .fin a (m * 2 ^ k) d
  | .fin a m d, .negSucc k => .fin a m (d * 2 ^ (k + 1))
  | y, _ => y

/-- MAX and MIN of R192. -/
def vmax (v b : Num) : Num :=
  match v, b with
  | .nan, y => y
  | x, .nan => x
  | x, y => if x.lt y then y else x

def vmin (v b : Num) : Num :=
  match v, b with
  | .nan, y => y
  | x, .nan => x
  | x, y => if y.lt x then y else x

/-- CMPSEL's condition and its flag (R191). -/
def compare (cond : Nat) (v b : Num) : Bool × Nat :=
  if v.isNan || b.isNan then (cond == 5, if cond = 2 ∨ cond = 5 then 0 else fInvalid)
  else
    let lt := v.lt b
    let eq := v.eqv b
    (match cond with
      | 0 => lt
      | 1 => lt || eq
      | 2 => eq
      | 3 => !lt
      | 4 => !lt && !eq
      | _ => !eq, 0)

/-- A programmable stage other than RRED and DROP (R189 to R193). -/
def Stage.apply (g : Stage) (v b c : Num) : Num × Nat :=
  match g.func with
  | 1 => round32 (v.shift (twos 16 g.imm))
  | 2 => rounded (v.add b)
  | 3 => rounded (v.add b.negate)
  | 4 => rounded (v.mul b)
  | 5 =>
    let (p, inv) := v.mul b
    if inv then (.nan, fInvalid) else rounded (p.add c)
  | 6 =>
    let (take, fl) := compare g.mode v b
    (if take then v else c, fl)
  | 7 => (vmax v b, 0)
  | 8 => (vmin v b, 0)
  | 9 => let (w, fl) := vexp2 v; (qs32 w, fl)
  | 0xA => let (w, fl) := vlog2 v; (qs32 w, fl)
  | 0xB => let (w, fl) := vrecip v; (qs32 w, fl)
  | 0xC => let (w, fl) := vrsqrt v; (qs32 w, fl)
  | 0xE => (if v.isNan then v else vmin (vmax v b) c, 0)
  | _ => (v, 0)

/-- Row result of RRED (R194) over the values taken in. -/
def rowResult (isMax : Bool) (vs : List Num) : Num × Nat :=
  if isMax then (vs.foldl vmax .nan, 0)
  else
    let pinf := vs.any (· == .inf false)
    let ninf := vs.any (· == .inf true)
    let inv := if pinf && ninf then fInvalid else 0
    if vs.any (·.isNan) || (pinf && ninf) then (.nan, inv)
    else if pinf then (.inf false, 0)
    else if ninf then (.inf true, 0)
    else round32 (vs.foldl (fun a x => (a.add x).1) Num.zero)

/-- RRED over all rows: the elements afterwards, and the tile buffers with the column vector that it writes (R194). -/
def rredStage (g : Stage) (rows time : Nat) (cells : List Cell) (bufs : SMap Word) : List Cell × SMap Word :=
  (List.range rows).foldl
    (fun (acc : List Cell × SMap Word) i =>
      let row := acc.1.filter (·.i == i)
      let taken := if bit g.mode 2 then row.filter (!·.masked) else row
      let (r, fl) := rowResult (bit g.mode 0) (taken.map (·.v))
      let who := (row.find? (!·.masked)).map (·.idx)
      let cells := acc.1.map fun c =>
        if c.i = i then
          let c := if some c.idx = who then c.flag time fl else c
          if bit g.mode 1 then c else { c with v := r }
        else c
      let m := if bit g.mode 1 then SMap.put acc.2 (bufKey (g.b - 4) i) (toQs32 r).1 else acc.2
      (cells, m)) (cells, bufs)

/-- What a drain needs of the operation and the core. -/
structure DrainCtx where
  core : Nat
  seed : Nat
  dpos : Nat
  /-- Element groups that the core's lanes have processed for the operation (R84). -/
  base : Nat

def DrainCtx.draw (x : DrainCtx) (role idx : Nat) : Word :=
  laneDraw x.seed (laneStream role x.core (idx % 16)) x.dpos (x.base + idx / 16)

/-- One stage other than RRED over elements. `time` gives the cycle at which an element leaves the stage. -/
def runStage (x : DrainCtx) (e : Env) (time : Nat → Nat) (g : Stage) (cells : List Cell) : List Cell :=
  cells.map fun c =>
    let b := e.operand g.b g.imm c
    let cc := e.operand g.c g.imm c
    let (v, fl) :=
      if g.func = fDrop then
        (if ((x.draw 1 c.idx).toNat / 65536) < g.imm then rounded (c.v.mul b) else (Num.zero, 0))
      else g.apply c.v b cc
    { c with v := v }.flag (time c.idx) fl

/-- Stages in order. `t` is the cycle, before the element's group is added, at which the first one's operands are
there (R207). -/
def runStages (x : DrainCtx) (e : Env) : List Stage → Nat → List Cell → List Cell
  | [], _, cells => cells
  | g :: rest, t, cells =>
    runStages x e rest (t + g.latency) (runStage x e (fun i => t + g.latency + i / 16) g cells)

def latencies (l : List Stage) : Nat := l.foldl (fun n g => n + g.latency) 0

/-- Cycle at which the row results of a chain with RRED are ready (R207). -/
def OpRec.rowsReady (o : OpRec) (groups : Nat) : Nat := groups - 1 + 2 + latencies o.before + 4

/-! ## Recast-in (R180, R181, R211) -/

/-- Product of the coarse significand parts. -/
def sigPart (a b : Nat) : Num := ((coarseSig a).mul (coarseSig b)).1

/-- Entry of a product's element: QS32 by the significand parts, or the exact integer. -/
def recastIn (o : OpRec) (w : Word) : Num × Nat :=
  if o.desc.accInt then (Num.ofInt (twos 32 w.toNat), 0)
  else rounded ((qs32 w).mul (sigPart o.desc.aScale o.desc.bScale))

/-! ## Recast-out -/

/-- Block of an element with fresh scales (R202). -/
def freshBlock (v : Sliver) (axis : Bool) (c : Cell) : Nat :=
  if axis then c.j else if v.mt = 4 then c.idx / 32 else c.i

/-- An encoded slug: codes by element index with their positions, `none` for elements not written, and scale
bytes by (line, block) of the destination. -/
structure Encoded where
  codes : List (Nat × Nat × Nat × Option Nat)
  scales : List ((Nat × Nat) × Nat)
  events : List (Nat × FxEvent)
  flags : Nat

/-- Capture kinds of drain flags (R206). -/
def drainKinds (fl : Nat) : List Nat :=
  (if bit fl 3 then [9] else []) ++ (if bit fl 2 then [10] else []) ++ (if bit fl 1 then [11] else [])

/-- Encode the elements (R201, R202) and gather flags and events (R206). `blank` gives lane-masked elements the
zero code, otherwise they are not written (R198). -/
def encode (x : DrainCtx) (o : OpRec) (v : Sliver) (t : Nat) (blank : Bool) (time : Nat → Nat)
    (cells : List Cell) : Encoded :=
  let f := o.desc.dstFmt
  let axis := o.desc.outAxis
  let (r0, c0) := v.origin t
  let cells := cells.map fun c => if c.masked then { c with v := Num.zero } else c
  let draw (c : Cell) : Option Nat := if o.desc.stochastic then some (x.draw 0 c.idx).toNat else none
  let blocks := if o.desc.fresh then dedup (cells.map (freshBlock v axis)) else []
  let scaleOf (b : Nat) : Nat := freshScale f ((cells.filter fun c => freshBlock v axis c == b).map (·.v))
  let scales := blocks.map fun b => (b, scaleOf b)
  let out := cells.map fun c =>
    let (code, fl) := match scales.find? (·.1 == freshBlock v axis c) with
      | some sc => if o.desc.fresh then convertFresh f sc.2 (draw c) c.v else convert f (draw c) c.v
      | none => convert f (draw c) c.v
    (c.flag (time c.idx) fl, code)
  let events := out.flatMap fun y => y.1.flags.flatMap fun z =>
    (drainKinds z.2).map fun kd => (z.1, (⟨kd, engVec, y.1.idx, 0xFFFFFFFF⟩ : FxEvent))
  { codes := out.map fun y =>
      (y.1.idx, r0 + y.1.i, c0 + y.1.j,
       if y.1.masked && (!blank || o.desc.cAcc) then none
       else if y.1.masked then some 0 else some y.2)
    scales := scales.filterMap fun sc =>
      (cells.find? fun c => freshBlock v axis c == sc.1).map fun c =>
        (if axis then (c0 + c.j, r0 + c.i) else (r0 + c.i, c0 + c.j), sc.2)
    events := events
    flags := out.foldl (fun a y => y.1.flags.foldl (fun a z => a ||| z.2) a) 0 }

/-- The elements of a slug at the entry of the chain, with recast-in's flags and their cycle (R180, R181, R211); those of
a MOVE are exact (R153). -/
def State.entryCell (s : State) (k : Nat) (o : OpRec) (e : Entry) (g : Slug) (x : Nat × Nat × Nat) : Cell :=
  let c := s.core k
  let code := ((g.codes.find? (·.1 == x.1)).map (·.2)).getD 0
  let (v, fl) : Num × Nat :=
    if o.opcode = opElementwise then
      (qs32 (SMap.getD c.bufs (bufKey 3 x.1) 0),
       SMap.getD c.bufFlags (bufKey 3 x.1) 0 ||| SMap.getD c.bufFlags (bufKey 2 x.1) 0)
    else if o.opcode = opMove then
      let (r0, c0) := g.sliver.origin g.t
      let (br, bc) := e.a.bandAt g.sliver
      let line := if o.desc.outAxis then c0 + x.2.2 else r0 + x.2.1
      let blk := (if o.desc.outAxis then r0 + x.2.1 - br else c0 + x.2.2 - bc) / 32
      let fine := if e.a.hasPlane s g.sliver.cluster then (g.scales.find? (·.1 == (line, blk))).map (·.2) else none
      ((scaleElem (decodeElem o.desc.srcFmt code.toNat) 0 fine).num, 0)
    else
      let r := recastIn o code
      if o.desc.accInt && !o.stages.isEmpty then let q := round32 r.1; (q.1, r.2 ||| q.2) else r
  let cell : Cell := { idx := x.1, i := x.2.1, j := x.2.2, v := v, masked := false, flags := [] }
  let mk := chainMask o.chain
  let masked := o.desc.hasChain && decide (4 ≤ mk) && (bufVal c.bufs (o.load (mk - 4)) (mk - 4) cell).isZero
  { cell with masked := masked }.flag (x.1 / 16 + 2) fl

/-- Are the values of the chain exact integers, which no stage has converted (R181, R153)? -/
def OpRec.intResult (o : OpRec) : Bool :=
  (o.desc.isProduct && o.desc.accInt && o.stages.isEmpty) || (o.opcode == opMove && o.desc.srcFmt == 9)

/-- A value of the forme (R200), and the word that holds it. -/
def OpRec.valueOf (o : OpRec) (w : Word) : Num := if o.intResult then Num.ofInt (twos 32 w.toNat) else qs32 w

def OpRec.wordOf (o : OpRec) (g : Slug) (c : Cell) : Word :=
  if o.intResult || o.desc.bitCopy then ((g.codes.find? (·.1 == c.idx)).map (·.2)).getD 0 else (toQs32 c.v).1

/-- What recast-out, or the second sweep, reads back from the forme for an element. -/
def Chain.cell (x : Chain) (o : OpRec) (e : Nat × Nat × Nat) : Cell :=
  { idx := e.1, i := e.2.1, j := e.2.2, v := o.valueOf (SMap.getD x.vals e.1 0), masked := setHas x.masked e.1,
    flags := x.flags.filterMap fun f => if f.1 = e.1 then some f.2 else none }

/-- Results of elements enter the forme. -/
def Chain.take (x : Chain) (o : OpRec) (cells : List Cell) : Chain :=
  { x with
    vals := cells.foldl (fun m c => SMap.put m c.idx (o.wordOf x.slug c)) x.vals
    masked := cells.foldl (fun m c => if c.masked then setIns m c.idx else m) x.masked
    flags := (x.flags.filter fun f => !(cells.any fun c => c.idx == f.1))
      ++ cells.flatMap fun c => c.flags.map fun f => (c.idx, f) }

def Chain.ctx (x : Chain) (k : Nat) (o : OpRec) : DrainCtx :=
  { core := k, seed := o.desc.seed, dpos := o.desc.dataPos, base := x.base }

def OpRec.env (o : OpRec) (bufs x0 : SMap Word) : Env :=
  { k0 := qs32 (w32 (chainWord o.chain 10)), k1 := qs32 (w32 (chainWord o.chain 11)), x0 := x0, bufs := bufs,
    loads := (List.range 4).map o.load }

/-- The elements of the segment that the chain is at. -/
def Chain.elems (x : Chain) (o : OpRec) : List (Nat × Nat × Nat) :=
  let all := x.slug.sliver.elems x.slug.t
  if o.segments x.slug.sliver = 1 then all else all.filter fun e => e.1 / 64 == x.seg

/-- One segment of the slug passes the stages of the sweep. -/
def State.chainSegment (s : State) (k : Nat) (o : OpRec) (e : Entry) (x : Chain) : Chain :=
  let bufs := (s.core k).bufs
  let groups := x.slug.sliver.mt * x.slug.sliver.nt / 16
  if x.again then
    x.take o (runStages (x.ctx k o) (o.env bufs x.x0) o.after (o.rowsReady groups) ((x.elems o).map (x.cell o)))
  else
    let cells := (x.elems o).map (s.entryCell k o e x.slug)
    let x0 := cells.foldl (fun m c => SMap.put m c.idx (toQs32 c.v).1) x.x0
    { x with x0 := x0 }.take o (runStages (x.ctx k o) (o.env bufs x0) o.before 2 cells)

/-! ## The writes of a slug (R173, R203) -/

/-- Put an element's bits into 4-byte words, by word address: value and mask. -/
def putBits (m : SMap (Nat × Nat)) (bitAddr width code : Nat) : SMap (Nat × Nat) :=
  let w := bitAddr / 32
  let o := bitAddr % 32
  let add (m : SMap (Nat × Nat)) (w v k : Nat) : SMap (Nat × Nat) :=
    let x := SMap.getD m w (0, 0)
    SMap.put m w (x.1 ||| v, x.2 ||| k)
  let v := code % 2 ^ width * 2 ^ o
  let k := (2 ^ width - 1) * 2 ^ o
  let m := add m w (v % 2 ^ 32) (k % 2 ^ 32)
  if 32 < o + width then add m (w + 1) (v / 2 ^ 32) (k / 2 ^ 32) else m

/-- A write of the forme that continues another: it is contiguous, the two stay within 64 bytes, and, for a handle,
within one slot (R203, R215). -/
def FormeWrite.joins (slots : Bool) (x y : FormeWrite) : Bool :=
  y.addr == x.addr + x.data.length && decide (x.data.length + y.data.length ≤ 64)
    && (!slots || y.addr / 64 == x.addr / 64)

/-- Writes of whole units in ascending order, joined as far as they may be; a unit with `alone` is a write of its own
(R173). -/
def joinWrites (slots : Bool) (alone : FormeWrite → Bool) (l : List FormeWrite) : List FormeWrite :=
  (l.foldl
    (fun (acc : List FormeWrite) y =>
      match acc with
      | x :: r =>
        if !alone x && !alone y && x.joins slots y then ⟨x.addr, x.data ++ y.data, x.mask ++ y.mask⟩ :: r
        else y :: acc
      | [] => [y]) []).reverse

/-- Words as writes: each contiguous run of up to 64 bytes is one write (R203), and a word that also holds a bit that is
not written is merged by itself (R173, R215). -/
def wordWrites (slots : Bool) (m : SMap (Nat × Nat)) : List FormeWrite :=
  joinWrites slots (fun w => w.mask.any (· != 0xFF)) (m.map fun x => ⟨4 * x.1, toLE 4 x.2.1, toLE 4 x.2.2⟩)

/-- Elements of an accumulating write as runs of whole elements (R241, R284). -/
def elemWrites (slots : Bool) (bytes : Nat) (l : List (Nat × Nat)) : List FormeWrite :=
  joinWrites slots (fun _ => false) (l.map fun x => ⟨x.1, toLE bytes x.2, List.replicate bytes 0xFF⟩)

/-- The writes of a slug's encoded elements and scale bytes to its destination. -/
def State.slugWrites (s : State) (o : OpRec) (e : Entry) (g : Slug) (enc : Encoded) : List FormeWrite :=
  let v := g.sliver
  let f := o.desc.dstFmt
  let w := fmtWidth f
  let (r0, _) := v.origin g.t
  match e.c with
  | .accFile _ =>
    enc.codes.filterMap fun c => c.2.2.2.map fun code =>
      ⟨c.2.1 * 1024 + 4 * c.2.2.1, toLE 4 code, List.replicate 4 0xFF⟩
  | x =>
    let (br, bc) := x.bandAt v
    let (sr, sc) := x.shape e v
    let pitch := x.pitch s v.cluster
    let slots := match x with
      | .handle _ _ => true
      | _ => false
    let rows := (List.range (v.extent g.t).1).flatMap fun i =>
      let es := enc.codes.filterMap fun c =>
        if c.2.1 = r0 + i then c.2.2.2.map fun code => (c.2.2.1 - bc, code) else none
      let row := x.base + (r0 + i - br) * pitch
      if o.desc.cAcc then elemWrites slots (w / 8) (es.map fun y => (row + y.1 * w / 8, y.2))
      else wordWrites slots (es.foldl (fun m y => putBits m (8 * row + y.1 * w) w y.2) [])
    let axis := o.desc.outAxis
    let all := if axis then sr else sc
    let (lo, along) := if axis then (bc, br) else (br, bc)
    let plane := enc.scales.foldl
      (fun m y =>
        let blk := (y.1.2 - along) / 32
        let a := x.planeBase s v.cluster + (y.1.1 - lo) * planePitch all
        let m := putBits m (8 * (a + blk)) 8 y.2
        let nb := ceilDiv all 32
        if blk + 1 = nb then
          (List.range (planePitch all - nb)).foldl (fun m i => putBits m (8 * (a + nb + i)) 8 0) m
        else m) []
    rows ++ wordWrites slots plane

/-- A bit copy's codes and plane bytes (R153): each source block that the tile touches gives its byte to the
destination block of its first element in the tile. -/
def copyEncoded (o : OpRec) (e : Entry) (g : Slug) : Encoded :=
  let v := g.sliver
  let (r0, c0) := v.origin g.t
  let (br, bc) := e.a.bandAt v
  let along := if o.desc.outAxis then br else bc
  let start := if o.desc.outAxis then r0 else c0
  { codes := (v.elems g.t).map fun x =>
      (x.1, r0 + x.2.1, c0 + x.2.2, some (((g.codes.find? (·.1 == x.1)).map (·.2.toNat)).getD 0))
    scales := g.scales.map fun y => ((y.1.1, max start (along + 32 * y.1.2)), y.2)
    events := [], flags := 0 }

/-! ## SLUG_DRAIN (R207) -/

/-- Formes that still hold a slug whose writes have not all been issued (R200). -/
def Core.heldFormes (c : Core) : List Forme := c.formes.filter fun f => !f.writes.isEmpty

/-- May the chain take a slug: no slug is in it, and the formes that it needs are free (R200, R207)? -/
def State.formeFree (s : State) (k : Nat) (o : OpRec) : Bool :=
  let c := s.core k
  let rred (id : Nat) : Bool := ((s.op id).map fun p => p.rred.isSome).getD false
  c.chain.isNone && (if o.rred.isSome then c.heldFormes.isEmpty
    else decide (c.heldFormes.length < 2) && !(c.heldFormes.any fun f => rred f.op))

/-- The chain takes the oldest slug of the queue, whose entry stays taken until its last group is read (R177). -/
def State.chainTake (s : State) (k : Nat) : State :=
  let c := s.core k
  match c.chain, c.slugs with
  | none, g :: _ =>
    match s.op g.op with
    | some o =>
      if !s.formeFree k o then s
      else
        let base := (c.formes.filter (·.op == o.id)).foldl
          (fun n f => n + f.sliver.mt * f.sliver.nt / 16) ((c.mark o.id).groups)
        s.setCore k { c with chain := some { slug := g, again := false, seg := 0, base := base, vals := [], x0 := [],
                                             masked := [], flags := [] } }
    | none => s
  | _, _ => s

/-- The slug's queue entry is free (R177). -/
def Core.freeEntry (c : Core) (g : Slug) : Core :=
  { c with slugs := if c.slugs.head? = some g then c.slugs.drop 1 else c.slugs }

/-- Tile-shaped buffers are refilled for the next segment (R196). -/
def Core.nextSegment (c : Core) (o : OpRec) : Core :=
  { c with filled := c.filled.filter fun x => o.load x.1 != 1 }

/-- A slug has passed the chain: recast-out encodes what the forme holds, its writes stand in order, and its flags and
events are reported (R200 to R203, R206). -/
def State.chainEnd (s : State) (k : Nat) (o : OpRec) (e : Entry) (x : Chain) : State :=
  let g := x.slug
  let v := g.sliver
  let groups := v.mt * v.nt / 16
  let t := if o.rred.isSome then o.rowsReady groups + latencies o.after else 2 + latencies o.before
  let time (i : Nat) : Nat := (if o.desc.fresh then groups - 1 + t + 3 + 2 else t + 3) + i / 16
  let enc := if o.desc.bitCopy then copyEncoded o e g
    else encode (x.ctx k o) o v g.t (chainBlank o.chain) time ((v.elems g.t).map (x.cell o))
  let writes := s.slugWrites o e g enc
  let f : Forme :=
    { op := o.id, sliver := v, t := g.t, status := g.status ||| enc.flags, vals := if writes.isEmpty then [] else x.vals,
      masked := if writes.isEmpty then [] else x.masked, writes := writes, waiting := 0, merging := [], first := g.first,
      sent := false }
  let c := s.core k
  let s := s.setCore k { (c.freeEntry g) with
    chain := none, formes := c.formes ++ [f], filled := [], bufs := [], bufFlags := [],
    arrived := c.arrived.keep fun a => decide (a < useBuf) || decide (useMerge ≤ a) }
  let s := s.sticky k engVec enc.flags
  let s := s.fxOffer k o v g.t (orderEvents enc.events)
  s.active (k / 256) evGroup (some o.job) groups

/-- The slug in the chain goes on by one segment, once the buffers that it needs are filled (R208); `none` while it
waits. After the last segment of a first sweep the row results are formed and the second begins (R207). -/
def State.chainStep (s : State) (k : Nat) : Option State :=
  let c := s.core k
  match c.chain with
  | none => none
  | some x =>
    match s.op x.slug.op with
    | none => none
    | some o =>
      match o.entryOf x.slug.sliver with
      | none => none
      | some e =>
        if s.asleep (k / 256) || !((o.fills x.again x.seg).all fun y => c.filled.contains y) then none
        else
          let x := s.chainSegment k o e x
          if x.seg + 1 < o.segments x.slug.sliver then
            some (s.setCore k { (c.nextSegment o) with chain := some { x with seg := x.seg + 1 } })
          else
            match o.rred with
            | some g =>
              if x.again then some (s.chainEnd k o e x)
              else
                let v := x.slug.sliver
                let r := rredStage g v.mt (o.rowsReady (v.mt * v.nt / 16)) ((v.elems x.slug.t).map (x.cell o)) c.bufs
                some (s.setCore k { ((c.nextSegment o).freeEntry x.slug) with
                  bufs := r.2, chain := some { (x.take o r.1) with again := true, seg := 0 } })
            | none => some (s.chainEnd k o e x)

/-- Segments pass while their buffers stand, at most `n` of them. -/
def State.chainRun (s : State) (k : Nat) : Nat → State
  | 0 => s
  | n + 1 => match s.chainStep k with
    | some u => u.chainRun k n
    | none => s

/-- SLUG_DRAIN: the oldest slug enters the chain and passes it group by group (R207), with what parity finds in the
slug queue, the buffers and the forme (R393). -/
def State.drain (s : State) (k : Nat) (ecc : Ecc) : State :=
  let t := s.chainTake k
  match t.chainStep k with
  | none => if s.asleep (k / 256) then s else t
  | some _ =>
    let id := (t.core k).chain.map (·.slug.op)
    let f := t.injectParity (coreKey k 0) (((t.core k).chain.map (·.slug.t)).getD 0) ecc
    match f.2 with
    | .control => f.1.controlLost
    | .uncorrectable => f.1.coreLost k id
    | _ => f.1.chainRun k 8

/-! ## RECAST_WRITE (R203) -/

/-- The words of a write that hold a bit that it does not write (R173): the write's own word, if any. -/
def FormeWrite.partials (w : FormeWrite) : List Nat := if w.mask.all (· == 0xFF) then [] else [w.addr / 4]

/-- Key in the arrival buffer of a destination byte under a merge. -/
def mergeKey (x : Operand) (a : Nat) : Nat :=
  match x with
  | .handle h _ => arrivedKey useMerge h a
  | _ => 2 ^ 54 + a

/-- The bytes to write, the bits that are not the slug's taken from the bytes read (R173). -/
def FormeWrite.merged (w : FormeWrite) (get : Nat → Byte) : List Byte :=
  (List.range w.data.length).map fun i =>
    let d := (w.data[i]?).getD 0
    let m := (w.mask[i]?).getD 0
    if m = 0xFF then d else (d &&& m) ||| (get (w.addr + i) &&& ~~~m)

/-- Another slug of the same operation is merging one of the words (R36, R173). -/
def State.mergeBusy (s : State) (k : Nat) (f : Forme) (x : Operand) (ws : List Nat) : Bool :=
  s.cores.any fun p => p.2.formes.any fun y =>
    y.op == f.op && !(p.1 == k && y.t == f.t && y.sliver == f.sliver)
      && (match x with
          | .handle _ _ => p.1 / 256 == k / 256
          | _ => true)
      && y.merging.any fun w => ws.contains w

/-- Remove the issued write from its forme, which holds its results until the last one (R200). -/
def Core.shiftForme (c : Core) (f : Forme) (wait : Nat) (merging : List Nat) : Core :=
  { c with formes := c.formes.map fun y =>
      if y = f then
        let more := decide (1 < y.writes.length)
        { y with writes := y.writes.drop 1, waiting := y.waiting + wait, merging := merging, sent := true,
                 vals := if more then y.vals else [], masked := if more then y.masked else [] }
      else y }

/-- The core's lane stands: an access of it waits at a bank that cannot take it (R217, R238, R254). -/
def State.laneStalled (s : State) (k : Nat) : Bool :=
  (s.waiting (k / 256)).any fun a =>
    a.lane == k % 256
      && (match s.bank (bankKey (k / 256) a.bank.val) with
        | .on | .closing _ =>
          !s.tagAllows (k / 256) a && decide (16 ≤ (s.parkedAt (bankKey (k / 256) a.bank.val)).length)
        | _ => true)

/-- Back-pressure on recast-out (R208, R209): the crossbar lane stands, or the home port has no tag for the write. -/
def State.backPressed (s : State) (k : Nat) (x : Operand) : Bool :=
  match x with
  | .handle _ _ => s.laneStalled k
  | .record _ _ _ _ _ _ =>
    s.outst.any fun y => y.port == homePort (k / 256) && y.op.vc == 0 && y.held.isSome
  | _ => false

/-- Issue one write of a slug to its destination. A write to an accumulator file goes to the core whose row it is, by
its cluster's crossbar or, for a MOVE between files of two clusters, the mesh; the spec names no path (R160; DESIGN
CHOICE, log entry 87). -/
def State.issueWrite (s : State) (k : Nat) (o : OpRec) (f : Forme) (x : Operand) (w : FormeWrite) (d : List Byte) :
    State :=
  let c := k / 256
  match x with
  | .accFile base =>
    let core := base + w.addr / 1024
    let t := s.core core
    let t := t.enter o.context
    let s := s.setCore core { t with file := SMap.putD t.file (w.addr / 4 % 256) (w32 (ofLE d)) 0 }
    s.setCore k ((s.core k).shiftForme f 0 [])
  | .handle h _ =>
    let e := s.handle c h
    let lead := w.addr % 4
    let trail := (4 - (lead + d.length) % 4) % 4
    let (b, r, y) := e.place (s.writeSide c h (some o.id)) (w.addr - lead)
    let a : BankAcc :=
      { lane := k % 256, op := some o.id, bank := Fin.ofNat 48 b, row := Fin.ofNat 512 r, byte := y,
        kind := if o.desc.cAcc then .acc else .write, len := 0, data := zeros lead ++ d ++ zeros trail, lead := lead,
        trail := trail, fmt := e.fmt, handle := some h, tagMode := e.tagMode, timeout := e.timeout, dest := .slugWrite k f.sliver.entry f.t }
    (s.setWaiting c (s.waiting c ++ [a])).setCore k ((s.core k).shiftForme f 1 f.merging)
  | _ =>
    let p := homePort c
    let st := clusterStream c
    let (row, col) := f.sliver.origin f.t
    let why : Purpose := .opWrite o.id k row col
    let s := if o.desc.cAcc then
        let lead := w.addr % 4
        let dd := zeros lead ++ d
        let dd := dd ++ zeros ((4 - dd.length % 4) % 4)
        s.request { port := p, op := .wra, stream := st, addr := w.addr - lead, words := dd.length / 4,
                    fmt := o.desc.dstFmt, data := dd } why
      else s.writeMem p st w.addr d why
    let s := s.modOp o.id fun q =>
      { q with streams := if q.streams.contains (p, st) then q.streams else q.streams ++ [(p, st)] }
    s.setCore k ((s.core k).shiftForme f 0 [])

/-- RECAST_WRITE: the next write of the oldest forme that has one, after the reads of its merge. A write to
package memory waits for the journal's FLACK (R406). -/
def State.recastWrite (s : State) (k : Nat) : State :=
  let c := s.core k
  match c.heldFormes with
  | f :: _ =>
    match s.op f.op, f.writes with
    | some o, w :: _ =>
      match o.entryOf f.sliver with
      | none => s
      | some e =>
        let toMem := match e.c with
          | .record _ _ _ _ _ _ => true
          | _ => false
        let barred := match e.c with
          | .accFile base => s.fileBusy o (base + w.addr / 1024)
          | _ => false
        if barred || s.asleep (k / 256) || s.mute || (toMem && o.phase == .journaling) || s.backPressed k e.c then s
        else
          let parts := if o.desc.cAcc then [] else w.partials
          let bytes := parts.flatMap fun p => (List.range 4).map (4 * p + ·)
          let have_ (a : Nat) : Option Byte := SMap.find c.arrived (mergeKey e.c a)
          if s.mergeBusy k f e.c parts then s
          else if bytes.all fun a => (have_ a).isSome then
            let d := w.merged fun a => (have_ a).getD 0
            let c' := { c with arrived := bytes.foldl (fun m a => SMap.del m (mergeKey e.c a)) c.arrived }
            (s.setCore k c').issueWrite k o f e.c w d
          else
            let s := s.setCore k { c with formes := c.formes.map fun y =>
              if y = f then { y with merging := parts.foldl setIns y.merging } else y }
            match e.c with
            | .handle h _ =>
              let need := bytes.filter fun a => (have_ a).isNone
              s.fetchHandle o k useMerge h need
            | _ =>
              let asked := s.outst.any fun y => y.purpose == .merge o.id k
              if asked then s
              else
                let need := bytes.filter fun a => (have_ a).isNone
                (wordRuns need).foldl
                  (fun t r => t.readMem (homePort (k / 256)) (clusterStream (k / 256)) (4 * r.1) (4 * r.2)
                    (.merge o.id k)) s
    | _, _ => s
  | [] => s

/-! ## SLUG_COMMIT (R204, R412) -/

/-- The oldest forme's slug commits once its last write has been accepted; not before the journal's FLACK
(R406). -/
def State.commitSlug (s : State) (k : Nat) : State :=
  let c := s.core k
  match c.formes with
  | f :: rest =>
    match s.op f.op with
    | some o =>
      if !f.writes.isEmpty || f.waiting ≠ 0 || o.phase == .journaling then s
      else
        let m := c.mark o.id
        let c := { c with formes := rest }.setMark
          { m with slugs := m.slugs + 1, status := m.status ||| f.status,
                   groups := m.groups + f.sliver.mt * f.sliver.nt / 16 }
        let s := s.setCore k c
        let s := s.modOp o.id fun p =>
          { p with committed := p.committed + 1, flags := p.flags ||| flagsOfStatus f.status }
        s.settle o.id
    | none => s
  | [] => s

/-! ## The meanings of the commands -/

def execTileBufferFill (core : Fin 81920) (buf : Fin 4) (seg : Fin 4) (s : State) : Outcome :=
  .next (s.fillBuffer core.val buf.val seg.val)

def execSlugDrain (core : Fin 81920) (ecc : Ecc) (s : State) : Outcome := .next (s.drain core.val ecc)

def execRecastWrite (core : Fin 81920) (s : State) : Outcome := .next (s.recastWrite core.val)

def execSlugCommit (core : Fin 81920) (s : State) : Outcome := .next (s.commitSlug core.val)

end Sys2Proof.Machine
end

