-- ==== Sys2Proof/Machine/Checks.lean ====
section
/-!
DEFINITION. What an accepted descriptor is checked for (R135 to R155, R188, R210, R212, R249, R251, R258, R259,
R289, R294, R433, R454, R478): the layouts with their reserved bits, the operands, and the four steps of R137.
-/

namespace Sys2Proof.Machine

/-! ## Protection contexts (R452, R454) -/

def ProtEntry.matches (e : ProtEntry) (q job : Nat) : Bool :=
  bit e.scope.toNat 31 && bit e.scope.toNat q && decide (fld e.jobs.toNat 0 16 ≤ job)
    && decide (job ≤ fld e.jobs.toNat 16 16)

def ProtEntry.context (e : ProtEntry) : Nat := fld e.scope.toNat 16 8
def ProtEntry.endDark (e : ProtEntry) : Bool := bit e.scope.toNat 24

/-- First page of an entry's range and the page after its last. -/
def ProtEntry.span (e : ProtEntry) : Nat × Nat :=
  let b := fld e.baseLo.toNat 12 20 + 2 ^ 20 * fld e.baseHi.toNat 0 20
  (b, b + e.pages.toNat)

/-- The entry that gives a task its context: the lowest-indexed one that matches. -/
def State.taskEntry (s : State) (q job : Nat) : Option ProtEntry :=
  (s.prot.find? fun p => p.2.matches q job).map (·.2)

def State.taskContext (s : State) (q job : Nat) : Option Nat := (s.taskEntry q job).map (·.context)

/-- Cover 4 KiB pages from `p` up to `stop` by entries; each turn uses one entry at least once. -/
def coverPages (es : List (Nat × Nat)) : Nat → Nat → Nat → Bool
  | 0, p, stop => decide (stop ≤ p)
  | fuel + 1, p, stop =>
    if stop ≤ p then true
    else
      let top := es.foldl (fun m e => if e.1 ≤ p ∧ p < e.2 then max m e.2 else m) p
      if top = p then false else coverPages es fuel top stop

/-- Is an access of a task permitted? `right` is the bit of N_RIGHTS: 0 R, 1 W, 2 X (R454). -/
def State.permitted (s : State) (q job addr len right : Nat) : Bool :=
  if len = 0 then true
  else match s.taskContext q job with
    | none => false
    | some ctx =>
      let es := (s.prot.filter fun p =>
        p.2.matches q job && p.2.context == ctx && bit p.2.rights.toNat right).map (·.2.span)
      coverPages es (es.length + 1) (addr / 4096) ((addr + len + 4095) / 4096)

/-- Region 0h of the package address map (R293, R294). -/
def inMemory (addr len : Nat) : Bool := decide (addr + len ≤ 2 ^ 43)

/-! ## What the hub answers inside the step -/

def HubViewByte (v : HubView) (a : Nat) : Byte := ((v.bytes.find? (·.1 == a)).map (·.2)).getD 0

def viewBytes (v : HubView) (a n : Nat) : List Byte := (List.range n).map fun i => HubViewByte v (a + i)

/-- STATUS of the n-th attempt of a read that starts at an address. -/
def viewStatus (v : HubView) (a n : Nat) : Byte :=
  (((v.status.find? (·.1 == a)).bind fun p => p.2[n]?)).getD 0

/-- How a read of R346 ends. -/
inductive ReadEnd where
  | ok | refused | lost
  deriving DecidableEq, Repr

/-- One read, repeated once after F0h (R346, R395). -/
def viewEnd (v : HubView) (a : Nat) : ReadEnd :=
  let x := viewStatus v a 0
  if x = 0x10 then .refused
  else if x = 0xF0 then
    (if viewStatus v a 1 = 0xF0 then .lost else if viewStatus v a 1 = 0x10 then .refused else .ok)
  else .ok

/-- Start addresses of the reads that fetch a range (R284). -/
def readStarts (a n : Nat) : List Nat :=
  if n = 0 then []
  else (List.range ((a + n - 1) / 4096 - a / 4096 + 1)).map fun i => max a ((a / 4096 + i) * 4096)

/-- The worst end among the reads of a range. -/
def viewRange (v : HubView) (a n : Nat) : ReadEnd :=
  let es := (readStarts a n).map (viewEnd v)
  if es.contains .lost then .lost else if es.contains .refused then .refused else .ok

/-! ## Layouts and reserved bits (R135, R136, R142 to R152) -/

/-- Fields of an opcode's layout: byte offset, bytes, and the bits that a descriptor may set. -/
def layout (op : Nat) : List (Nat × Nat × Nat) :=
  let f32 := 2 ^ 32 - 1
  let f64 := 2 ^ 64 - 1
  let f52 := 2 ^ 52 - 1
  let tail (n : Nat) : List (Nat × Nat × Nat) :=
    (List.range ((64 - n) / 4)).map fun i => (n + 4 * i, 4, 0)
  (0, 4, 0xFFFF07FF) ::
    match op with
    | 1 => [(4, 4, f32 - 2 ^ 25), (8, 8, f64), (16, 8, f64), (24, 8, f64), (32, 4, f32), (36, 4, f32),
            (40, 8, f64 - 2 ^ 63), (48, 8, f64), (56, 8, f64)]
    | 2 => [(4, 4, f32 - 2 ^ 25), (8, 8, f64), (16, 8, f64), (24, 8, f64), (32, 4, f32), (36, 4, f32),
            (40, 8, 2 ^ 48 - 1), (48, 8, f64), (56, 8, f64)]
    | 3 => [(4, 4, f32 - 2 ^ 25), (8, 8, f52), (16, 4, 2 ^ 17 - 1), (20, 4, 0), (24, 4, 0), (28, 4, 0),
            (32, 4, f32), (36, 4, f32), (40, 8, f64 - 2 ^ 63), (48, 8, f64), (56, 8, f64)]
    | 4 => [(4, 4, 0xFC07CFFF), (8, 8, f64), (16, 8, f64), (24, 8, f64), (32, 4, f32), (36, 4, f32),
            (40, 8, 2 ^ 40 - 1), (48, 8, f64), (56, 8, f64)]
    | 5 => [(4, 4, 0x0007DF0F), (8, 8, f64), (16, 4, 0), (20, 4, 0), (24, 8, f64), (32, 4, 0), (36, 4, 0),
            (40, 8, 2 ^ 40 - 1), (48, 8, f64), (56, 8, f64)]
    | 6 => [(4, 4, 0x1F), (8, 8, f64), (16, 4, 0), (20, 4, 0), (24, 8, f52), (32, 4, f32)] ++ tail 36
    | 7 => [(4, 4, 1), (8, 4, 0x003F01FF), (12, 4, f32), (16, 4, f32)] ++ tail 20
    | 8 => [(4, 4, 3), (8, 8, f52), (16, 8, f64)] ++ tail 24
    | 9 => [(4, 4, 0x3F03)] ++ tail 8
    | 10 => [(4, 4, 0xF1), (8, 8, f64), (16, 8, f64), (24, 8, f64)] ++ tail 32
    | 11 => [(4, 4, 0), (8, 8, f64)] ++ tail 16
    | 12 => [(4, 4, 0), (8, 8, f64), (16, 8, f64)] ++ tail 24
    | 13 => [(4, 4, 1), (8, 8, f64), (16, 4, 0x01FF01FF)] ++ tail 20
    | _ => []

/-- Offset of the first field with a bit that its layout does not have. -/
def reservedBit (d : Desc) (op : Nat) : Option Nat :=
  ((layout op).find? fun f =>
    let x := d.toNat / 2 ^ (8 * f.1) % 2 ^ (8 * f.2.1)
    x &&& f.2.2 != x).map (·.1)

/-! ## Failures (R137, R478) -/

/-- A failed check: step of R137, OPERAND and OFFSET of R478, the list entry, and the page that refuses with
its cause and capture words. -/
structure Failure where
  step  : Nat
  who   : Nat
  off   : Nat
  entry : Option Nat := none
  page  : Option (Page × Nat × List Word) := none
  /-- Status, when it is not the step's own. -/
  status : Option Nat := none

def Failure.code (f : Failure) : Nat :=
  f.status.getD (match f.step with | 1 => 0x12 | 2 => 0x11 | _ => 0x10)

/-- First failure of a list of checks. -/
def firstOf : List (Option Failure) → Option Failure
  | [] => none
  | some f :: _ => some f
  | none :: t => firstOf t

def failIf (b : Bool) (f : Failure) : Option Failure := if b then some f else none

/-- The first failure of checks that stand in the order of the steps of R137, with a refusal of step 2 that
concerns the whole descriptor before its other refusals. -/
def orderSteps (dark : Option Failure) (l : List (Option Failure)) : Option Failure :=
  let fs := l.filterMap id
  match fs.find? (·.step == 1), dark with
  | some f, _ => some f
  | none, some f => some f
  | none, none => fs.head?

/-- What a descriptor is accepted with (R339): what the die samples at acceptance. -/
structure Sample where
  q      : Nat
  seq    : Word
  desc   : Desc
  first  : Nat
  count  : Nat
  rescue : Bool
  headAt : Word
  /-- The chain record copied at acceptance (R188). -/
  chain  : List Word
  context : Option Nat

/-! ## Operands -/

/-- One operand of a product, ELEMENTWISE or MOVE, as its checks see it. `shape` gives stored rows and columns,
plane lines and elements along a line, from the rows and columns of the output region that it serves. -/
structure Opnd where
  who   : Nat
  off   : Nat
  ref   : Nat
  x     : Operand
  fmt   : Nat
  shape : Nat → Nat → Nat × Nat × Nat × Nat
  write : Bool
  acc   : Bool
  conv  : Bool
  /-- Is a plane needed (`some true`), forbidden (`some false`) or free, in a cluster? -/
  plane : Nat → Option Bool

/-- Plane rule of an operand read in a format (R68). -/
def planeIn (f : Nat) : Option Bool :=
  if fmtNeedsScale f then some true else if fmtNoScale f then some false else none

/-- Records read at acceptance: reference to contents, `none` when it could not be read. -/
abbrev Records := List (Nat × Option Nat)

def Records.get (r : Records) (ref : Nat) : Option Nat := (r.find? (·.1 == ref)).bind (·.2)

/-- The operand that a reference names. -/
def resolve (r : Records) (ref : Nat) : Operand :=
  if ref = 0 then .none
  else match refKind ref with
    | 0 => match r.get ref with
      | some x => Operand.ofRecord x
      | none => .none
    | 1 => .handle (ref % 64) false
    | 2 => .handle (ref % 64) true
    | _ => .accFile (fld ref 0 17)

/-! ## Entries and shapes -/

/-- References of an entry: A, B, C. -/
structure Refs where
  a : Nat
  b : Nat
  c : Nat

/-- References of a descriptor that is no BATCHED (R142, R145, R152). -/
def Desc.refs (d : Desc) : Refs :=
  { a := d.pair 2, b := if d.opcode = opMove then 0 else d.pair 4, c := d.pair 6 }

/-- A list entry's references and effective dims (R149, R150). -/
def listEntry (d : Desc) (x : Nat) : Refs × Nat × Nat × Nat :=
  let dm := wordAt x 6 + 2 ^ 32 * wordAt x 7
  let own := bit dm 63
  let y := if own then dm else d.dims
  ({ a := wordAt x 0 + 2 ^ 32 * wordAt x 1, b := wordAt x 2 + 2 ^ 32 * wordAt x 3,
     c := wordAt x 4 + 2 ^ 32 * wordAt x 5 }, dimM y, dimN y, dimK y)

/-- The image shape of a CONV input: H, W, C, NI (R139, R145). -/
def State.convInput (s : State) (x : Sample) (r : Records) : Nat × Nat × Nat × Nat :=
  let ref := x.desc.pair 2
  match resolve r ref with
  | .record _ _ _ _ hw nc => (fld hw 0 16, fld hw 16 16, fld nc 0 16, fld nc 16 16)
  | .handle h _ =>
    let c := ((positions x.first x.count)[0]?).getD x.first
    let a := s.regN (handleKey c h 5)
    let b := s.regN (handleKey c h 6)
    (fld a 0 16, fld a 16 16, fld b 0 16, fld b 16 16)
  | _ => (0, 0, 0, 0)

/-- M, N and K of CONV (R146). -/
def convDims (g : ConvGeo) (h w c ni : Nat) : Nat × Nat × Nat :=
  (ni * g.outP h * g.outQ w, g.kout, g.kh * g.kw * c)

/-- The slivers of a descriptor's entries (index, m, n, k) (R157 to R160). Of a MOVE between two accumulator files R24
and R160 do not say which core handles a row where source and destination lie in different clusters: the model takes the
source's (DESIGN CHOICE, log entry 87). -/
def sliversOf (x : Sample) (es : List (Nat × Nat × Nat × Nat)) : List Sliver :=
  let d := x.desc
  let pos := positions x.first x.count
  if d.opcode = opBatched then d.plan.imposeList es pos
  else
    let fileAt (r : Nat) : Option Nat := if refKind r = 3 then some (fld r 0 17) else none
    es.flatMap fun e =>
      let base := if d.opcode = opMove then (fileAt d.refs.a).or (fileAt d.refs.c) else none
      match base with
      | some b => if e.2.1 = 0 ∨ 81920 < b + e.2.1 then [] else d.plan.imposeFiles b e.2.1 e.2.2.1
      | none => d.plan.impose e.1 e.2.1 e.2.2.1 e.2.2.2 pos

/-- Operands of an entry of a product, ELEMENTWISE or MOVE, with their stored shapes (R138, R141, R153, R210). -/
def State.operands (s : State) (x : Sample) (r : Records) (refs : Refs) (dims : Nat × Nat × Nat) (base : Nat)
    (cin : Nat × Nat × Nat × Nat) : List Opnd :=
  let d := x.desc
  let (_, _, k) := dims
  let axis := d.outAxis
  let cshape (m n : Nat) : Nat × Nat × Nat × Nat := if axis then (m, n, n, m) else (m, n, m, n)
  let rowshape (m n : Nat) : Nat × Nat × Nat × Nat := (m, n, m, n)
  let a := resolve r refs.a
  let b := resolve r refs.b
  let c := resolve r refs.c
  let o0 := base
  let o1 := base + 8
  let o2 := base + 16
  if d.opcode = opMove then
    let fa := d.srcFmt
    let fc := d.dstFmt
    let file (y : Operand) : Bool := match y with | .accFile _ => true | _ => false
    let pa (_ : Nat) : Option Bool := if file a then some false else planeIn fa
    let pc (cl : Nat) : Option Bool :=
      if d.bitCopy then some (a.hasPlane s cl) else some d.fresh
    [ { who := 1, off := 8, ref := refs.a, x := a, fmt := fa, shape := cshape, write := false, acc := false,
        conv := false, plane := pa },
      { who := 3, off := 24, ref := refs.c, x := c, fmt := fc, shape := cshape, write := true, acc := false,
        conv := false, plane := pc } ]
  else
    let oc : Opnd :=
      { who := 3, off := if d.opcode = opBatched then o2 else 24, ref := refs.c, x := c, fmt := d.outFmt,
        shape := cshape, write := true, acc := d.cAcc, conv := false, plane := fun _ => some d.fresh }
    if d.opcode = opElementwise then
      [ { who := 1, off := 8, ref := refs.a, x := a, fmt := d.aFmt, shape := rowshape, write := false,
          acc := false, conv := false, plane := fun _ => planeIn d.aFmt } ]
      ++ (if refs.b = 0 then [] else
        [ { who := 2, off := 16, ref := refs.b, x := b, fmt := d.bFmt, shape := rowshape, write := false,
            acc := false, conv := false, plane := fun _ => planeIn d.bFmt } ])
      ++ [oc]
    else
      let (h, w, ch, ni) := cin
      let pix := ni * h * w
      let isConv := d.opcode == opConv
      let ashape (m _n : Nat) : Nat × Nat × Nat × Nat :=
        if isConv then (pix, ch, pix, ch) else if d.transA then (k, m, m, k) else (m, k, m, k)
      let bshape (_m n : Nat) : Nat × Nat × Nat × Nat :=
        if d.transB then (n, k, n, k) else (k, n, n, k)
      let pa : Option Bool :=
        if d.accInt || (isConv && ch % 32 != 0) then some false else planeIn d.aFmt
      let pb : Option Bool := if d.accInt then some false else planeIn d.bFmt
      [ { who := 1, off := if d.opcode = opBatched then o0 else 8, ref := refs.a, x := a, fmt := d.aFmt,
          shape := ashape, write := false, acc := false, conv := isConv, plane := fun _ => pa },
        { who := 2, off := if d.opcode = opBatched then o1 else 16, ref := refs.b, x := b, fmt := d.bFmt,
          shape := bshape, write := false, acc := false, conv := false, plane := fun _ => pb },
        oc ]

/-- Rows and columns of the output that an operand serves in a sliver (R138). -/
def Opnd.region (o : Opnd) (m n : Nat) (v : Sliver) : Nat × Nat :=
  match o.x with
  | .handle _ true => (v.rows, v.cols)
  | _ => (m, n)

/-! ## Step 1 (R137) -/

def badFmt (f : Nat) : Bool := decide (9 < f)

/-- Field rules of the mode word, the scales and the geometry. A MOVE that converts into QW1 or QW2 with `out_fine` 0 is
faulted, as R68 asks with the bit copy as its one exception, though a row of R153 describes it (log entry 92). An
`acc_format` 1 on a MOVE without an accumulator file is accepted and has no effect: R72 faults any other descriptor that
has it, and R153 uses it for tile files alone. DESIGN CHOICE, log entry 93. -/
def fieldChecks (d : Desc) : Option Failure :=
  let f (off : Nat) : Failure := { step := 1, who := 0, off := off }
  let op := d.opcode
  let hasB := op != opElementwise || d.pair 4 != 0
  let short (x : Nat) : Bool := x == 0 || x == 1 || x == 9
  if op ≤ 4 then
    firstOf [
      failIf (badFmt d.aFmt || badFmt d.bFmt || badFmt d.outFmt || d.roundMode == 3) (f 4),
      failIf (short d.aFmt || (hasB && d.bFmt == 9)) (f 4),
      failIf ((d.outFmt ≤ 1 && !d.outFine) || (d.outFine && 7 ≤ d.outFmt)) (f 4),
      failIf (op == opElementwise && d.fresh) (f 4),
      failIf (d.cAcc && (d.outFine || d.outFmt < 7)) (f 4),
      failIf (d.accInt && (d.aFmt != 6 || d.bFmt != 6)) (f 4),
      failIf (d.shapePin == 7 || (match pinned d.shapePin with
        | some p => !(allowed d.fresh d.outAxis).1.contains p
        | none => false)) (f 4),
      failIf (op == opConv && d.transA) (f 4),
      failIf (op == opBatched && d.pair 2 % 32 != 0) (f 8),
      failIf (op == opBatched && 65536 < d.word 4) (f 16),
      failIf (!coarseLegal d.aScale || (d.accInt && d.aScale != 0x3FC00000)) (f 32),
      failIf ((hasB && !coarseLegal d.bScale) || (d.accInt && d.bScale != 0x3FC00000)) (f 36) ]
  else if op = opMove then
    firstOf [
      failIf (badFmt d.aFmt || badFmt d.outFmt || d.roundMode == 3) (f 4),
      failIf (d.outFine && 7 ≤ d.dstFmt) (f 4),
      failIf (d.dstFmt ≤ 1 && !d.outFine && !d.bitCopy) (f 4) ]
  else none

/-- Source codes 0 to 15 and modifiers that a stage's function uses (R187, R188). -/
def stageBad (g : Stage) : Bool :=
  let usesB := [2, 3, 4, 5, 6, 7, 8, 0xE, 0xF].contains g.func
  let usesC := [5, 6, 0xE].contains g.func
  g.func == 0 || 0x10 ≤ g.func || (usesB && 8 ≤ g.b) || (usesC && 8 ≤ g.c)
    || (g.func == 6 && 6 ≤ g.mode)
    || (g.func == fRred && bit g.mode 1 && (g.b < 4 || 7 < g.b))

/-- Tile buffers that a stage reads. -/
def Stage.reads (g : Stage) : List Nat :=
  let b := if [2, 3, 4, 5, 6, 7, 8, 0xE, 0xF].contains g.func && 4 ≤ g.b && g.b ≤ 7 then [g.b - 4] else []
  let c := if [5, 6, 0xE].contains g.func && 4 ≤ g.c && g.c ≤ 7 then [g.c - 4] else []
  b ++ c

/-- Buffer that a stage writes: RRED into a buffer. -/
def Stage.writes (g : Stage) : Option Nat :=
  if g.func = fRred ∧ bit g.mode 1 = true ∧ 4 ≤ g.b ∧ g.b ≤ 7 then some (g.b - 4) else none

/-- The chain record's checks that need no handle (R188, R210). -/
def chainBad (d : Desc) (r : List Word) : Bool :=
  let st := stagesOf r
  let ew := d.opcode == opElementwise
  let hasB := ew && d.pair 4 != 0
  let load := chainLoad r
  let mk := chainMask r
  let n := st.length
  let numbered := (List.range n).zip st
  let order := numbered.any fun x =>
    x.2.reads.any fun b =>
      let before := (st.take x.1).any fun g => g.writes == some b
      let after := (st.drop (x.1 + 1)).any fun g => g.writes == some b
      after || (load b == 0 && !before && !(hasB && b == 2))
  decide (8 < chainStages r) || (mk != 0 && mk < 4) || st.any stageBad
    || decide (1 < (st.filter (·.func == fRred)).length) || decide (1 < (st.filter (·.func == fDrop)).length)
    || order
    || st.any (fun g => match g.writes with | some b => load b != 0 | none => false)
    || (4 ≤ mk && load (mk - 4) != 1)
    || (4 ≤ mk && !chainBlank r && d.fresh) || (4 ≤ mk && chainBlank r && d.outFmt == 0)
    || (ew && (load 3 != 0 || (hasB && load 2 != 0)))

/-- Chain buffers that are loaded. -/
def loadedBufs (d : Desc) (r : List Word) : List Nat :=
  if d.hasChain then (List.range 4).filter fun b => chainLoad r b != 0 else []

/-- Step 1 for one operand of an entry over the slivers that take part. -/
def State.operandStep1 (s : State) (d : Desc) (o : Opnd) (m n : Nat) (vs : List Sliver) (rec : Records)
    (cin : Nat × Nat × Nat × Nat) : Option Failure :=
  let f : Failure := { step := 1, who := o.who, off := o.off }
  let missing := o.ref == 0
  let kind := refKind o.ref
  let badPlane (c : Nat) : Bool := match o.plane c with
    | some w => o.x.hasPlane s c != w
    | none => false
  let pitchBad (c : Nat) (v : Option Sliver) : Bool :=
    let (mr, nc) := match v with | some v => o.region m n v | none => (m, n)
    let (rows, cols, _, _) := o.shape mr nc
    decide (1 < rows) && decide (o.x.pitch s c < ceilDiv (cols * fmtWidth o.fmt) 8)
  let c0 := ((vs.head?).map (·.cluster)).getD 0
  if missing || !refLegal o.ref then some f
  else match kind with
    | 0 =>
      match rec.get o.ref with
      | none => none
      | some y =>
        match recordFault y with
        | some off => some { f with off := off }
        | none => firstOf [failIf (badPlane c0 || vs.any fun v => badPlane v.cluster) f, failIf (pitchBad c0 none) { f with off := 16 }]
    | 3 => failIf (d.opcode != opMove || n != 256 || badPlane c0) f
    | k =>
      if k = 2 ∧ (d.opcode = opBatched ∨ o.conv) then some f
      else
        firstOf (vs.map fun v =>
          let c := v.cluster
          let e := s.handle c (o.ref % 64)
          let (h, w, ch, ni) := cin
          let a := s.regN (handleKey c (o.ref % 64) 5)
          let b := s.regN (handleKey c (o.ref % 64) 6)
          let first := s.handle ((vs.head?.map (·.cluster)).getD c) (o.ref % 64)
          failIf (e.fmt != o.fmt || (o.acc && e.tagMode != 0) || badPlane c || pitchBad c (some v)
            || (o.conv && ((fld a 0 16, fld a 16 16, fld b 0 16, fld b 16 16) != (h, w, ch, ni)
                || e.stride != first.stride))) f)

/-! ## Step 2 -/

/-- A refusal by the STORE page with cause 0Ah (R258, R261). -/
def storeRefusal (x : Sample) (c : Nat) (h : Option Nat) (who off : Nat) : Failure :=
  { step := 2, who := who, off := off,
    page := some (pgStore c, 0x0A,
      [ match h with | some h => w32 (h * 2097152 + 134217728) | none => 0,
        errSource 256 x.q x.desc.job, x.seq ]) }

/-- Has the handle dark POWER or a dark bank (R258)? -/
def State.handleDark (s : State) (c h : Nat) : Bool :=
  let e := s.handle c h
  e.power == 2 || (List.range 48).any fun b => e.count != 0 && e.inBank b && s.bank (bankKey c b) == .dark

/-- A cluster of the set whose island is dark (R382). -/
def State.darkIsland (s : State) (x : Sample) : Option Failure :=
  (s.darkClusters.find? fun c => decide (x.first ≤ c) && decide (c < x.first + x.count)).map fun c =>
    { step := 2, who := 0, off := 0, page := some (pgIsland c, 2, [x.seq]) }

/-- Staging rules of one cluster (R162). -/
def State.stagingCheck (s : State) (x : Sample) (c : Nat) (records : Bool) (handles : List (Nat × Nat × Nat)) :
    Option Failure :=
  if !records then none
  else
    let (_, n) := s.staging c
    let hit := handles.find? fun h =>
      let e := s.handle c h.1
      (List.range 48).any fun b => s.inStaging c b && e.count != 0 && decide (e.base ≤ b)
        && decide (b < e.base + e.count * (if e.twin then 2 else 1))
    if n < 2 then some { step := 2, who := 0, off := 0xFF, page := some (pgComp c, 1, [x.seq]) }
    else hit.map fun h => { step := 2, who := h.2.1, off := h.2.2, page := some (pgComp c, 2, [x.seq, w32 h.1]) }

/-- Step 2 for the handles named, in ascending clusters; `all` are the handles of the whole descriptor, which no staging
area may overlap, and `records` whether it names a record operand (R162). -/
def State.handlesStep2 (s : State) (x : Sample) (clusters : List Nat) (records : Bool)
    (all handles : List (Nat × Nat × Nat)) : Option Failure :=
  firstOf ((clusters.foldl setIns []).map fun c =>
    firstOf [ s.stagingCheck x c records all,
      (handles.find? fun h => s.handleDark c h.1).map fun h => storeRefusal x c (some h.1) h.2.1 h.2.2 ])

/-! ## Step 3 -/

/-- Package-memory range of a record operand with its plane: (address, bytes) of each. -/
def Opnd.ranges (o : Opnd) (m n : Nat) : List (Nat × Nat) :=
  match o.x with
  | .record base plane pitch _ _ _ =>
    let (rows, cols, lines, red) := o.shape m n
    (base, occupied rows cols (fmtWidth o.fmt) pitch)
      :: (match plane with | some p => [(p, lines * planePitch red)] | none => [])
  | _ => []

def State.operandStep3 (s : State) (x : Sample) (o : Opnd) (m n : Nat) (vs : List Sliver) (rec : Records) :
    Option Failure :=
  let f : Failure := { step := 3, who := o.who, off := 0xFF }
  let right := if o.write then 1 else 0
  match refKind o.ref, o.x with
  | 0, .record base plane pitch extent hw nc =>
    let rs := Opnd.ranges { o with x := .record base plane pitch extent hw nc } m n
    let (rows, cols, _, _) := o.shape m n
    failIf (decide (64 * extent < occupied rows cols (fmtWidth o.fmt) pitch)
      || rs.any fun r => !inMemory r.1 r.2 || !s.permitted x.q x.desc.job r.1 r.2 right) f
  | 0, _ => failIf (rec.get o.ref).isNone { f with who := 5 }
  | 3, .accFile base => failIf (decide (81920 < base + m)) f
  | _, .handle h _ =>
    firstOf (vs.map fun v =>
      let e := s.handle v.cluster h
      let (mr, nc) := o.region m n v
      let (rows, cols, lines, red) := o.shape mr nc
      failIf (decide (e.extent < occupied rows cols (fmtWidth o.fmt) e.stride)
        || (e.planeEn && decide (e.extent < e.planeOff + lines * planePitch red))) f)
  | _, _ => none

/-- Step 3 for a chain buffer's handle in the slivers that take part (R188, R196). -/
def State.bufferStep3 (s : State) (x : Sample) (b m n : Nat) (vs : List Sliver) : Option Failure :=
  firstOf (vs.map fun v =>
    let e := s.handle v.cluster (chainHandle x.chain b)
    let (mr, nc) := if chainLocal x.chain b then (v.rows, v.cols) else (m, n)
    let w := fmtWidth e.fmt
    let need := match chainLoad x.chain b with
      | 1 => occupied mr nc w e.stride
      | 2 => ceilDiv (nc * w) 8
      | _ => ceilDiv (mr * w) 8
    failIf (decide (e.extent < need)) { step := 3, who := 4, off := 0xFF })

/-! ## All checks of a product, ELEMENTWISE or MOVE -/

/-- One entry as checked: index, references, dims and its slivers. -/
structure EntryCheck where
  /-- Whether the descriptor names a record operand, and the handles that it names, over all entries (R162). -/
  records : Bool
  handles : List (Nat × Nat × Nat)
  index : Nat
  refs  : Refs
  m : Nat
  n : Nat
  k : Nat
  vs : List Sliver

/-- Handles that an entry names, its chain buffers' among them, with OPERAND and OFFSET of R478. -/
def State.entryHandles (s : State) (x : Sample) (r : Records) (refs : Refs) (dims : Nat × Nat × Nat)
    (cin : Nat × Nat × Nat × Nat) : List (Nat × Nat × Nat) :=
  ((s.operands x r refs dims 0 cin).filterMap fun o => match o.x with
    | .handle h _ => some (h, o.who, o.off)
    | _ => none) ++ (loadedBufs x.desc x.chain).map fun b => (chainHandle x.chain b, 4, 4)

/-- The slivers over which an entry's operands are checked. A shape without output imposes none, and its operands are
checked all the same (R141, R154): in the clusters of the set, or in that of the first accumulator file. -/
def checkedSlivers (x : Sample) (vs : List Sliver) (index : Nat) (refs : Refs) : List Sliver :=
  let mine := vs.filter fun v => v.entry == index
  if !mine.isEmpty then mine
  else
    let file := if refKind refs.a = 3 then some (fld refs.a 0 17)
      else if refKind refs.c = 3 then some (fld refs.c 0 17) else none
    let cs := match file with
      | some k => if k < 81920 then [k / 256] else []
      | none => positions x.first x.count
    cs.map fun c => { entry := index, cluster := c, row0 := 0, rows := 0, col0 := 0, cols := 0, mt := 8, nt := 8 }

/-- The three steps for one entry (R137, R151). -/
def State.entryChecks (s : State) (x : Sample) (r : Records) (cin : Nat × Nat × Nat × Nat) (e : EntryCheck)
    (dark : Option Failure) : Option Failure :=
  let d := x.desc
  let os := s.operands x r e.refs (e.m, e.n, e.k) 0 cin
  let bufs := loadedBufs d x.chain
  let handles := s.entryHandles x r e.refs (e.m, e.n, e.k) cin
  let tag (f : Failure) : Failure := if d.opcode = opBatched then { f with entry := some e.index } else f
  let res := [
    firstOf (os.map fun o => s.operandStep1 d o e.m e.n e.vs r cin),
    firstOf (e.vs.flatMap fun v => bufs.map fun b =>
      let h := s.handle v.cluster (chainHandle x.chain b)
      failIf (h.fmt ≤ 1 || 9 ≤ h.fmt || h.planeEn
          || (chainLoad x.chain b == 1 && decide (h.stride < ceilDiv (v.cols * fmtWidth h.fmt) 8)
              && decide (1 < v.rows)))
        { step := 1, who := 4, off := 4 }),
    s.handlesStep2 x (e.vs.map (·.cluster)) e.records e.handles handles,
    firstOf (os.map fun o => s.operandStep3 x o e.m e.n e.vs r),
    firstOf (bufs.map fun b => s.bufferStep3 x b e.m e.n e.vs) ]
  orderSteps dark (res.map (Option.map tag))

/-! ## The other opcodes -/

/-- Clusters that send a WINDOW_WRITE, in position order (R249). -/
def senders (x : Sample) : List Nat :=
  let pos := positions x.first x.count
  if refKind (x.desc.pair 2) = 2 then pos else pos.take 1

def State.windowChecks (s : State) (x : Sample) (r : Records) : List (Option Failure) :=
  let d := x.desc
  let fmt := fld (d.word 1) 0 4
  let acc := bit (d.word 1) 4
  let ref := d.pair 2
  let len := d.word 8
  let dest := d.pair 6 % 2 ^ 52
  let f (who off : Nat) : Failure := { step := 1, who := who, off := off }
  let cs := senders x
  let src := resolve r ref
  [
    failIf (badFmt fmt || (acc && fmt < 7)) (f 0 4),
    failIf (ref == 0 || refKind ref == 3 || !refLegal ref) (f 1 8),
    failIf (dest % 64 != 0) (f 6 24),
    failIf (len % 64 != 0) (f 0 32),
    (match refKind ref, r.get ref with
      | 0, some y => (recordFault y).map fun off => f 1 off
      | 0, none => none
      | _, _ => failIf (cs.any fun c => (s.handle c (ref % 64)).fmt != fmt) (f 1 8)),
    (if refKind ref = 0 then s.handlesStep2 x cs true [] []
      else s.handlesStep2 x cs false [] [(ref % 64, 1, 8)]),
    failIf (fld dest 48 4 != 8 || 8 ≤ fld dest 36 4 || 319 < fld dest 27 9 + cs.length - 1)
      { step := 3, who := 6, off := 0xFF },
    (match refKind ref, src with
      | 0, .record base _ _ extent _ _ =>
        failIf (!inMemory base len || 64 * extent < len || !s.permitted x.q d.job base len 0)
          { step := 3, who := 1, off := 0xFF }
      | 0, _ => some { step := 3, who := 5, off := 0xFF }
      | _, _ => failIf (cs.any fun c => (s.handle c (ref % 64)).extent < len) { step := 3, who := 1, off := 0xFF }),
    failIf ((List.range cs.length).any fun p => !s.permitted x.q d.job (dest + 2 ^ 27 * p) len 2)
      { step := 3, who := 6, off := 0xFF } ]

def State.waitChecks (s : State) (x : Sample) : List (Option Failure) :=
  let d := x.desc
  let c := fld (d.word 2) 0 9
  let ctr := fld (d.word 2) 16 6
  let linked := (s.windowOf c ctr).isSome
  [
    failIf (319 < c) { step := 1, who := 0, off := 8 },
    failIf (!linked && (bit (d.word 1) 0 || s.regN (winCountKey c ctr) < d.word 3)) (storeRefusal x c none 0 8) ]

/-- The checks of SIGNAL. In region Ah a position of 8 to 15, or a nonzero bit that R293 fixes at 0, names no address, as
another region does (R293, R294; log entry 94). -/
def signalChecks (s : State) (x : Sample) : List (Option Failure) :=
  let d := x.desc
  let kind := fld (d.word 1) 0 2
  let target := d.pair 2
  let region := fld target 48 4
  [
    failIf (kind == 3) { step := 1, who := 0, off := 4 },
    failIf (kind == 2 && fld (d.pair 4) 0 8 < 0x40) { step := 1, who := 0, off := 16 },
    failIf (!(match kind with
        | 0 => region == 0xA || region == 0xF
        | 1 => region == 0xF
        | _ => region == 0xA)) { step := 3, who := 6, off := 0xFF },
    failIf (region == 0xA && (8 ≤ fld target 36 4 || fld target 28 8 != 0)) { step := 3, who := 6, off := 0xFF },
    failIf (!s.permitted x.q d.job target 8 2) { step := 3, who := 6, off := 0xFF } ]

def fenceChecks (s : State) (x : Sample) : List (Option Failure) :=
  let d := x.desc
  let g := fld (d.word 1) 8 6
  [
    failIf (fld (d.word 1) 0 2 == 3) { step := 1, who := 0, off := 4 },
    failIf (fld (d.word 1) 0 2 == 2 && (s.group g).st != .formed && (s.group g).st != .degraded)
      { step := 2, who := 0, off := 4, page := some (pgGroup, 1, [w32 g]) } ]

/-- Clusters and handles of a SCRUB (R259). -/
def scrubRange (d : Desc) : Nat × Nat := (fld (d.word 4) 0 9, fld (d.word 4) 16 9)

def maskHandles (m : Nat) : List Nat := (List.range 64).filter (bit m)

/-- The checks of SCRUB (R258, R259). -/
def State.scrubChecks (s : State) (x : Sample) : List (Option Failure) :=
  let d := x.desc
  let (first, n) := scrubRange d
  let hs := maskHandles (d.pair 2)
  (failIf (n == 0 || 320 < first + n) { step := 1, who := 0, off := 16 } ::
    (setClusters first n).map fun c =>
      (hs.find? fun h => s.windowOpen c h || s.named c h || s.handleDark c h).map fun h => storeRefusal x c (some h) 0 8)

/-- Is a handle eligible for a securing or a restore (R417, R424)? -/
def State.eligible (s : State) (c h : Nat) : Bool :=
  let e := s.handle c h
  e.twin && e.count != 0 && e.tagMode == 0 && e.power != 2

/-- A refusal of the SECURE page (R417, R423). -/
def secureRefusal (cause d0 d1 : Nat) : Failure :=
  { step := 2, who := 0, off := 4, page := some (pgSecure, cause, [w32 d0, w32 d1]) }

/-- Bytes of an image and of its digest table (R422). -/
def State.imageExtent (s : State) (clusters : List Nat) (hs : List Nat) (encrypted : Bool) : Nat × Nat :=
  let tag := if encrypted then 64 else 0
  let secs := clusters.flatMap fun c => hs.map fun h => 64 * (s.handle c h).slots
  (256 + (8192 + tag) + secs.foldl (fun a b => a + b + tag) 0, 64 * (secs.length + 3))

/-- Section of a handle in an image: after section 0, by set position and rank (R422). -/
def sectionIndex (clusters hs : List Nat) (p : Nat × Nat) : Nat :=
  1 + clusters.findIdx (· == p.1) * hs.length + hs.findIdx (· == p.2)

/-- The checks of SECURE_STATE. An address outside region 0h is a format fault by R417, though R294 has an extent
fault for it (log entry 79); an empty key slot is refused whether or not `encrypt` is 1 (R417). -/
def State.secureChecks (s : State) (x : Sample) : List (Option Failure) :=
  let d := x.desc
  let save := d.pair 2
  let dig := d.pair 6
  let hs := maskHandles (d.pair 4)
  let cs := positions x.first x.count
  let slot := fld (d.word 1) 4 4
  let enc := bit (d.word 1) 0
  let (n, m) := s.imageExtent cs hs enc
  let bad := ((setClusters x.first x.count).flatMap fun c => hs.map fun h => (c, h)).find? fun p =>
    !s.eligible p.1 p.2
  [
    failIf (save % 64 != 0 || 2 ^ 48 ≤ save) { step := 1, who := 7, off := 8 },
    failIf (dig % 64 != 0 || 2 ^ 48 ≤ dig) { step := 1, who := 7, off := 24 },
    failIf s.securing.isSome (secureRefusal 1 0 0),
    bad.map fun p => secureRefusal 2 (p.1 + p.2 * 0x10000) (sectionIndex cs hs p),
    failIf ((!enc && bit (s.regN 0x4E100) 1) || (SMap.find s.sec.keys slot).isNone) (secureRefusal 7 0 0),
    failIf (!inMemory save n || !inMemory dig m || !s.permitted x.q d.job save n 1
      || !s.permitted x.q d.job dig m 1) { step := 3, who := 7, off := 0xFF } ]

def State.restoreChecks (s : State) (x : Sample) : List (Option Failure) :=
  let d := x.desc
  let base := d.pair 2
  let dig := d.pair 4
  [
    failIf (base % 64 != 0 || 2 ^ 52 ≤ base) { step := 1, who := 7, off := 8 },
    failIf (dig % 64 != 0 || 2 ^ 52 ≤ dig) { step := 1, who := 7, off := 16 },
    failIf (!inMemory base 256 || !inMemory dig 64 || !s.permitted x.q d.job base 256 0
      || !s.permitted x.q d.job dig 64 0) { step := 3, who := 7, off := 0xFF } ]

end Sys2Proof.Machine
end

