-- ==== Sys2Proof/Machine/Concord.lean ====
section
/-!
DEFINITION. The concord exchange of a communication group (R428 to R433): the records, where they land, the
rounds, and the FENCE that waits for them.
-/

namespace Sys2Proof.Machine

/-! ## Group entries -/

def GroupSt.code : GroupSt → Nat
  | .empty => 0 | .forming => 1 | .formed => 2 | .fencing => 3 | .degraded => 4 | .discord => 5

/-- G_STATE (R428). -/
def Group.stateWord (g : Group) : Nat := g.st.code + g.mask % 256 * 256 + g.exchange % 65536 * 65536

def Group.member (g : Group) (m : Nat) : Nat := ((g.members[m]?).getD 0).toNat
def memberValid (w : Nat) : Bool := bit w 31
def memberPos (w : Nat) : Nat := fld w 0 4
def memberPkg (w : Nat) : Nat := fld w 8 8

/-- Slots of the VALID members other than this die, ascending. -/
def Group.others (g : Group) : List Nat :=
  (List.range 16).filter fun m => memberValid (g.member m) && m != g.self

/-- Those in this package. -/
def Group.peers (g : Group) : List Nat := g.others.filter fun m => memberPkg (g.member m) == 0xFF

def Group.cluster (g : Group) : Nat := fld g.conc.toNat 0 9
def Group.handle (g : Group) : Nat := fld g.conc.toNat 16 6

/-! ## Records (R430) -/

/-- FEATURES: test unlock, RESYNC, journal. -/
def State.features (s : State) : Nat :=
  s.regF 0x7F100 0 1 + 2 * s.regF 0x4E100 0 1 + 4 * s.regF 0x4D010 0 1

def State.numericMode (s : State) : Nat := s.regF 0x1180 0 8

def concordDigest (ucode numeric features epoch : Nat) : List Byte :=
  (sha384 (toLE 4 ucode ++ toLE 4 numeric ++ toLE 4 features ++ toLE 4 epoch)).take 8

def concordHdr (g round slot exchange : Nat) : Nat :=
  g + round * 64 + slot % 16 * 256 + exchange % 65536 * 65536

/-- Offset of a record from slot `m` in the window. -/
def concordOff (m round : Nat) : Nat := 128 * m + 64 * round

/-- Word `i` of the record from slot `m` that the own window holds. -/
def State.concordWord (s : State) (g : Group) (m round i : Nat) : Nat :=
  ofLE (s.readHandleGo g.cluster g.handle 4 (concordOff m round + 4 * i))

/-- Does the window hold a record with the current EXCHANGE from the slot? -/
def State.concordHas (s : State) (gi : Nat) (g : Group) (m round : Nat) : Bool :=
  s.concordWord g m round (if round = 0 then 6 else 8) == concordHdr gi round m g.exchange

/-- Send one record to a member slot. -/
def State.concordSend (s : State) (gi : Nat) (g : Group) (m round : Nat) (d : List Byte) : State :=
  let w := g.member m
  let addr := 8 * 2 ^ 48 + 2 ^ 40 * memberPkg w + 2 ^ 36 * memberPos w + 2 ^ 27 * g.cluster
    + 2 ^ 21 * g.handle + concordOff g.self round
  s.request { port := 15, op := .wwr, stream := 15, addr := addr, words := 16, fmt := 9,
              data := fitBytes 64 d } (.concord gi m (2 * g.exchange + round)) (memberPkg w != 0xFF)

/-- Step 1 of R431: the round-1 record to every other member. -/
def State.concordStart (s : State) (gi : Nat) : State :=
  let g := s.group gi
  let u := s.regN 0x1108
  let dg := concordDigest u s.numericMode s.features g.epoch.toNat
  let now := s.time.now
  let rec_ := dg ++ toLE 4 u ++ toLE 4 s.numericMode ++ toLE 4 s.features ++ toLE 4 g.epoch.toNat
    ++ toLE 4 (concordHdr gi 0 g.self g.exchange) ++ zeros 4 ++ toLE 8 now ++ zeros 24
  let g := { g with
    digest := dg, round2 := false, mine := [u, s.numericMode, s.features, g.epoch.toNat], sent := g.others.foldl (fun m k => SMap.put m k (now % 2 ^ 32)) [] }
  g.others.foldl (fun t m => t.concordSend gi g m 0 rec_) (s.setGroup gi g)

/-- Step 3 of R431: the round-2 record to every other member of the package. -/
def State.concordSecond (s : State) (gi : Nat) : State :=
  let g := s.group gi
  let stampOf (p : Nat) : Nat :=
    match g.peers.find? fun m => memberPos (g.member m) == p with
    | some m => s.concordWord g m 0 15
    | none => 0
  let rec_ := (List.range 8).flatMap (fun p => toLE 4 (stampOf p)) ++ toLE 4 (concordHdr gi 1 g.self g.exchange)
  let s := s.setGroup gi { g with round2 := true }
  g.peers.foldl (fun t m => t.concordSend gi g m 1 rec_) s

/-! ## FENCE (R433) -/

/-- The group FENCE in progress on a group, if any. -/
def State.groupFence (s : State) (gi : Nat) : Option Nat :=
  (s.ops.find? fun o => match o.kind with
    | .fence 2 g _ _ => g == gi && !o.ended
    | _ => false).map (·.id)

/-- The verdict of an exchange (R432): FORMED and OK with an empty mask, DISCORD otherwise. -/
def State.groupVerdict (s : State) (gi mask : Nat) : State :=
  let g := s.group gi
  let fence := s.groupFence gi
  if mask = 0 then
    let t := s.setGroup gi { g with st := .formed, mask := 0 }
    let t := if g.st == .forming then t.raise pgGroup 4 else t
    match fence.bind t.op with
    | some o => t.finish o.id o.goodStatus
    | none => t
  else
    let t := (s.setGroup gi { g with st := .discord, mask := mask }).raise pgGroup 2
    match fence with
    | some id => t.failWith id 0x23
    | none => t

/-- A concord write was refused by a member (R431). -/
def State.concordRefused (s : State) (gi round : Nat) : State :=
  let g := s.group gi
  if (g.st == .forming || g.st == .fencing) && round / 2 == g.exchange then s.groupVerdict gi (g.mask ||| 64)
  else s

/-- A FENCE goes on: the operations that it waits for have completed. -/
def State.fenceGo (s : State) (id : Nat) : State :=
  match s.op id with
  | none => s
  | some o =>
    match o.kind with
    | .fence scope g waitFor exchanging =>
      let left := waitFor.filter fun w => (s.op w).isSome
      if !left.isEmpty || (o.phase != .running && o.phase != .journaling) then s
      else if scope != 2 then s.finish id o.goodStatus
      else if exchanging || o.phase == .journaling then s
      else if (s.group g).st == .fencing then
        (s.modOp id fun p => { p with kind := .fence scope g [] true }).concordStart g
      else s
    | _ => s

/-- Every FENCE that an ended operation may have released. -/
def State.fencesGo (s : State) : State := s.ops.foldl (fun t o => t.fenceGo o.id) s

/-- A group FENCE enters the exchange's state, or ends at once on a degraded group. -/
def State.fenceBegin (s : State) (id gi : Nat) : State :=
  let g := s.group gi
  match g.st with
  | .degraded => s.finish id 0x22
  | .formed =>
    s.setGroup gi { g with st := .fencing, exchange := (g.exchange + 1) % 65536, mask := 0, sent := [], round2 := false }
  | _ => s

end Sys2Proof.Machine
end

