-- ==== Sys2Proof/Machine/Entries.lean ====
section
/-!
DEFINITION. The journal's contents (R402 to R409): entries and their hash, generation sums, retirement and
FLOOR, and the journal control block.
-/

namespace Sys2Proof.Machine

def State.journalOn (s : State) : Bool := bit (s.regN 0x4D010) 0
def State.journalBase (s : State) : Nat := s.regN 0x4D100 + 2 ^ 32 * s.regN 0x4D104
def State.journalSize (s : State) : Nat := 2 ^ s.regF 0x4D108 0 5
def State.jcb (s : State) : Nat := s.regN 0x4D114 + 2 ^ 32 * s.regN 0x4D118
def State.written (s : State) : Word := s.reg 0x4D10C
def State.floor (s : State) : Word := s.reg 0x4D110
def retireKey (q : Nat) : Nat := 0x4D140 + 4 * q

/-- Address of entry `i`. -/
def State.entryAddr (s : State) (i : Word) : Nat := s.journalBase + 128 * (i.toNat % s.journalSize)

/-! ## Entries (R403) -/

/-- Bytes 0 to 103. -/
def OpRec.entryHead (o : OpRec) (i : Word) : List Byte :=
  let d := o.desc
  let op := d.opcode
  let seeded := decide (1 ≤ op) && decide (op ≤ 5)
  toLE 4 i.toNat ++ toLE 4 o.seq.toNat ++ toLE 2 o.job
    ++ toLE 1 (o.q + 16 * b2n o.rescue + 32 * b2n o.inplace) ++ toLE 1 op
    ++ toLE 4 (o.first + 2 ^ 16 * o.count) ++ toLE 4 o.headAt.toNat ++ zeros 12 ++ fitBytes 48 o.dhash
    ++ toLE 8 (if op = opJournalMark then d.pair 2 else if seeded then d.seed else 0)
    ++ toLE 8 (if seeded then d.dataPos else 0) ++ toLE 4 o.genIn.toNat ++ toLE 4 o.genOut.toNat

/-- DPOS of the entry. -/
def OpRec.dpos (o : OpRec) : Nat :=
  if 1 ≤ o.desc.opcode ∧ o.desc.opcode ≤ 5 then o.desc.dataPos else 0

/-- Bytes 104 to 119: slugs committed, status, FLAGS and the completion record's index. -/
def entryDone (committed status flags : Nat) (cplAt : Word) : List Byte :=
  toLE 4 committed ++ toLE 1 status ++ zeros 1 ++ toLE 2 flags ++ toLE 4 cplAt.toNat ++ zeros 4

/-- A CRC-16 of R277 without a sequence number, as two bytes. -/
def crcBytes (l : List Byte) : List Byte := toLE 2 (crc16 l).toNat

/-- Bytes 104 to 127 as they stand beside a head. -/
def entryTail (head done : List Byte) : List Byte :=
  done ++ crcBytes head ++ crcBytes done ++ zeros 4

/-- The entry at acceptance: STATUS FFh. -/
def OpRec.entryBytes (o : OpRec) (i : Word) : List Byte :=
  let h := o.entryHead i
  h ++ entryTail h (entryDone 0 0xFF 0 0)

/-! ## Generation sums (R405) -/

/-- The sum of HANDLE_GEN over handles given as cluster × 64 + handle. -/
def State.genSum (s : State) (l : List Nat) : Word := l.foldl (fun a k => a + genOf s (k / 64) (k % 64)) 0

/-- Handles of a list of references in the clusters of slivers. -/
def handleKeys (cs : List Nat) (hs : List Nat) : List Nat :=
  (cs.flatMap fun c => hs.map fun h => c * 64 + h).foldl setIns []

def Operand.handles (x : Operand) : List Nat :=
  match x with
  | .handle h _ => [h]
  | _ => []

/-- Handles read and written by the entries of a compute operation, in the clusters that take part. -/
def computeHandles (d : Desc) (chain : List Word) (es : List Entry) (vs : List Sliver) : List Nat × List Nat :=
  let bufs := (loadedBufs d chain).map (chainHandle chain)
  let per := vs.map fun v =>
    match es.find? (·.index == v.entry) with
    | some e =>
      (handleKeys [v.cluster] (e.a.handles ++ e.b.handles ++ bufs ++ (if d.cAcc then e.c.handles else [])),
       handleKeys [v.cluster] e.c.handles)
    | none => ([], [])
  ((per.flatMap (·.1)).foldl setIns [], (per.flatMap (·.2)).foldl setIns [])

/-! ## The control block (R408) and FLOOR (R407) -/

/-- Queue n's part. -/
def State.jcbPart (s : State) (q : Nat) : List Byte :=
  let r (o : Nat) := toLE 4 (s.regN ((pgQueue q).base + o))
  let im := SMap.find s.images q
  toLE 4 (s.regN (retireKey q)) ++ r 0x144 ++ r 0x110 ++ r 0x12C
    ++ (match im with
      | some x => toLE 4 x.seq.toNat ++ toLE 4 x.id.toNat ++ toLE 4 1 ++ zeros 4 ++ toLE 8 x.save ++ toLE 8 x.dig
      | none => zeros 32)
    ++ zeros 16

/-- The die writes queue n's part as one 64-byte write, whether or not the journal is on (R408). -/
def State.writeJcbPart (s : State) (q : Nat) : State :=
  s.writeMem 15 15 (s.jcb + 64 + 64 * q) (s.jcbPart q) .block

/-- The header with the present FLOOR, and the FLUSH that makes it count. -/
def State.writeJcbHeader (s : State) : State :=
  if s.journalOn then
    (s.writeMem 15 15 s.jcb (toLE 4 s.floor.toNat ++ zeros 60) .block).flush 15 15 (.jcbFlush s.floor.toNat)
  else s

def JEntry.retired (s : State) (e : JEntry) : Bool :=
  let d := (s.reg (retireKey e.q) - e.seq).toNat
  e.done && decide (1 ≤ d) && decide (d ≤ 2 ^ 31)

/-- FLOOR moves to the oldest unretired entry; a move writes the header. -/
def State.moveFloor (s : State) : State :=
  let l := s.journal.dropWhile (·.retired s)
  let f := (l.head?.map (·.index)).getD s.written
  let t := { s with journal := l }
  if f = s.floor then t else (t.setReg 0x4D110 f).writeJcbHeader

/-- WRITTEN − FLOOR equals the ring's size (R407). -/
def State.journalFull (s : State) : Bool :=
  s.journalOn && decide (s.journalSize ≤ (s.written - s.floor).toNat)

/-- May the next entry be written into its slot (R407)? -/
def State.journalRoom (s : State) : Bool :=
  !s.journalOn || (!s.journalFull && decide ((s.written - s.jfloor).toNat < s.journalSize))

/-- The entry at acceptance, built in the journal block's memory (R479): one 128-byte write and its FLUSH on port 15, stream 15 (R406). -/
def State.journalWrite (s : State) (o : OpRec) (i : Word) : State :=
  let s := (s.readControl 0x4D000 i.toNat).1.writeMem 15 15 (s.entryAddr i) (o.entryBytes i) .block
  let s := s.flush 15 15 (.journalFlush o.id)
  let s : State := { s with journal := s.journal ++ [{ index := i, q := o.q, seq := o.seq, done := false }] }
  let s := s.setReg 0x4D10C (i + 1)
  let s := s.setQueue o.q { s.queue o.q with lastDpos := o.dpos }
  if s.journalFull then s.raise pgJournal 1 else s

/-- The completion part of an entry, and its FLUSH: the record follows that FLUSH's FLACK (R406). -/
def State.journalDone (s : State) (o : OpRec) (i : Word) (cplAt : Word) : State :=
  let s := (s.readControl 0x4D000 i.toNat).1.writeMem 15 15 (s.entryAddr i + 104)
    (entryTail (o.entryHead i) (entryDone o.committed o.status o.flags cplAt))
    .block
  s.flush 15 15 (.journalFlush o.id)

/-- An entry's descriptor has completed. -/
def State.journalEnd (s : State) (i : Word) : State :=
  ({ s with journal := s.journal.map fun e => if e.index = i then { e with done := true } else e } :
    State).moveFloor

end Sys2Proof.Machine
end

