-- ==== Sys2Proof/Machine/Tasks.lean ====
section
/-!
DEFINITION. Tasks: their handles (R232, R245, R260), their end (R455), and their energy tickets (R375).
-/

namespace Sys2Proof.Machine

/-! ## Ownership (R232) -/

/-- Job and queue of a handle's owner; `none` when no task owns it. -/
def State.ownerOf (s : State) (c h : Nat) : Option (Nat × Nat) :=
  let w := s.regN (ownerKey c h)
  if bit w 31 then none else some (fld w 0 16, fld w 16 4)

/-- A task without a context shares none with any other task. -/
def sameContext (a b : Option Nat) : Bool := a.isSome && a == b

/-- A descriptor of a task names a handle. Under an open window the first one to name it owns it (R245). -/
def State.claim (s : State) (c h q job : Nat) (ctx : Option Nat) (dark inherit : Bool) : State :=
  let own := s.ownerOf c h
  let take (t : State) : State :=
    let t := { t with endedOwners := SMap.del t.endedOwners (c * 64 + h) }
    t.setOwner c h q job ctx dark
  if s.windowOpen c h then
    if own.isNone || (SMap.find s.endedOwners (c * 64 + h)).isSome then take s else s
  else if own = some (job, q) then s
  else
    let old := ((SMap.find s.owners (c * 64 + h)).map (·.1)).join
    if own.isSome && sameContext old ctx && inherit then take s else take (s.scrub c h)

/-- The handles that a descriptor names, as cluster × 64 + handle. -/
def State.claimAll (s : State) (keys : List Nat) (q job : Nat) (ctx : Option Nat) (dark inherit : Bool) : State :=
  keys.foldl (fun t k => t.claim (k / 64) (k % 64) q job ctx dark inherit) s

/-! ## Task end (R260, R455) -/

/-- Handles that the task owns. -/
def State.ownedBy (s : State) (q job : Nat) : List Nat :=
  (s.owners.map (·.1)).filter fun k => s.ownerOf (k / 64) (k % 64) = some (job, q)

/-- The task ends: its handles are scrubbed or made dark; those with an open window wait for its close. -/
def State.endTask (s : State) (q job : Nat) (dark : Bool) : State :=
  let s := (s.ownedBy q job).foldl
    (fun t k =>
      if t.windowOpen (k / 64) (k % 64) then { t with endedOwners := SMap.put t.endedOwners k dark }
      else t.releaseHandle (k / 64) (k % 64) dark) s
  let Q := s.queue q
  s.setQueue q { Q with tasks := Q.tasks.filter (·.job != job) }

/-- Has the task a descriptor in flight? -/
def State.taskRuns (s : State) (q job : Nat) : Bool := s.accepted.any fun o => o.q == q && o.job == job

/-- Tasks of a queue that wait to end and have no descriptor in flight end. -/
def State.endTasks (s : State) (q : Nat) : State :=
  (s.queue q).tasks.foldl
    (fun t x => if x.ending && !t.taskRuns q x.job then t.endTask q x.job x.dark else t) s

/-- A queue accepts a descriptor of a task: tasks in another context are to end, the task itself goes on. -/
def State.taskAccepted (s : State) (q job : Nat) (ctx : Option Nat) (dark : Bool) : State :=
  let Q := s.queue q
  let old := (Q.tasks.filter (·.job != job)).map fun x => if x.context = ctx then x else { x with ending := true }
  (s.setQueue q { Q with tasks := old ++ [⟨job, ctx, dark, false⟩] }).endTasks q

/-- Every task of a queue that reaches disabled ends (R455). -/
def State.endAllTasks (s : State) (q : Nat) : State :=
  (s.queue q).tasks.foldl (fun t x => t.endTask q x.job x.dark) s

/-! ## Energy tickets (R375) -/

def ticketKey (t : Nat) : Nat := 0x48200 + 16 * t

/-- The valid ticket of a job. -/
def State.ticketOf (s : State) (job : Nat) : Option Nat :=
  (List.range 64).find? fun t => bit (s.regN (ticketKey t)) 31 && s.regF (ticketKey t) 0 16 == job

/-- A descriptor of a job is accepted: the job's ticket, the lowest free one, or a miss. -/
def State.takeTicket (s : State) (job : Nat) : State :=
  match s.ticketOf job with
  | some _ => s
  | none =>
    match (List.range 64).find? fun t => !bit (s.regN (ticketKey t)) 31 with
    | some t =>
      let s := s.setRegN (ticketKey t) (2 ^ 31 + job % 65536)
      { s with power := { s.power with ticket := SMap.del s.power.ticket t } }
    | none => (s.incReg 0x48608).raise pgPower 16

end Sys2Proof.Machine
end

