-- ==== Sys2Proof/Machine/Secure.lean ====
section
/-!
DEFINITION. Securing state into an image and restoring one (R417 to R427).
-/

namespace Sys2Proof.Machine

/-! ## The DRBG (R445) -/

/-- A seeding takes the next 768 raw bits. -/
def State.seedDrbg (s : State) (d : Drbg) : State :=
  { s with sec := { s.sec with drbg := d.seed (fitBytes 96 (Config.entropy s.sec.seeds)), seeds := s.sec.seeds + 1 } }

/-- The DRBG is instantiated. -/
def State.instantiate (s : State) : State :=
  let t := s.seedDrbg Drbg.zero
  { t with sec := { t.sec with since := 0 } }

/-- `n` bytes of the DRBG: one generate request; a reseed after every 2¹⁶ of them. -/
def State.draw (s : State) (n : Nat) : List Byte × State :=
  let g := s.sec.drbg.generate n
  let t := { s with sec := { s.sec with drbg := g.2, since := s.sec.since + 1 } }
  (g.1, if (s.sec.since + 1) % 65536 = 0 then (t.seedDrbg t.sec.drbg).incReg 0x54118 else t)

/-! ## The image's layout (R422) -/

/-- Bytes of the stored section of a handle. -/
def State.sectionLen (s : State) (c h : Nat) : Nat := 64 * (s.handle c h).slots

/-- The sections as (cluster, handle), `none` for section 0. -/
def imageSections (clusters hs : List Nat) : List (Option (Nat × Nat)) :=
  none :: clusters.flatMap fun c => hs.map fun h => some (c, h)

def State.lenOf (s : State) (x : Option (Nat × Nat)) : Nat :=
  match x with
  | none => 8192
  | some p => s.sectionLen p.1 p.2

/-- Offset of section `n` from `save_base`: every section, with its tag when encrypted, starts at 64 bytes. -/
def State.sectionOff (s : State) (secs : List (Option (Nat × Nat))) (enc : Bool) (n : Nat) : Nat :=
  (secs.take n).foldl (fun a x => a + s.lenOf x + (if enc then 64 else 0)) 256

/-- The additional data of a section: its index and length as two words (R420). -/
def sectionAad (n len : Nat) : List Byte := toLE 4 n ++ toLE 4 len

/-- A digest record (R422). -/
def digestRecord (dig : List Byte) (index len : Nat) : List Byte :=
  fitBytes 48 dig ++ toLE 4 index ++ toLE 4 len ++ zeros 8

/-- Record g of the GROUP table. -/
def Group.image (g : Group) : List Byte :=
  (List.range 16).flatMap (fun m => toLE 4 (g.member m)) ++ toLE 4 g.stateWord ++ toLE 4 g.epoch.toNat
    ++ toLE 4 g.conc.toNat ++ fitBytes 8 g.digest ++ zeros 44

def State.groupTable (s : State) : List Byte := (List.range 64).flatMap fun g => (s.group g).image

/-- The header. -/
def State.imageHeader (s : State) (o : OpRec) (x : Securing) (valid : Bool) : List Byte :=
  let d := o.desc
  let enc := bit (d.word 1) 0
  fitBytes 256 (toLE 2 1 ++ toLE 1 (b2n valid + 2 * b2n enc) ++ toLE 1 (fld (d.word 1) 4 4)
    ++ toLE 4 x.imageId.toNat ++ toLE 4 o.seq.toNat ++ toLE 4 ((o.jindex.getD 0).toNat)
    ++ toLE 4 (o.first + 2 ^ 16 * o.count) ++ toLE 4 (o.q + s.pos * 256 + s.pkg * 65536)
    ++ toLE 8 (d.pair 4) ++ toLE 8 x.dpos ++ zeros 8 ++ fitBytes 8 x.ivBase
    ++ toLE 4 (1 + x.clusters.length * x.handles.length))

def imageKey (s : State) (slot : Nat) : List Byte := (SMap.find s.sec.keys slot).getD []

/-- A posted write of a securing, remembered as a stream to flush. -/
def State.imageWrite (s : State) (id port stream addr : Nat) (d : List Byte) : State :=
  let s := s.writeMem port stream addr d (.opWrite id 0x1FFFF 0xFFFFFFFF 0xFFFFFFFF)
  s.modOp id fun q =>
    { q with streams := if q.streams.contains (port, stream) then q.streams else q.streams ++ [(port, stream)] }

/-! ## Acceptance (R417, R419) -/

/-- A securing starts: its handles get a drained side. `restart` keeps the moved bits (R414). -/
def State.secureBegin (s : State) (o : OpRec) (clusters hs : List Nat) (dpos : Nat) : State :=
  let (idb, s) := s.draw 4
  let (iv, s) := s.draw 8
  let keys := handleKeys clusters hs
  let side : SMap Bool := keys.foldl (fun m k => SMap.put m k (s.handle (k / 64) (k % 64)).cur) []
  let x : Securing :=
    { op := o.id, clusters := clusters, handles := hs, side := side, snapshot := false, pos := [],
      imageId := w32 (ofLE idb), ivBase := iv, dpos := dpos, acc := [], digests := [], drained := 0,
      written := false, older := (s.ops.filter fun p => p.id != o.id).map (·.id), failed := none }
  let s : State := { s with
    securing := some x, moved := s.moved.filter fun m => !setHas keys (m / 32768) }
  ((s.setReg 0x4E10C 0).setReg 0x4E110 0).setRegN 0x4E104 (3 + o.q * 16)

/-- The drain starts again for a replay: moved slots stay moved (R414). -/
def State.secureRestart (s : State) : State :=
  match s.securing with
  | some x =>
    ({ s with securing := some { x with
        snapshot := false, pos := [], acc := [], digests := [], drained := 0, written := false } } :
      State).setRegF 0x4E104 0 2 3
  | none => s

/-! ## The drain (R418 to R420) -/

/-- First slot at or after a position of a cluster's handles that is to be drained. -/
def State.drainNext (s : State) (c : Nat) (hs : List Nat) (r t : Nat) : Option (Nat × Nat) :=
  match (hs.zip (List.range hs.length)).find? fun x =>
      decide (r ≤ x.2) && decide ((if x.2 = r then t else 0) < (s.handle c x.1).slots) with
  | some x => some (x.2, if x.2 = r then t else 0)
  | none => none

def State.drainPos (s : State) (x : Securing) (c : Nat) : Option (Nat × Nat) :=
  let p := SMap.getD x.pos c (0, 0)
  s.drainNext c x.handles p.1 p.2

/-- The key of `key_slot`. -/
def State.imageKeyOf (s : State) (o : OpRec) : List Byte := imageKey s (fld (o.desc.word 1) 4 4)

/-- The IV of a section (R420). -/
def sectionIv (base : List Byte) (n : Nat) : List Byte := fitBytes 8 base ++ toLE 4 n

/-- The stored bytes of a part of section `n` that starts at an offset: its ciphertext when encrypted (R420). -/
def storedPart (s : State) (o : OpRec) (x : Securing) (n off : Nat) (part : List Byte) : List Byte :=
  if bit (o.desc.word 1) 0 then gcmPart (s.imageKeyOf o) (sectionIv x.ivBase n) off part else part

/-- A section is whole: the digest of its stored bytes, and its tag when encrypted. -/
def State.sectionEnd (s : State) (o : OpRec) (x : Securing) (n c : Nat) (plain : List Byte) : State × List Byte :=
  let secs := imageSections x.clusters x.handles
  let stored := storedPart s o x n 0 plain
  if bit (o.desc.word 1) 0 then
    let tag := gcmTag (s.imageKeyOf o) (sectionIv x.ivBase n) (sectionAad n plain.length) stored
    let (p, st) := if n = 0 then (15, 15) else (homePort c, clusterStream c)
    let s := if x.failed.isSome then s
      else s.imageWrite o.id p st (o.desc.pair 2 + s.sectionOff secs true n + plain.length) tag
    (s, sha384 stored)
  else (s, sha384 stored)

def State.setSecuring (s : State) (f : Securing → Securing) : State :=
  { s with securing := s.securing.map f }

/-- Every section has been drained: the digest table is written and every stream flushed (R421). -/
def State.secureSeal (s : State) (o : OpRec) : State :=
  match s.securing with
  | some x =>
    if x.op != o.id || x.written || !x.snapshot || x.clusters.any (fun c => (s.drainPos x c).isSome) then s
    else
      let secs := imageSections x.clusters x.handles
      let head := digestRecord (sha384 (s.imageHeader o x true)) 0xFFFFFFFF 256
      let body := (List.range secs.length).flatMap fun n =>
        digestRecord (SMap.getD x.digests n []) n (s.lenOf ((secs[n]?).getD none))
      let root := sha384 (head ++ body)
      let table := head ++ body ++ digestRecord root 0xFFFFFFFF ((head ++ body).length)
      let s := if x.failed.isSome then s else s.imageWrite o.id 15 15 (o.desc.pair 6) table
      let s := s.setSecuring fun y => { y with written := true, digests := SMap.put y.digests 0x100000000 root }
      (((s.op o.id).map (·.streams)).getD []).foldl (fun t p => t.flush p.1 p.2 (.secureFlush o.id)) s
  | none => s

/-- SECURE_SNAPSHOT_POINT (R418): the earlier writers have completed. -/
def State.snapshot (s : State) (id : Nat) : State :=
  match s.op id, s.securing with
  | some o, some x =>
    let waits := s.ops.any fun p =>
      decide (p.id < id) && (p.q == o.q || p.written.any fun k => (SMap.find x.side k).isSome)
    if x.op != id || x.snapshot || waits || o.phase != .running || s.mute then s
    else
      let secs := imageSections x.clusters x.handles
      let table := s.groupTable
      let s := s.setSecuring fun y => { y with snapshot := true }
      let s := s.setRegF 0x4E104 1 1 0
      let s := if x.failed.isSome then s
        else (s.imageWrite id 15 15 (o.desc.pair 2) (s.imageHeader o x false)).imageWrite id 15 15
          (o.desc.pair 2 + 256) (storedPart s o x 0 0 table)
      let ends := (List.range secs.length).filter fun n =>
        n = 0 || s.lenOf ((secs[n]?).getD none) == 0
      let s := ends.foldl
        (fun t n =>
          let c := (((secs[n]?).getD none).map (·.1)).getD 0
          let (t, d) := t.sectionEnd o x n c (if n = 0 then table else [])
          t.setSecuring fun y => { y with digests := SMap.put y.digests n d }) s
      s.secureSeal o
  | _, _ => s

/-- SECURE_DRAIN (R419): the next slot of the drained side goes to the image and, unmoved, to the live side. -/
def State.drainSlot (s : State) (id c : Nat) : State :=
  match s.op id, s.securing with
  | some o, some x =>
    match s.drainPos x c with
    | some (r, t) =>
      if x.op != id || !x.snapshot || !x.clusters.contains c || o.phase != .running || s.mute then s
      else
        let secs := imageSections x.clusters x.handles
        let enc := bit (o.desc.word 1) 0
        let h := (x.handles[r]?).getD 0
        let e := s.handle c h
        let sd := SMap.getD x.side (c * 64 + h) false
        let (b, row, _) := e.place sd (t * 64)
        let n := 1 + (x.clusters.findIdx fun k => k == c) * x.handles.length + r
        let part := s.readStore c b row 0 64
        let acc := (SMap.getD x.acc c []) ++ part
        let s := if x.failed.isSome then s
          else s.imageWrite id (homePort c) (clusterStream c) (o.desc.pair 2 + s.sectionOff secs enc n + 64 * t)
            (storedPart s o x n (64 * t) part)
        let s := s.moveSlot c h t
        let s := s.active c evSlot (some o.job)
        let drained := x.drained + 1
        let s := s.setRegN 0x4E110 (drained * 64 / 65536)
        let last := decide (e.slots ≤ t + 1)
        let (s, dg) := if last then s.sectionEnd o x n c acc else (s, [])
        let s := s.setSecuring fun y => { y with
          drained := drained
          pos := SMap.put y.pos c (if last then (r + 1, 0) else (r, t + 1))
          acc := if last then SMap.del y.acc c else SMap.put y.acc c acc
          digests := if last then SMap.put y.digests n dg else y.digests }
        s.secureSeal o
    | none => s
  | _, _ => s

/-! ## The end of a securing (R421) -/

/-- CUR of a handle changes in the adopted entry and its shadow alike; the generation advances. -/
def State.setCur (s : State) (c h : Nat) (side : Bool) : State :=
  let k := handleKey c h 0
  let t := s.setRegF k 22 1 (b2n side)
  let t : State := { t with
    shad := match SMap.find s.shad k with
      | some w => SMap.put s.shad k (w32 (putFld w.toNat 22 1 (b2n side)))
      | none => s.shad }
  t.bumpGen c h

def State.putDigest (s : State) (key : Nat) (d : List Byte) : State :=
  s.putWords key ((List.range 12).map fun i => w32 (ofLE ((d.drop (4 * i)).take 4)))

/-- SECURE_COMPLETE: the image is whole and flushed, or the securing failed and the copy is done. -/
def State.secureDone (s : State) (id : Nat) : State :=
  match s.op id, s.securing with
  | some o, some x =>
    let waits := s.outst.any fun y => y.purpose == .secureFlush id
    if x.op != id || !x.written || waits || o.phase != .running then s
    else
      let good := x.failed.isNone && !o.stopped
      let s := if good then
          s.imageWrite id 15 15 (o.desc.pair 2) ((s.imageHeader o x true).take 4)
        else s
      let s : State := { s with securing := none, moved := s.moved.filter fun m => (SMap.find x.side (m / 32768)).isNone }
      let s := x.side.foldl (fun t p => t.setCur (p.1 / 64) (p.1 % 64) (!p.2)) s
      let s := s.setReg 0x4E104 0
      if good then
        let im : ImageInfo := { seq := o.seq, id := x.imageId, save := o.desc.pair 2, dig := o.desc.pair 6 }
        let s := { s with images := SMap.put s.images o.q im }
        let s := (s.setReg (retireKey o.q) o.seq).writeJcbPart o.q
        let s := s.moveFloor
        let s := s.setReg 0x4E108 x.imageId
        let s := (s.putDigest 0x58100 (SMap.getD x.digests 0x100000000 [])).setRegN 0x58130
          (1 + x.clusters.length * x.handles.length)
        let s := s.raise pgSecure 1
        (s.modOp id fun p => { p with result := x.imageId.toNat }).finish id o.goodStatus
      else
        (s.raise pgSecure 2).finish id (x.failed.getD o.status)
  | _, _ => s

def execSecureSnapshotPoint (op : Nat) (s : State) : Outcome := .next (s.snapshot op)

def execSecureDrain (op : Nat) (cluster : Fin 320) (s : State) : Outcome := .next (s.drainSlot op cluster.val)

def execSecureComplete (op : Nat) (s : State) : Outcome := .next (s.secureDone op)

/-! ## Restoring (R424 to R426) -/

/-- The reads that fetch a range leave on a port and stream; the view answers them within the step. A read that
returns F0h is counted and repeated once (R346, R395). -/
def State.viewReads (s : State) (v : HubView) (port stream addr n : Nat) (seq : Word) : State :=
  (readStarts addr n).foldl
    (fun t a =>
      let stop := min (addr + n) ((a / 4096 + 1) * 4096)
      let rd (u : State) : State :=
        u.send { port := port, op := .rd, tag := (u.nextTag port 0).getD 0, stream := stream, addr := a,
                 words := ceilDiv (stop - a) 4, srcpos := u.pos, srcpkg := 0xFF }
      let t := rd t
      if viewStatus v a 0 = 0xF0 then
        let t := rd (t.uncorrected 3 (a % 2 ^ 32) 0 (some seq))
        if viewStatus v a 1 = 0xF0 then t.uncorrected 3 (a % 2 ^ 32) 0 (some seq) else t
      else t) s

/-- How a restore stands: the state, or the status that it ended with. -/
structure Restore where
  st : State
  seq : Word
  status : Option Nat

/-- A read of a restore; a failing one ends it (R288, R395). -/
def Restore.read (r : Restore) (v : HubView) (port stream addr n : Nat) : Restore × List Byte :=
  if r.status.isSome then (r, [])
  else
    let s := r.st.viewReads v port stream addr n r.seq
    match viewRange v addr n with
    | .ok => ({ r with st := s }, viewBytes v addr n)
    | .refused => ({ r with st := s, status := some 0x10 }, [])
    | .lost => ({ r with st := s, status := some 0x31 }, [])

def State.restoreFail (s : State) (cause d0 d1 : Nat) : State :=
  (s.capture pgSecure cause [w32 d0, w32 d1]).raise pgSecure 8

/-- A GROUP record of section 0: a group that was not EMPTY enters DEGRADED. This die's slot is that of its position
(R428). -/
def Group.ofImage (pos : Nat) (b : List Byte) : Group :=
  let w (i : Nat) : Nat := ofLE ((b.drop (4 * i)).take 4)
  let st := w 16 % 8
  let members := (List.range 16).map fun m => w32 (w m)
  let self := (members.findIdx? fun x =>
    st != 0 && memberValid x.toNat && memberPos x.toNat == pos && memberPkg x.toNat == 0xFF).getD 0
  { Group.zero with
    st := if st = 0 then .empty else .degraded
    mask := fld (w 16) 8 8, exchange := fld (w 16) 16 16, epoch := w32 (w 17), conc := w32 (w 18)
    digest := (b.drop 76).take 8, members := members, self := self }

/-- Header fields that a restore uses. -/
structure ImageHead where
  enc   : Bool
  slot  : Nat
  id    : Word
  count : Nat
  mask  : Nat
  iv    : List Byte
  sctr  : Bool
  ok    : Bool

def ImageHead.ofBytes (b : List Byte) : ImageHead :=
  let f (o n : Nat) : Nat := ofLE ((b.drop o).take n)
  { enc := bit (f 2 1) 1, slot := f 3 1 % 16, id := w32 (f 4 4), count := fld (f 16 4) 16 9, mask := f 24 8,
    iv := (b.drop 48).take 8, sctr := bit (f 2 1) 2 && f 40 8 != f 32 8,
    ok := f 0 2 == 1 && bit (f 2 1) 0 }

/-- Step 3: the configuration check; what fails it, with the first cluster and handle concerned, if any. -/
def State.restoreConfig (s : State) (id : Nat) (clusters : List Nat) (h : ImageHead) (lenAt : Nat → Nat) :
    Option (Option (Nat × Nat)) :=
  let hs := maskHandles h.mask
  let secs := imageSections clusters hs
  let bad := (List.range secs.length).filterMap fun n =>
    match (secs[n]?).getD none with
    | some (c, k) =>
      if !s.eligible c k || s.sectionLen c k != lenAt n
          || s.ops.any (fun o => o.id != id && setHas o.named (c * 64 + k)) then some (c, k)
      else none
    | none => none
  if h.count != clusters.length
      || s.groups.any (fun p => p.2.st == .forming || p.2.st == .fencing) then some bad.head?
  else bad.head?.map some

/-- One section of step 4: read, digest, tag, load. -/
def Restore.section (r : Restore) (v : HubView) (h : ImageHead) (base n off len : Nat) (dig : List Byte)
    (x : Option (Nat × Nat)) : Restore × List Byte :=
  let (port, stream) := match x with
    | some p => (homePort p.1, clusterStream p.1)
    | none => (15, 15)
  let (r, data) := r.read v port stream (base + off) len
  let (r, tag) := if h.enc then r.read v port stream (base + off + len) 16 else (r, [])
  if r.status.isSome then (r, [])
  else
    let place := match x with
      | some p => p.1 + p.2 * 65536
      | none => 0
    let bad (cause : Nat) : Restore :=
      { r with st := (r.st.restoreFail cause place n).setRegN 0x58134 n, status := some 0x41 }
    if sha384 data != dig then (bad 4, [])
    else
      match (if h.enc then
          gcmOpen (imageKey r.st h.slot) (sectionIv h.iv n) (sectionAad n len) data tag
        else some data) with
      | none => (bad 6, [])
      | some plain =>
        match x with
        | none => (r, plain)
        | some (c, k) =>
          let e := r.st.handle c k
          let s := (List.range e.slots).foldl
            (fun t i =>
              let p := e.place e.cur (64 * i)
              t.writeStore c p.1 p.2.1 0 (fitBytes 64 ((plain.drop (64 * i)).take 64))) r.st
          ({ r with st := s }, [])

/-- What stops a restore before its sections are read (step 3): its status and the state with it. -/
def State.restoreRefused (s : State) (cause d0 d1 : Nat) : State × Nat :=
  (((s.capture pgSecure cause [w32 d0, w32 d1]).noteRefusal pgSecure).raise pgSecure 8, 0x11)

/-- A GROUP entry is written from its record; one that enters DEGRADED says so (R425, R428). -/
def State.restoreGroup (s : State) (g : Nat) (b : List Byte) : State :=
  let x := Group.ofImage s.pos b
  let t := s.setGroup g x
  if x.st == .degraded then t.raise pgGroup 1 else t

/-- The sections, read in their order: the reads' state, the group records' section and the handles loaded. -/
def State.loadSections (s : State) (v : HubView) (h : ImageHead) (base : Nat) (secs : List (Option (Nat × Nat)))
    (table : List Byte) (seq : Word) (offs : Nat → Nat) : Restore × List Byte × List Nat :=
  let lenAt (n : Nat) : Nat := ofLE ((table.drop (64 * (n + 1) + 52)).take 4)
  let digAt (n : Nat) : List Byte := (table.drop (64 * (n + 1))).take 48
  (List.range secs.length).foldl
    (fun (acc : Restore × List Byte × List Nat) n =>
      let x := (secs[n]?).getD none
      if acc.1.status.isSome then acc
      else
        let (r, g) := acc.1.section v h base n (offs n) (lenAt n) (digAt n) x
        (r, if n = 0 then g else acc.2.1,
          match x with
          | some p => if r.status.isNone then acc.2.2 ++ [p.1 * 64 + p.2] else acc.2.2
          | none => acc.2.2))
    (({ st := s, seq := seq, status := none } : Restore), [], [])

/-- Steps 4 to 6: the sections are read and, when every digest holds, the groups and the counter are set. -/
def State.restoreLoad (s : State) (v : HubView) (h : ImageHead) (base : Nat) (secs : List (Option (Nat × Nat)))
    (table : List Byte) (seq : Word) (offs : Nat → Nat) : State × Nat :=
  let (r, groups, done) := s.loadSections v h base secs table seq offs
  let root := sha384 (table.take (64 * (secs.length + 1)))
  let want := (table.drop (64 * (secs.length + 1))).take 48
  let undo (t : State) : State := done.foldl (fun u k => u.scrub (k / 64) (k % 64)) t
  match r.status with
  | some st => ((undo r.st).raise pgSecure 8, st)
  | none =>
    let s := (r.st.putDigest 0x58100 root).setRegN 0x58130 secs.length
    if root != want then ((undo s).restoreFail 4 0 0, 0x41)
    else
      let s := (List.range 64).foldl (fun t g => t.restoreGroup g ((groups.drop (128 * g)).take 128)) s
      let s := (s.setReg 0x4E108 h.id).raise pgSecure 4
      (s, if h.sctr then 0x40 else 0)

/-- Step 3, once the digest list is read. -/
def State.restorePlan (s : State) (id : Nat) (clusters : List Nat) (base : Nat) (v : HubView) (h : ImageHead)
    (table : List Byte) (seq : Word) (take : State → List Nat → State) : State × Nat :=
  let hs := maskHandles h.mask
  let secs := imageSections clusters hs
  match s.restoreConfig id clusters h (fun n => ofLE ((table.drop (64 * (n + 1) + 52)).take 4)) with
  | some (some p) => s.restoreRefused 3 (p.1 + p.2 * 65536) (sectionIndex clusters hs p)
  | some none => s.restoreRefused 3 0 0
  | none =>
    if h.enc && (SMap.find s.sec.keys h.slot).isNone then s.restoreRefused 7 0 0
    else (take s (handleKeys clusters hs)).restoreLoad v h base secs table seq (s.sectionOff secs h.enc)

/-- An image whose stream counter disagrees with its data position is recorded and counted; with POLICY.RESYNC 1 the
data position wins and `restore` goes on (R426). -/
def State.restoreResync (s : State) (h : ImageHead) : State :=
  if h.sctr then ((s.capture pgSecure 5 [0, 0]).incReg 0x4E114).raise pgSecure 16 else s

/-- The whole of RESTORE_CHECK after its acceptance: the new state and the completion status. `take` claims
the handles for the descriptor's task. -/
def State.restore (s : State) (id : Nat) (clusters : List Nat) (base dig : Nat) (v : HubView)
    (take : State → List Nat → State) : State × Nat :=
  let s := s.setRegN 0x58134 0xFFFFFFFF
  let seq := ((s.op id).map (·.seq)).getD 0
  let (r, hb) := ({ st := s, seq := seq, status := none } : Restore).read v 15 15 base 256
  let (r, d0) := r.read v 15 15 dig 64
  let h := ImageHead.ofBytes hb
  let valid := hb.take 2 ++ [((hb[2]?).getD 0) ||| 1] ++ hb.drop 3
  match r.status with
  | some st => (r.st.raise pgSecure 8, st)
  | none =>
    if !h.ok || sha384 valid != d0.take 48 then (r.st.restoreFail 4 0 0, 0x41)
    else
      let s := r.st.restoreResync h
      if h.sctr && !bit (r.st.regN 0x4E100) 0 then (s.raise pgSecure 8, 0x40)
      else
        let n := (imageSections clusters (maskHandles h.mask)).length + 2
        let (r, table) := ({ st := s, seq := seq, status := none } : Restore).read v 15 15 dig (64 * n)
        match r.status with
        | some st => (r.st.raise pgSecure 8, st)
        | none => r.st.restorePlan id clusters base v h table seq take

end Sys2Proof.Machine
end

