-- ==== Sys2Proof/Machine/Accept.lean ====
section
/-!
DEFINITION. The acceptance of a descriptor as one event (R339): its conditions, the reads of records and lists
(R140, R346), the checks of R137, what is sampled, the journal entry (R402 to R406) and the start of its work.
-/

namespace Sys2Proof.Machine

/-! ## May a queue accept (R339)? -/

def queueKey (q o : Nat) : Nat := 0x4000 + q * 0x1000 + o

/-- CLUSTER_SET as adopted: FIRST and COUNT (R155). -/
def State.clusterSet (s : State) (q : Nat) : Nat × Nat :=
  (s.regF (queueKey q 0x140) 0 9, s.regF (queueKey q 0x140) 16 9)

/-- The queue's next descriptor names a pending page (R351). -/
def State.heldCommit (s : State) (q : Nat) : Bool :=
  let (first, n) := s.clusterSet q
  s.pendingPages.any fun b =>
    b == queueKey q 0 || b == 0x1000 || b == 0x2000
      || (decide (0x1000000 ≤ b) && decide (first ≤ clusterOf b) && decide (clusterOf b < first + n))

/-- A completion slot is left for one more descriptor (R339 condition 2). -/
def State.cplRoom (s : State) (q : Nat) : Bool :=
  decide (s.inFlight q + (s.reg (queueKey q 0x12C) - s.reg (queueKey q 0x130)).toNat
    < 2 ^ s.regF (queueKey q 0x128) 0 5)

/-- The descriptor that the queue would accept: a steward's template, or the one read ahead (R339, R400). -/
def State.nextDesc (s : State) (q : Nat) : Option Desc :=
  match (s.queue q).ahead with
  | some d => some d
  | none => if s.shut = .none then (s.queue q).held else none

/-- Does the die take new work at all (R411, R462, R476)? -/
def State.accepting (s : State) : Bool :=
  s.bootStep == 10 && s.admitSt == 2 && !s.mute && !s.stopped && !s.inRecovery && s.journalRoom

/-- Conditions 1 to 4 of R339. -/
def State.mayAccept (s : State) (q : Nat) : Bool :=
  match s.nextDesc q with
  | none => false
  | some d =>
    s.accepting && (s.queue q).st == .run && decide (s.inFlight q ≤ s.regF (queueKey q 0x10) 8 4)
      && s.cplRoom q && (!d.order || s.inFlight q == 0) && !s.heldCommit q

/-- Condition 5: the queues take turns (R161). -/
def State.turnOf (s : State) : Option Nat :=
  ((List.range 16).map fun i => (s.turn + i) % 16).find? s.mayAccept

/-! ## Reads at acceptance (R140, R346, R454) -/

/-- What has been read: records by reference, and whether a read was lost or refused, after which nothing else is read
(R346). A record that was not read is absent, which is a failure of step 3 of R137. -/
structure Fetch where
  st      : State
  recs    : Records
  lost    : Bool
  refused : Bool

/-- One area, if the task may read it. -/
def Fetch.area (f : Fetch) (x : Sample) (v : HubView) (addr n : Nat) : Fetch × Option Nat :=
  if f.lost || f.refused || addr % 32 != 0 || !inMemory addr n
      || !f.st.permitted x.q x.desc.job addr n 0 then (f, none)
  else
    let s := f.st.viewReads v (8 + x.q) 15 addr n x.seq
    match viewRange v addr n with
    | .ok => ({ f with st := s }, some (ofLE (viewBytes v addr n)))
    | .refused => ({ f with st := s, refused := true }, none)
    | .lost => ({ f with st := s, lost := true }, none)

/-- The record of a reference, once. -/
def Fetch.record (f : Fetch) (x : Sample) (v : HubView) (ref : Nat) : Fetch :=
  if ref = 0 ∨ refKind ref ≠ 0 ∨ !refLegal ref ∨ f.recs.any (fun p => p.1 == ref) then f
  else
    let (f, y) := f.area x v ref 32
    { f with recs := f.recs ++ [(ref, y)] }

/-- The pointer list as a number, and its entries. -/
def Fetch.list (f : Fetch) (x : Sample) (v : HubView) : Fetch × Option Nat :=
  let d := x.desc
  if d.opcode = opBatched ∧ d.word 4 ≤ 65536 ∧ d.pair 2 < 2 ^ 52 then f.area x v (d.pair 2) (32 * d.word 4)
  else (f, none)

def listItem (l i : Nat) : Nat := l / 2 ^ (256 * i) % 2 ^ 256

/-- The products of a descriptor as references with their dims, before records are read: index, references and
(m, n, k). -/
def productsOf (d : Desc) (l : Nat) : List (Nat × Refs × Nat × Nat × Nat) :=
  if d.opcode = opBatched then
    (List.range (d.word 4)).map fun i => (i, listEntry d (listItem l i))
  else if 1 ≤ d.opcode ∧ d.opcode ≤ 5 then
    [(0, d.refs, dimM d.dims, dimN d.dims, if d.isProduct then dimK d.dims else 0)]
  else if d.opcode = opWindowWrite then [(0, ⟨d.pair 2, 0, 0⟩, 0, 0, 0)]
  else []

/-- Everything that acceptance reads. -/
def fetchAll (s : State) (x : Sample) (v : HubView) : Fetch × Option Nat :=
  let f : Fetch := { st := s, recs := [], lost := false, refused := false }
  let (f, l) := f.list x v
  let ps := productsOf x.desc (l.getD 0)
  let ps := if x.desc.opcode = opBatched ∧ l = none then [] else ps
  (ps.foldl (fun f p => ((f.record x v p.2.1.a).record x v p.2.1.b).record x v p.2.1.c) f, l)

/-! ## The descriptor hash (R404) -/

def refBytes (r : Records) (ref : Nat) : List Byte :=
  if ref = 0 ∨ refKind ref ≠ 0 then []
  else match r.get ref with
    | some x => toLE 32 x
    | none => []

def descHash (d : Desc) (chain : List Word) (r : Records) (l : Option Nat) : List Byte :=
  let ps := if d.opcode = opBatched ∧ l = none then [] else productsOf d (l.getD 0)
  sha384 (toLE 64 d.toNat
    ++ (match l with | some x => toLE (32 * d.word 4) x | none => [])
    ++ ps.flatMap (fun p => refBytes r p.2.1.a ++ refBytes r p.2.1.b ++ refBytes r p.2.1.c)
    ++ (if d.hasChain then chain.flatMap fun w => toLE 4 w.toNat else []))

/-! ## The checks of R137 -/

/-- Shapes of the entries: CONV takes its M, N and K from its input (R146). -/
def State.shapes (s : State) (x : Sample) (r : Records) (l : Nat) : List (Nat × Refs × Nat × Nat × Nat) :=
  let d := x.desc
  (productsOf d l).map fun p =>
    if d.opcode = opConv then
      let (h, w, c, ni) := s.convInput x r
      (p.1, p.2.1, convDims d.conv h w c ni)
    else p

/-- A field that the opcode's layout does not allow. -/
def layoutCheck (d : Desc) : Option Failure :=
  if d.opcode = 0 ∨ 13 < d.opcode then some { step := 1, who := 0, off := 0 }
  else (reservedBit d d.opcode).map fun off => { step := 1, who := 0, off := off }

/-- The first failure of a descriptor. -/
def State.checkDesc (s : State) (x : Sample) (f : Fetch) (l : Option Nat) : Option Failure :=
  let d := x.desc
  let dark := s.darkIsland x
  let own := [layoutCheck d, fieldChecks d,
    failIf (d.hasChain && chainBad d x.chain) { step := 1, who := 0, off := 4 }]
  match firstOf own with
  | some y => some y
  | none =>
    if d.opcode = opBatched ∧ l = none ∧ d.word 4 ≠ 0 then
      orderSteps dark [some { step := 3, who := 5, off := 0xFF }]
    else if 1 ≤ d.opcode ∧ d.opcode ≤ 5 then
      let es := s.shapes x f.recs (l.getD 0)
      let vs := sliversOf x (es.map fun p => (p.1, p.2.2))
      let cin := s.convInput x f.recs
      let records := es.any fun p => [p.2.1.a, p.2.1.b, p.2.1.c].any fun r => r != 0 && refKind r == 0
      let handles := es.flatMap fun p => s.entryHandles x f.recs p.2.1 p.2.2 cin
      firstOf (es.map (fun p =>
        s.entryChecks x f.recs cin
          { records := records, handles := handles, index := p.1, refs := p.2.1, m := p.2.2.1, n := p.2.2.2.1,
            k := p.2.2.2.2, vs := checkedSlivers x vs p.1 p.2.1 } dark) ++ [dark])
    else orderSteps dark (match d.opcode with
      | 6 => s.windowChecks x f.recs
      | 7 => s.waitChecks x
      | 8 => signalChecks s x
      | 9 => fenceChecks s x
      | 10 => s.secureChecks x
      | 12 => s.restoreChecks x
      | 13 => s.scrubChecks x
      | _ => [])

/-- IMPOSE capture, refusing page and DETAIL of a failed check (R354, R478). -/
def State.recordFailure (s : State) (x : Sample) (f : Failure) : State × Nat :=
  let det := match f.page with | some p => p.1.detail | none => 0
  let s := s.capture pgImpose f.step
    [x.seq, w32 (x.q + x.desc.job * 65536), w32 (f.step + f.who * 16 + f.off * 256),
     (match f.entry with | some e => w32 e | none => 0xFFFFFFFF), w32 det]
  let s := match f.page with
    | some p => (s.capture p.1 p.2.1 p.2.2).noteRefusal p.1
    | none => s
  (s, match f.page, f.entry with
    | some _, _ => det
    | none, some e => e
    | none, none => 0)

/-! ## Starting the work -/

/-- Tiles of earlier slivers of the operation that a core has on the same cluster. -/
def tilesBefore (vs : List Sliver) (c i n : Nat) : Nat :=
  ((vs.take n).filter fun v => v.cluster == c).foldl (fun a v => a + ((v.share i).2 - (v.share i).1)) 0

/-- Issue an operation's slivers to the cores (R161, R166), each starting after its watermark (R412). -/
def State.launch (s : State) (id : Nat) : State :=
  match s.op id with
  | none => s
  | some o =>
    let numbered := (List.range o.slivers.length).zip o.slivers
    let s := s.mapCores fun _ c => match c.marks.find? (·.op == id) with
      | some m => c.setMark { m with tiles := m.slugs }
      | none => c
    numbered.foldl
      (fun t x =>
        let v := x.2
        (List.range 256).foldl
          (fun u i =>
            let (a, b) := v.share i
            let k := v.cluster * 256 + i
            let c := u.core k
            let skip := (c.mark id).slugs - tilesBefore o.slivers v.cluster i x.1
            if b ≤ a + skip then u
            else u.setCore k { c with
              work := c.work ++ [{ op := id, sliver := v, base := a, next := a + skip, stop := b }] }) t) s

/-- Is a SCRUB done: has every bank that it darkened left the closing state (R259)? -/
def State.scrubDone (s : State) (o : OpRec) : Bool :=
  match o.kind with
  | .scrub mask first count dark =>
    !dark || (setClusters first count).all fun c => (maskHandles mask.toNat).all fun h =>
      let e := s.handle c h
      (List.range 48).all fun b => !(e.count != 0 && e.inBank b
        && (match s.bank (bankKey c b) with | .closing _ => true | _ => false))
  | _ => true

/-- SCRUB acts (R259). -/
def State.scrubRun (s : State) (o : OpRec) : State :=
  match o.kind with
  | .scrub mask first count dark =>
    (setClusters first count).foldl
      (fun t c =>
        let u := (maskHandles mask.toNat).foldl
          (fun u h => let u := u.scrub c h; if dark then u.darken c h else u) t
        if dark then u.retarget c t else u) s
  | _ => s

/-- The operation may issue writes and messages: its journal entry is flushed, or there is none (R406). -/
def State.startRun (s : State) (id : Nat) : State :=
  let s := s.modOp id fun p => if p.phase = .journaling then { p with phase := .running } else p
  match s.op id with
  | none => s
  | some o =>
    match o.kind with
    | .compute => s.settle id
    | .window _ _ _ => (o.slivers.foldl (fun t v => t.windowNext id v.cluster) s).settle id
    | .signal false _ => s.flush (8 + o.q) 15 (.signalFlush id)
    | .fence _ _ _ _ => s.fenceGo id
    | _ => s

/-- RESTORE_CHECK reads and loads its image, whose handles its task claims once the image's header names them (R424,
R425); with its completion status. -/
def State.restoreWork (s : State) (o : OpRec) (v : HubView) : State × Nat :=
  (s.modOp o.id fun p => { p with written := [] }).restore o.id (positions o.first o.count) (o.desc.pair 2)
    (o.desc.pair 4) v
    (fun t keys => (t.claimAll keys o.q o.job o.context o.endDark o.desc.inherit).modOp o.id
      fun p => { p with written := keys })

/-- What an accepted operation does at once, its journal entry apart. -/
def State.firstWork (s : State) (o : OpRec) (dpos : Nat) (v : HubView) : State :=
  match o.kind with
  | .compute => if o.slivers.isEmpty then s.finish o.id o.goodStatus else s.launch o.id
  | .window todo _ _ => if todo.isEmpty then s.finish o.id o.goodStatus else s
  | .wait c k target _ _ _ _ =>
    if target.toNat ≤ s.regN (winCountKey c k) then s.beginClose o false else s
  | .fence scope g _ _ => (if scope = 2 then s.fenceBegin o.id g else s).fenceGo o.id
  | .secure => s.secureBegin o (positions o.first o.count) (maskHandles (o.desc.pair 4)) dpos
  | .mark =>
    (s.modOp o.id fun p => { p with result := (o.jindex.getD s.written).toNat }).finish o.id o.goodStatus
  | .restore =>
    let (s, st) := s.restoreWork o v
    s.finish o.id (if st = 0 then o.goodStatus else st)
  | .scrub _ _ _ _ => s.scrubRun o
  | .failed => s.finish o.id o.status
  | _ => s

/-! ## What is sampled -/

/-- Rescue mode is in force (R122, R123). -/
def State.rescueActive (s : State) : Bool :=
  s.regF 0x1180 0 1 == 1 || s.bootStep != 10 || s.inRecovery

/-- The chain record that the mode word names, as adopted (R188). -/
def State.chainRecord (s : State) (d : Desc) : List Word :=
  if d.hasChain then (List.range 12).map fun i => s.reg (0x2100 + 0x30 * d.chainNo + 4 * i) else []

/-- Place of a handle's entry among the words that a STORE page's injections address: above the banks (R479; the spec
gives no numbers, log entry 15). -/
def handlePlace (h : Nat) : Nat := 48 * 32768 + h

/-- Acceptance reads the chain record, and the handle entries of the handles given, from stores with SEC-DED (R393,
R479); the flag tells that a word was lost, which fails the die. -/
def State.readChain (s : State) (d : Desc) : State × Bool :=
  if d.hasChain then s.readControl 0x2000 d.chainNo else (s, false)

def State.readEntries (s : State) (keys : List Nat) : State × Bool :=
  keys.foldl (fun a k =>
    let r := a.1.readControl (clusterBase (k / 64) + 0x1000) (handlePlace (k % 64))
    (r.1, a.2 || r.2)) (s, false)

/-- Do package-memory ranges of inputs and outputs overlap (R403 INPLACE)? -/
def overlaps (a b : List (Nat × Nat)) : Bool :=
  a.any fun x => b.any fun y => x.2 != 0 && y.2 != 0 && decide (x.1 < y.1 + y.2) && decide (y.1 < x.1 + x.2)

def State.inplaceOf (s : State) (x : Sample) (r : Records) (l : Nat) : Bool :=
  let es := s.shapes x r l
  let cin := s.convInput x r
  let os := es.flatMap fun p => (s.operands x r p.2.1 p.2.2 0 cin).map fun o => (o, p.2.2.1, p.2.2.2.1)
  let rng (w : Bool) := (os.filter fun o => o.1.write == w).flatMap fun o => o.1.ranges o.2.1 o.2.2
  overlaps (rng false) (rng true)

/-- The kind of an operation that has passed its checks. -/
def kindOf (x : Sample) (others : List OpRec) : OpKind :=
  let d := x.desc
  match d.opcode with
  | 6 =>
    let n := d.word 8 / 64
    .window ((senders x).flatMap fun c => (List.range n).map fun i => (c, 64 * i)) [] []
  | 7 => .wait (fld (d.word 2) 0 9) (fld (d.word 2) 16 6) (w32 (d.word 3)) (w32 (d.word 4)) (bit (d.word 1) 0) none false
  | 8 => .signal false false
  | 9 =>
    let scope := fld (d.word 1) 0 2
    let w := if scope = 1 then others else others.filter fun o => o.q == x.q
    .fence scope (fld (d.word 1) 8 6) (w.map (·.id)) false
  | 10 => .secure
  | 11 => .mark
  | 12 => .restore
  | 13 => .scrub (BitVec.ofNat 64 (d.pair 2)) (scrubRange d).1 (scrubRange d).2 (bit (d.word 1) 0)
  | _ => .compute

/-- A record with everything common; a failed check's status when there is one. -/
def opRecord (x : Sample) (id : Nat) (dark : Bool) (kind : OpKind) : OpRec :=
  { id := id, q := x.q, seq := x.seq, desc := x.desc, first := x.first, count := x.count, rescue := x.rescue,
    headAt := x.headAt, jindex := none, context := x.context, endDark := dark, entries := [], dimH := 0,
    dimW := 0, dimC := 0, dimN := 0, chain := x.chain, slivers := [], holds := [], named := [], written := [],
    wrote := [],
    genIn := 0, genOut := 0, dhash := [], inplace := false, streams := [], flags := 0, committed := 0,
    status := 0, stopped := false, detail := 0, result := 0, phase := .running, kind := kind, replays := 0,
    fromJournal := false, writeRecord := true, noReplay := false, lostReads := [] }

/-- The operation record of a descriptor that passed its checks: its entries, slivers and handles. -/
def State.passed (s : State) (x : Sample) (id : Nat) (dark : Bool) (f : Fetch) (l : Option Nat) (v : HubView) :
    OpRec :=
  let d := x.desc
  let o := opRecord x id dark (kindOf x s.accepted)
  let pos := positions x.first x.count
  if 1 ≤ d.opcode ∧ d.opcode ≤ 5 then
    let es := s.shapes x f.recs (l.getD 0)
    let vs := sliversOf x (es.map fun p => (p.1, p.2.2))
    let ents := es.map fun p =>
      ({ index := p.1, m := p.2.2.1, n := p.2.2.2.1, k := p.2.2.2.2, a := resolve f.recs p.2.1.a,
         b := resolve f.recs p.2.1.b, c := resolve f.recs p.2.1.c } : Entry)
    let (rd, wr) := computeHandles d x.chain ents vs
    let (h, w, c, n) := s.convInput x f.recs
    let isConv := d.opcode == opConv
    { o with
      entries := ents, slivers := vs, holds := (vs.map (·.cluster)).foldl setIns [],
      named := wr.foldl setIns rd, written := wr,
      dimH := if isConv then h else 0, dimW := if isConv then w else 0, dimC := if isConv then c else 0,
      dimN := if isConv then n else 0, inplace := s.inplaceOf x f.recs (l.getD 0) }
  else
    match d.opcode with
    | 6 =>
      let src := resolve f.recs (d.pair 2)
      let cs := senders x
      { o with
        entries := [{ index := 0, m := 0, n := 0, k := 0, a := src, b := .none, c := .none }]
        slivers := cs.map fun c =>
          { entry := 0, cluster := c, row0 := 0, rows := 0, col0 := 0, cols := 0, mt := 8, nt := 8 }
        holds := cs.foldl setIns [], named := handleKeys cs src.handles }
    | 10 =>
      { o with holds := pos.foldl setIns [], named := handleKeys pos (maskHandles (d.pair 4)) }
    | 12 =>
      let mask := (ImageHead.ofBytes (viewBytes v (d.pair 2) 256)).mask
      let ks := handleKeys pos (maskHandles mask)
      { o with holds := pos.foldl setIns [], named := ks, written := ks }
    | 13 =>
      let (first, n) := scrubRange d
      let cs := setClusters first n
      let ks := handleKeys cs (maskHandles (d.pair 2))
      { o with holds := cs, named := ks, written := ks }
    | _ => o

/-- Handles that count in GEN_IN (R405). -/
def OpRec.readHandles (o : OpRec) : List Nat :=
  match o.kind with
  | .compute => (computeHandles o.desc o.chain o.entries o.slivers).1
  | .window _ _ _ | .secure => o.named
  | _ => []

/-- Handles that the descriptor claims at acceptance (R232): not those of a SCRUB, and those of a RESTORE_CHECK
only when it loads them. -/
def OpRec.claims (o : OpRec) : List Nat :=
  match o.kind with
  | .compute | .window _ _ _ | .secure => o.named
  | _ => []

/-! ## Acceptance -/

/-- The record of an operation with its place in the journal, if the journal is on. -/
def State.journaled (s : State) (o : OpRec) : OpRec :=
  if s.journalOn then { o with jindex := some s.written, phase := .journaling } else o

/-- The operation stands among those in flight, and its journal entry is written. -/
def State.enlist (s : State) (o : OpRec) : State :=
  let s : State := { s with ops := s.ops ++ [o] }
  match o.jindex with
  | some i => s.journalWrite o i
  | none => s

/-- Put an accepted operation into flight: journal entry, then its work. -/
def State.commence (s : State) (o : OpRec) (v : HubView) : State :=
  let dpos := (s.queue o.q).lastDpos
  let o := s.journaled o
  let s := (s.enlist o).firstWork o dpos v
  if o.phase = .running then s.startRun o.id else s

/-- What the acceptance of a queue's next descriptor samples. -/
def State.sampleNext (s : State) (q : Nat) (d : Desc) : Sample :=
  let (first, count) := s.clusterSet q
  { q := q, seq := s.reg (queueKey q 0x144), desc := d, first := first, count := count,
    rescue := s.rescueActive,
    headAt := if (s.queue q).ahead.isSome then 0xFFFFFFFF else s.reg (queueKey q 0x110),
    chain := s.chainRecord d, context := (s.taskEntry q d.job).map (·.context) }

/-- Is the descriptor's task one whose handles go dark at its end (R260)? -/
def State.darkNext (s : State) (q : Nat) (d : Desc) : Bool := ((s.taskEntry q d.job).map (·.endDark)).getD false

/-- The queue takes its next descriptor: SEQ, HEAD unless it is a steward's template, the turn, the task and its
ticket. -/
def State.takeNext (s : State) (q : Nat) (d : Desc) : State :=
  let Q := s.queue q
  let context := (s.taskEntry q d.job).map (·.context)
  let dark := s.darkNext q d
  let s := s.incReg (queueKey q 0x144)
  let s := if Q.ahead.isSome then s.setQueue q { Q with ahead := none }
    else (s.incReg (queueKey q 0x110)).setQueue q { Q with held := none }
  let s : State := { s with nextOp := s.nextOp + 1, turn := (q + 1) % 16 }
  (s.taskAccepted q d.job context dark).takeTicket d.job

/-- The reads and the checks of a sampled descriptor: its hash, and the operation that it becomes, or the status and
DETAIL with which it fails. A read lost twice ends the descriptor before the checks, also where a field of it is
reserved: R346 asks for REPLAY_FAILED and R16 for FORMAT_FAULT, and neither says which comes first. DESIGN CHOICE, log
entry 88. -/
def State.judge (s : State) (x : Sample) (id : Nat) (dark : Bool) (v : HubView) :
    State × List Byte × Except (Nat × Nat) OpRec :=
  let (s, gone) := s.readChain x.desc
  let (f, l) := fetchAll s x v
  let s := f.st
  let hash := descHash x.desc x.chain f.recs l
  if f.lost || gone then (s, hash, .error (0x31, 0))
  else
    match s.checkDesc x f l with
    | some y =>
      let (s, detail) := s.recordFailure x y
      (s, hash, .error (y.code, detail))
    | none =>
      let o := s.passed x id dark f l v
      let (s, gone) := s.readEntries o.named
      (s, hash, if gone then .error (0x31, 0) else .ok o)

/-- The next descriptor of a queue is taken, read and checked, and its handles claimed: the state, and the operation
that goes into flight, which is one of kind `failed` where a read or a check failed. -/
def State.enterNext (s : State) (q : Nat) (d : Desc) (v : HubView) : State × OpRec :=
  let x := s.sampleNext q d
  let dark := s.darkNext q d
  let id := s.nextOp
  let (s, hash, y) := (s.takeNext q d).judge x id dark v
  match y with
  | .error (status, detail) =>
    (s, { opRecord x id dark .failed with status := status, stopped := true, detail := detail, dhash := hash })
  | .ok o =>
    let s := s.claimAll o.claims q d.job x.context dark d.inherit
    (s, { o with dhash := hash, genIn := s.genSum o.readHandles, genOut := s.genSum o.written })

/-- The acceptance of the next descriptor of a queue, in one step. -/
def State.acceptNext (s : State) (q : Nat) (d : Desc) (v : HubView) : State :=
  let (t, o) := s.enterNext q d v
  t.commence o v

/-- A queue accepts its next descriptor if it has the opcode and its turn has come. -/
def State.accept (s : State) (q opcode : Nat) (v : HubView) : State :=
  match s.nextDesc q with
  | some d => if d.opcode = opcode ∧ s.turnOf = some q then s.acceptNext q d v else s
  | none => s

/-- Answers to earlier reads of a queue's slots, which it dropped when it left run, are wanted no more (R339). -/
def State.forgetReads (s : State) (q : Nat) : State :=
  { s with outst := s.outst.map fun x =>
      match x.purpose with
      | .descRead p _ => if p = q then { x with purpose := .block } else x
      | _ => x }

/-- DESCRIPTOR_READ (R339): the slot at HEAD is read once, ahead of its acceptance. A held descriptor with a
reserved opcode has no row of its own: it is accepted here, and fails (R16). -/
def State.readSlot (s : State) (q : Nat) : State :=
  let Q := s.queue q
  match s.nextDesc q with
  | some d =>
    if (d.opcode = 0 ∨ 13 < d.opcode) ∧ s.turnOf = some q then s.acceptNext q d ⟨[], []⟩ else s
  | none =>
    let head := s.reg (queueKey q 0x110)
    if Q.st != .run || Q.held.isSome || Q.reading || !s.onDuty || s.bootStep != 10 || s.shut != .none
        || s.reg (queueKey q 0x10C) == head then s
    else
      let base := s.regN (queueKey q 0x100) + 2 ^ 32 * s.regN (queueKey q 0x104)
      let addr := base + 64 * (head.toNat % 2 ^ s.regF (queueKey q 0x108) 0 5)
      ((s.forgetReads q).setQueue q { Q with reading := true }).readMem (8 + q) 15 addr 64 (.descRead q false)

/-! ## The meanings of the commands -/

def execMatmul (q : Fin 16) (view : HubView) (s : State) : Outcome := .next (s.accept q.val opMatmul view)

def execConv (q : Fin 16) (view : HubView) (s : State) : Outcome := .next (s.accept q.val opConv view)

def execBatched (q : Fin 16) (view : HubView) (s : State) : Outcome := .next (s.accept q.val opBatched view)

def execElementwise (q : Fin 16) (view : HubView) (s : State) : Outcome :=
  .next (s.accept q.val opElementwise view)

def execMove (q : Fin 16) (view : HubView) (s : State) : Outcome := .next (s.accept q.val opMove view)

def execWindowWrite (q : Fin 16) (view : HubView) (s : State) : Outcome :=
  .next (s.accept q.val opWindowWrite view)

def execWaitCount (q : Fin 16) (view : HubView) (s : State) : Outcome := .next (s.accept q.val opWaitCount view)

def execSignal (q : Fin 16) (view : HubView) (s : State) : Outcome := .next (s.accept q.val opSignal view)

def execFence (q : Fin 16) (view : HubView) (s : State) : Outcome := .next (s.accept q.val opFence view)

def execSecureState (q : Fin 16) (view : HubView) (s : State) : Outcome :=
  .next (s.accept q.val opSecureState view)

def execJournalMark (q : Fin 16) (view : HubView) (s : State) : Outcome :=
  .next (s.accept q.val opJournalMark view)

def execRestoreCheck (q : Fin 16) (view : HubView) (s : State) : Outcome :=
  .next (s.accept q.val opRestoreCheck view)

def execScrub (q : Fin 16) (view : HubView) (s : State) : Outcome := .next (s.accept q.val opScrub view)

def execDescriptorRead (q : Fin 16) (s : State) : Outcome := .next (s.readSlot q.val)

end Sys2Proof.Machine
end

