-- ==== Sys2Proof/Machine/Complete.lean ====
section
/-!
DEFINITION. What the hub answers (R283 to R291, R297, R346) and the end of an operation: its FLUSHes, its
journal entry and its completion record (R292, R342 to R344, R406).
-/

namespace Sys2Proof.Machine

/-! ## Protocol errors of a response (R288, R297) -/

/-- The header of a response as the five words of R282. -/
def respWords (op : TxnOp) (ndata tag stream status srcpos srcpkg : Nat) : List Word :=
  [ w32 (op.code + ndata % 128 * 2 ^ 8 + tag % 4096 * 2 ^ 16 + stream % 16 * 2 ^ 28), 0, 0,
    w32 (status % 256 * 2 ^ 8 + srcpos % 16 * 2 ^ 16 + srcpkg % 256 * 2 ^ 24), 0 ]

/-- HUBPORT records a header with a reserved field or STATUS and raises the protocol error. -/
def State.protocolError (s : State) (port cause : Nat) (words : List Word) : State :=
  (s.capture (pgPort port) cause words).raise (pgPort port) 16

/-- The STATUS codes that R288 lists for a response. -/
def statusListed (op : TxnOp) (st : Nat) : Bool :=
  match op with
  | .rdr => st == 0 || st == 0x10 || st == 0xF0
  | .atr => st == 0 || st == 0x10
  | .mack => st == 0 || st == 0x10 || st == 0x22
  | .wack => [0, 0x10, 0x11, 0x12, 0x13, 0x20, 0x21, 0x22].contains st
  | _ => st == 0

/-- A response arrives: its STATUS is checked, the transaction that it answers is found and forgotten, and `f`
acts on it with the STATUS, 10h standing for one that is not listed. -/
def State.answered (s : State) (op : TxnOp) (port vc tag status ndata : Nat) (want : TxnOp → Bool)
    (f : State → Outst → Nat → State) : State :=
  if s.mute then s
  else
    let ok := statusListed op status
    match s.findOutst port vc tag with
    | none =>
      if ok then s else s.protocolError port 5 (respWords op ndata tag 0 status s.pos 0xFF)
    | some x =>
      if !want x.op then s
      else
        let s := if ok then s
          else s.protocolError port 5 (respWords op ndata tag x.stream status s.pos 0xFF)
        f (s.dropOutst x) x (if ok then status else 0x10)

/-! ## The end of an operation (R342 to R346) -/

/-- A queue in stopping with nothing in flight is disabled, and its tasks end (R344, R455). -/
def State.stopCheck (s : State) (q : Nat) : State :=
  let Q := s.queue q
  if Q.st == .stopping && s.inFlight q == 0 then (s.setQueue q { Q with st := .disabled }).endAllTasks q else s

/-- The 16 bytes of a completion record. -/
def OpRec.record (o : OpRec) (phase : Nat) : List Byte :=
  toLE 4 o.seq.toNat ++ toLE 2 o.job ++ toLE 1 o.status ++ toLE 1 (o.q + 128 * phase)
    ++ toLE 2 o.flags ++ toLE 2 o.detail ++ toLE 4 o.result.toNat

/-- PHASE of record `j` in a ring of 2^size slots. -/
def cplPhase (j size : Nat) : Nat := (1 + j / 2 ^ size) % 2

/-- The completion record and what it brings: CPL_TAIL, LAST_SEQ, interrupts, and a halt. -/
def State.writeRecord (s : State) (o : OpRec) : State :=
  let k := queueKey o.q
  let j := s.reg (k 0x12C)
  let size := s.regF (k 0x128) 0 5
  let base := s.regN (k 0x120) + 2 ^ 32 * s.regN (k 0x124)
  let s := s.writeMem (8 + o.q) 15 (base + 16 * (j.toNat % 2 ^ size)) (o.record (cplPhase j.toNat size))
    (.record o.q o.seq)
  let s := (s.setReg (k 0x12C) (j + 1)).setReg (k 0x148) o.seq
  let bits := b2n (o.desc.irq) + 2 * b2n (decide (0x10 ≤ o.status))
  let s := if bits = 0 then s else s.raise (pgQueue o.q) bits
  if halting s o.status then s.haltQueue o.q o.status else s

/-- Statuses with which a replay from the journal stops (R413, R416). -/
def stopsReplay (s : State) (st : Nat) : Bool := st == 0x31 || st == 0x41 || (st == 0x40 && halting s st)

/-- A replay ends with its operation: a failure is reported, and the recovery period ends with the last one
(R411, R415). A replay from the journal goes on with the next entry, or is about to stop (R416). -/
def State.replayEnded (s : State) (o : OpRec) : State :=
  match s.replay with
  | .flight todo =>
    if !setHas todo o.id then s
    else
      let s := if o.status = 0x31 then (s.setRegF 0x4D120 8 8 0x31).raise pgJournal 4 else s
      let rest := setDel todo o.id
      if rest.isEmpty then (({ s with replay := .idle } : State).setRegF 0x4D120 0 2 0).raise pgJournal 2
      else { s with replay := .flight rest }
  | .journal n =>
    if !o.fromJournal then s
    else if stopsReplay s o.status then { s with replay := .failing n o.status }
    else { s with replay := .journal (n + 1) }
  | _ => s

/-- Operations of a list that hold a cluster (R350). -/
def State.holders (s : State) (ids : List Nat) (c : Nat) : List Nat :=
  (s.ops.filter fun o => setHas ids o.id && setHas o.holds c).map (·.id)

/-- For each pending cluster page whose cluster no descriptor accepted before the request holds any more, the
moment of R349 has come: no later hold delays its adoption. -/
def State.commitMoments (s : State) : State :=
  { s with commitHold := s.commitHold.map fun p =>
      (p.1, if (s.holders p.2 (clusterOf p.1)).isEmpty then [] else p.2) }

/-- The securing of a shutdown has completed (R476 step 2). -/
def State.shutSecured (s : State) (o : OpRec) : State :=
  if s.shut = .securing ∧ o.headAt = 0xFFFFFFFF then
    { s with shut := .stopping, shutResult := if o.status = 0 then 0 else 3 }
  else s

/-- Everything that waits for an operation goes on once its record is written. -/
def State.retireOp (s : State) (o : OpRec) : State :=
  let s := match o.kind with
    | .scrub _ _ _ _ => s
    | .restore => o.written.foldl (fun t k => t.bumpGen (k / 64) (k % 64)) s
    | _ => o.wrote.foldl (fun t k => t.bumpGen (k / 64) (k % 64)) s
  let s := s.dropOp o.id
  let s := s.dropStage o.id
  let s := s.mapCores fun _ c => { c with marks := c.marks.filter (·.op != o.id) }
  let s := match o.jindex with
    | some i => s.journalEnd i
    | none => s
  (((((s.shutSecured o).commitMoments).replayEnded o).fencesGo).endTasks o.q).stopCheck o.q

/-- Write the record, if one is due, and let go of the operation. -/
def State.completeOp (s : State) (id : Nat) : State :=
  match s.op id with
  | none => s
  | some o => (if o.writeRecord then s.writeRecord o else s).retireOp o

/-- The FLUSHes over the operation's writes have returned: the completion part of the journal entry goes out, and
the record follows its FLACK (R406); without an entry the record goes out at once. -/
def State.flushed (s : State) (id : Nat) : State :=
  match s.op id with
  | none => s
  | some o =>
    match o.jindex, o.kind with
    | some i, _ =>
      if o.fromJournal && !o.writeRecord then s.completeOp id
      else (s.modOp id fun p => { p with phase := .flushing 1 }).journalDone o i (s.reg (queueKey o.q 0x12C))
    | none, _ => s.completeOp id

/-- The streams that the FLUSHes of an operation cover: those of its writes, and that of its completion ring
(R292, R346). -/
def OpRec.flushStreams (o : OpRec) : List (Nat × Nat) :=
  if o.streams.contains (8 + o.q, 15) then o.streams else o.streams ++ [(8 + o.q, 15)]

/-- OPERATION_COMPLETION: an operation whose work is over goes to its FLUSHes; records of one queue are written
one after another. -/
def State.operationCompletion (s : State) (id : Nat) : State :=
  let s := match s.op id with
    | some o =>
      (match o.kind, o.phase with
      | .fence _ _ _ _, .running => s.fenceGo id
      | .scrub _ _ _ _, .running => if s.scrubDone o then s.finish id o.goodStatus else s
      | _, _ => s)
    | none => s
  match s.op id with
  | none => s
  | some o =>
    let others := s.ops.any fun p => p.q == o.q && (match p.phase with | .flushing _ => true | _ => false)
    let entry := s.outst.any fun x => x.purpose == .journalFlush id
    if o.phase != .finished || others || entry || !s.onDuty || (o.kind == .slot && !s.cplRoom o.q) then s
    else
      let l := o.flushStreams
      l.foldl (fun t p => t.flush p.1 p.2 (.doneFlush id)) (s.modOp id fun p => { p with phase := .flushing l.length })

/-! ## RDR (R288, R346, R395) -/

/-- A ring slot could not be read (R346). -/
def State.slotFailed (s : State) (q status : Nat) : State :=
  let k := queueKey q
  let seq := s.reg (k 0x144)
  let s := ((s.incReg (k 0x144)).incReg (k 0x110)).capture (pgQueue q) 1 [seq, w32 status]
  let id := s.nextOp
  let s := s.haltQueue q 0x10
  let x : Sample :=
    { q := q, seq := seq, desc := 0, first := 0, count := 0, rescue := false, headAt := 0, chain := [], context := none }
  { s with
    nextOp := id + 1
    ops := s.ops ++ [{ opRecord x id false .slot with
      status := 0x10, stopped := true, detail := 0xFFFE, phase := .finished }] }

/-- The read of a descriptor slot returns. A read that a queue no longer wants changes nothing. -/
def State.slotRead (s : State) (q : Nat) (again : Bool) (x : Outst) (status : Nat) (data : List Byte) : State :=
  let Q := s.queue q
  if Q.st != .run || !Q.reading then s
  else if status = 0 then
    s.setQueue q { Q with reading := false, held := some (BitVec.ofNat 512 (ofLE (fitBytes 64 data))) }
  else
    let s := if status = 0xF0 then s.uncorrected 3 (x.addr % 2 ^ 32) 0 (some (s.reg (queueKey q 0x144))) else s
    if status = 0xF0 ∧ again = false then s.readMem (8 + q) 15 x.addr 64 (.descRead q true)
    else s.slotFailed q status

/-- The core, the tile and the slug in the drain that a failed read of an operation concerns: those of a merge (R478);
no other read arises at a core. -/
def State.readerOf (s : State) (why : Purpose) : Option Nat × Option (Nat × Nat) × Option (Nat × Nat) :=
  match why with
  | .merge id k =>
    let f := (s.core k).formes.find? fun f => !f.writes.isEmpty && f.op == id
    (some k, f.map fun f => f.sliver.origin f.t, f.map fun f => (f.sliver.entry, f.t))
  | _ => (none, none, none)

/-- A read of an operation failed (R205, R395). -/
def State.opReadFailed (s : State) (id : Nat) (x : Outst) (status : Nat) : State :=
  match s.op id with
  | none => s
  | some o =>
    if status = 0xF0 then
      let n := 4 * x.words
      let twice := 0 < o.replays && overlaps o.lostReads [(x.addr, n)]
      let s := s.modOp id fun p => { p with lostReads := p.lostReads ++ [(x.addr, n)] }
      if twice then
        let s := s.uncorrected 3 (x.addr % 2 ^ 32) 0 (some o.seq)
        let s := (s.mapCores fun _ c => c.dropWork id true).dropAccesses id
        s.replayFailed.failWith id 0x31
      else s.opDataLost id 3 (x.addr % 2 ^ 32) 0
    else
      let (core, tile, cut) := s.readerOf x.purpose
      s.opFail id status core tile cut

/-- Bytes of a read reach the compositor of a cluster, where they await their slot of the staging area (R163, R221). -/
def State.putStaged (s : State) (c id addr : Nat) (d : List Byte) : State :=
  let x := s.stageOf c
  s.setStage c { x with bytes := putBytes x.bytes (stageKey id addr) d }

/-- The 64 source bytes of a window write, once all of them have come. -/
def State.sourceReady (s : State) (id cluster off : Nat) : State :=
  match ((s.op id).bind fun o => o.entries.head?).map Entry.a with
  | some (.record base _ _ _ _ _) =>
    let x := s.stageOf cluster
    let lo := stageKey id (base + off)
    let bs := (List.range 64).map fun i => SMap.find x.bytes (lo + i)
    if bs.all Option.isSome then
      let m := x.bytes.keep fun a => !(decide (lo ≤ a) && decide (a < lo + 64))
      (s.setStage cluster { x with bytes := m }).windowGo id cluster off (bs.map fun b => b.getD 0)
    else s
  | _ => s

/-- Is the operation still at work, so that read data is wanted? -/
def State.wants (s : State) (id : Nat) : Bool :=
  match s.op id with
  | some o => !o.stopped && (o.phase == .running || o.phase == .journaling)
  | none => false

/-- Bytes cross the die mesh to a cluster's compositor. A transfer that fails twice is uncorrectable at its destination
(R393): data that only the operation holds, at a place that the spec does not number (R395; log entries 3 and 15). -/
def State.meshStaged (s : State) (c id addr : Nat) (d : List Byte) : State :=
  let r := s.injectPath 0 addr .clean
  match r.2 with
  | .uncorrectable => r.1.freshWord.2.opDataLost id 1 r.1.freshWord.1.toNat c
  | .corrected => r.1.correctedError.putStaged c id addr d
  | .clean | .control => r.1.putStaged c id addr d

/-- Bytes for a merge cross the die mesh, the mesh port and the crossbar to a core (R203, R479; log entry 87); a transfer
that fails twice is a lost word of the core's. -/
def State.meshMerge (s : State) (id k addr : Nat) (d : List Byte) : State :=
  let put (t : State) : State :=
    let c := t.core k
    t.setCore k { c with arrived := putBytes c.arrived (2 ^ 54 + addr) d }
  let r := s.injectPath 0 addr .clean
  let r := r.1.injectPath (clusterBase (k / 256)) addr r.2
  let r := r.1.injectPath (clusterBase (k / 256) + 0x1000) addr r.2
  match r.2 with
  | .uncorrectable => r.1.coreLost k (some id)
  | .corrected => put r.1.correctedError
  | .clean | .control => put r.1

/-- RDR. -/
def State.readReturned (s : State) (x : Outst) (status : Nat) (data : List Byte) : State :=
  let d := fitBytes (4 * x.words) data
  match x.purpose with
  | .descRead q again => s.slotRead q again x status d
  | .stage id c =>
    if !s.wants id then s.settle id
    else if status = 0 then s.meshStaged c id x.addr d
    else s.opReadFailed id x status
  | .merge id k =>
    if !s.wants id then s.settle id
    else if status = 0 then s.meshMerge id k x.addr d
    else s.opReadFailed id x status
  | .winSource id c off =>
    if !s.wants id then s.settle id
    else if status = 0 then (s.meshStaged c id x.addr d).sourceReady id c off
    else s.opReadFailed id x status
  | _ => s

/-! ## ATR, WACK, MACK (R286 to R289, R297, R331) -/

/-- An atomic operation returns its old value; the spec gives no descriptor that issues one. -/
def State.atomicReturned (s : State) (x : Outst) (status : Nat) : State :=
  match x.purpose with
  | .atomic id => if status = 0 then s.settle id else s.opFail id status
  | _ => s

/-- A window write of the die is acknowledged or refused (R250, R431). -/
def State.windowAnswered (s : State) (x : Outst) (status : Nat) : State :=
  match x.purpose with
  | .windowWrite id c off =>
    let s := s.modOp id fun p =>
      match p.kind with
      | .window todo sent acked =>
        let ok := if status = 0 then acked ++ [(c, off)] else acked
        { p with kind := .window todo (sent.filter (· ≠ (c, off))) ok }
      | _ => p
    if status = 0 then s.settle id else s.opFail id status
  | .concord g _ round => if status = 0 ∨ status = 0x22 then s else s.concordRefused g round
  | _ => s

/-- DIE records a failed interrupt message with the vector; the spec lays out no detail words, and they are free
(log entry 3). -/
def State.vectorFailed (s : State) : State :=
  let (w0, s) := s.freshWord
  let (w1, s) := s.freshWord
  let (w2, s) := s.freshWord
  let (w3, s) := s.freshWord
  let (w4, s) := s.freshWord
  s.capture pgDie 1 [w0, w1, w2, w3, w4]

/-- A message of the die is answered. -/
def State.messageAnswered (s : State) (x : Outst) (status : Nat) : State :=
  match x.purpose with
  | .signal id =>
    match s.op id with
    | some o =>
      if status = 0 then (s.modOp id fun p => { p with kind := .signal true true }).finish id o.goodStatus
      else s.opFail id status
    | none => s
  | .vector v =>
    let s := { s with vecBusy := setDel s.vecBusy v }
    (if status = 0 then s else s.vectorFailed).vectorResend v
  | _ => s

/-! ## FLACK (R291, R292) -/

/-- A SIGNAL's message leaves (R289). -/
def State.signalGo (s : State) (o : OpRec) : State :=
  let kind := fld (o.desc.word 1) 0 2
  let value := o.desc.pair 4
  let target := o.desc.pair 2
  let foreign := decide (fld target 48 4 = 0xA) && decide (fld target 40 8 ≠ 0xFF)
  (s.modOp o.id fun p => { p with kind := .signal true false }).message (8 + o.q) target (BitVec.ofNat 64 value) kind
    (if kind = 2 then fld value 0 8 else 0) (.signal o.id) foreign

/-- One FLUSH of an operation's end has returned. -/
def State.doneFlushed (s : State) (id : Nat) : State :=
  match (s.op id).map OpRec.phase with
  | some (.flushing (n + 2)) => s.modOp id fun p => { p with phase := .flushing (n + 1) }
  | some (.flushing _) => s.flushed id
  | _ => s

/-- The posted writes that a FLUSH covers are performed or reported by now (R291). -/
def coveredOut (x : Outst) (l : List Outst) : List Outst :=
  let before := l.takeWhile (· ≠ x)
  let after := l.dropWhile (· ≠ x)
  before.filter (fun y => !(y.port == x.port && y.stream == x.stream && y.posted && y.held.isNone)) ++ after

/-- What a returned FLUSH was for. A FLACK with a STATUS that R288 does not list fails the operation. -/
def State.flushReturned (s : State) (x : Outst) (status : Nat) : State :=
  match x.purpose with
  | .journalFlush id =>
    let s := if status = 0 then s else s.opFail id status
    (match (s.op id).map OpRec.phase with
      | some (.flushing _) => s.completeOp id
      | _ => s.startRun id)
  | .doneFlush id => (if status = 0 then s else s.opFail id status).doneFlushed id
  | .signalFlush id =>
    match s.op id with
    | some o => if status = 0 then s.signalGo o else s.opFail id status
    | none => s
  | .jcbFlush floor => if status = 0 then { s with jfloor := w32 floor } else s
  | .secureFlush id => if status = 0 then s else s.opFail id status
  | .vectorFlush v => s.vectorMessage v
  | .sideFlush code value => s.sideMessage code value
  | _ => s

def State.flack (s : State) (port tag status : Nat) : State :=
  let s := match s.findOutst port 0 tag with
    | some x =>
      if x.op == TxnOp.flush && !s.mute then
        State.sendHeld port 0 s.outst.length { s with outst := coveredOut x s.outst }
      else s
    | none => s
  s.answered .flack port 0 tag status 0 (· == TxnOp.flush) State.flushReturned

/-! ## HUBERR (R290, R346) -/

def HdrWordsList (h : HdrWords) : List Word := [h.w0, h.w1, h.w2, h.w3, h.w4]

/-- The write that a HUBERR names has failed. -/
def State.writeFailed (s : State) (x : Outst) (status : Nat) : State :=
  match x.purpose with
  | .opWrite id core row col =>
    let c := if core = 0x1FFFF then none else some core
    s.opFail id 0x10 c (c.map fun _ => (row, col))
  | .record q seq => ((s.capture (pgQueue q) 2 [seq, w32 status]).raise (pgQueue q) 2).haltQueue q 0x10
  | _ => s

def State.huberr (s : State) (port : Nat) (h : HdrWords) : State :=
  if s.mute then s
  else
    let s := (s.capture (pgPort port) 1 (HdrWordsList h)).raise (pgPort port) 8
    match s.findPosted port (fld h.w0.toNat 16 12) (fld h.w0.toNat 28 4)
        (h.w1.toNat + fld h.w2.toNat 0 20 * 2 ^ 32) with
    | some x => (s.dropOutst x).writeFailed x (fld h.w3.toNat 8 8)
    | none => s

/-! ## The meanings of the commands -/

def execOperationCompletion (op : Nat) (s : State) : Outcome := .next (s.operationCompletion op)

def execRdr (port : Fin 32) (tag : BitVec 12) (status : Byte) (data : List Byte) (s : State) : Outcome :=
  .next (s.answered .rdr port.val 0 tag.toNat status.toNat (ceilDiv data.length 64) (· == .rd)
    fun t x st => t.readReturned x st data)

def execAtr (port : Fin 32) (tag : BitVec 12) (status : Byte) (data : List Byte) (s : State) : Outcome :=
  .next (s.answered .atr port.val 0 tag.toNat status.toNat (ceilDiv data.length 64) (· == .atom)
    State.atomicReturned)

def execWack (port : Fin 32) (tag : BitVec 12) (status : Byte) (s : State) : Outcome :=
  .next (s.answered .wack port.val 2 tag.toNat status.toNat 0 (fun o => o == .wwr || o == .wwa)
    State.windowAnswered)

def execMack (port : Fin 32) (tag : BitVec 12) (status : Byte) (s : State) : Outcome :=
  .next (s.answered .mack port.val 3 tag.toNat status.toNat 0 (· == .msg) State.messageAnswered)

def execFlack (port : Fin 32) (tag : BitVec 12) (status : Byte) (s : State) : Outcome :=
  .next (s.flack port.val tag.toNat status.toNat)

def execHuberr (port : Fin 32) (hdr : HdrWords) (s : State) : Outcome := .next (s.huberr port.val hdr)

end Sys2Proof.Machine
end

