-- ==== Sys2Proof/Machine/Stops.lean ====
section
/-!
DEFINITION. How the die leaves service: in-band interrupts (R303), failed start-up (R468, R477), isolation
(R309, R310, R435), the coolant stop and thermal shutdown (R390), and the end of a mailbox command (R461).
-/

namespace Sys2Proof.Machine

/-! ## In-band interrupts, mailbox and start-up failure -/

/-- An in-band interrupt, once an address is assigned and IBIs are enabled (R301, R303). -/
def State.raiseIbi (s : State) (b : Nat) : State :=
  if s.sb.ibi && s.sb.dynAddr.isSome then
    { s with sb := { s.sb with ibis := s.sb.ibis ++ [BitVec.ofNat 8 b] } }
  else s

def bootKey : Nat := 0x1100
def mbStatKey : Nat := 0x1208

/-- A mailbox command ends (R461). -/
def State.mailboxDone (s : State) (result : Nat) : State := (s.setRegN mbStatKey (result * 256)).raise pgSteward 1

def State.bootFailed (s : State) : Bool := s.regF bootKey 4 1 == 1

/-- A start-up step fails (R468). -/
def State.bootFail (s : State) (code : Nat) : State :=
  if s.bootFailed then s
  else
    let s := (s.setRegF bootKey 4 1 1).setRegF bootKey 8 8 code
    ({ s with sb := { s.sb with bootFailed := true } } : State).raiseIbi 5

/-- The die goes to the next start-up step; the time that the step took is not modelled and is free
(log entry 3). -/
def State.nextStep (s : State) (n : Nat) : State :=
  let (t, s) := s.freshWord
  let s := s.setReg (0x1110 + 4 * (n - 1)) t
  (s.setReg 0x1134 (s.reg 0x1134 + t)).setRegF bootKey 0 4 (n + 1)

/-! ## Work in flight when the die leaves service -/

/-- Work in flight stands still until the die decides on its replay (R310, R411); a descriptor that had failed
only completes again. -/
def State.freezeOps (s : State) : State :=
  s.ops.foldl
    (fun t o =>
      let no := t.cannotReplay o
      let t := (t.mapCores fun _ c => c.dropWork o.id true).dropAccesses o.id
      match o.kind with
      | .failed | .slot => t.modOp o.id fun p => { p with phase := .finished }
      | _ =>
        t.modOp o.id fun p =>
          { p with phase := if p.stopped then .finished else .interrupted, noReplay := p.noReplay || no }) s

/-- Every port is isolated: replay buffers and traffic are discarded, PALIVE_O falls and the strobes stop. -/
def State.cutPorts (s : State) : State :=
  (List.range 32).foldl
    (fun t p =>
      t.setPort p { t.port p with
        train := .isolated, retrain := false, replay := [], queue := [], owing := [], owed := [], rx := [],
        skipping := false, ask := false, aligned := [],
        gotTs1 := false, gotTs2 := false, lastAck := none, ackRun := 0, reqRun := 0, winErr := [],
        pwakeO := false, paliveO := false, strobes := false }) s

/-- Transactions awaiting an answer are lost with the ports; a vector's message that has not left becomes
pending (R331). -/
def State.dropTraffic (s : State) : State :=
  let held := s.outst.filterMap fun x => match x.purpose with | .vectorFlush v => some v | _ => none
  let s := { s with outst := [], vecBusy := [], queues := s.queues.map fun p => (p.1, { p.2 with reading := false }) }
  held.foldl (fun t v => t.orReg (0x20C + 16 * v) 2) s

/-- The values of UCODE, NUMERIC and FEATURES are latched (R435, R470). -/
def State.latchConcord (s : State) : State :=
  { s with latched :=
      { ucode := s.reg 0x1108, numeric := w32 s.numericMode, features := w32 s.features } }

/-! ## Isolation (R309, R310) -/

/-- Bit of ISO_CAUSE (R298). -/
def isoRefclk : Nat := 0
def isoTbase : Nat := 1
def isoLanes : Nat := 2
def isoHub : Nat := 3

/-- Latch a cause; with LANES, the first port that went DOWN. -/
def State.latchIso (s : State) (cause : Nat) (port : Option Nat) : State :=
  let had := bit (s.regN 0x40104) isoLanes
  let s := s.orReg 0x40104 (2 ^ cause)
  match port with
  | some p => if had then s else s.setRegF 0x40104 8 5 p
  | none => s

/-- The state of the mesh or control island. -/
def State.setRung (s : State) (i : Nat) (r : Rung) : State := s.setIsland i { s.island i with rung := r }

/-- Cluster islands in run or idle go to still, those in keep or dark stay (R383), and the mesh island goes to still
(R310, R311). The control island uses only run (R381; log entry 76). -/
def State.allStill (s : State) : State :=
  ((List.range 320).foldl
    (fun t c => if t.ladder c = 0 then t.setRegF (clusterBase c + 0x2104) 0 3 2 else t) s).setRung 320 .still

/-- The die stops its traffic and work. -/
def State.leaveService (s : State) : State :=
  { (s.freezeOps.dropTraffic).cutPorts with mute := true }

/-- Isolation runs (R310): the concord values are latched (R435), traffic and work stop, every island is still,
ADMIT reads isolated, and IBI 02h is raised. A shutdown in progress ends with RESULT 03h (R477). -/
def State.goIsolated (s : State) : State :=
  let busy := s.shut != .none
  let s := s.latchConcord.leaveService.allStill
  let s := (s.setRegN 0x4010C 4).raiseIbi 2
  if busy then ({ s with shut := .none } : State).mailboxDone 3 else s

/-- The die isolates itself, in service or during readmission. Before step 10 start-up fails instead (R477); a
stopped or shut-down die has left service already. -/
def State.isolate (s : State) (cause : Nat) (port : Option Nat := none) : State :=
  if s.stopped || s.bootStep == 11 then s
  else if s.bootStep != 10 then s.bootFail 4
  else if s.admitSt = 4 then s.latchIso cause port
  else (s.latchIso cause port).goIsolated

/-! ## Coolant stop and thermal shutdown (R390) -/

/-- Handles with COUNT not 0 in every cluster, as (cluster, handle). -/
def State.placedList (s : State) : List (Nat × Nat) :=
  s.regs.filterMap fun p =>
    if 0x1000000 ≤ p.1 ∧ p.1 < 0x1500000 ∧ 0x1400 ≤ p.1 % 0x4000 ∧ p.1 % 0x4000 < 0x1C00 ∧ p.1 % 0x20 = 0
        ∧ fld p.2.toNat 6 6 ≠ 0 then
      some (clusterOf p.1, (p.1 % 0x4000 - 0x1400) / 0x20)
    else none

/-- Every island is dark: what R380 loses is lost, and handles of which the event takes a bank to dark take the
generation increment of R231. -/
def State.allDark (s : State) : State :=
  let hs := s.placedList.filter fun x => s.losesBank x.1 x.2
  let s := hs.foldl (fun t x => t.bumpGen x.1 x.2) s
  let s : State := { s with
    store := [], full := [], moved := [], xbar := [], parked := [], cores := [], stage := []
    banks := (List.range (320 * 48)).map fun b => (b, BankSt.dark)
    regs := s.regs.filter fun p => darkKeeps p.1
    shad := s.shad.filter fun p => darkKeeps p.1 }
  let s := (List.range 320).foldl (fun t c => t.setRegN (clusterBase c + 0x2104) 4) s
  (s.setRung 320 .dark).setRung 321 .dark

/-- The die requests step 0 on VREQ of a domain that goes dark, once its VOK is high (R307, R390 step 4). -/
def State.vreqZero (s : State) (d : Nat) : State :=
  if (s.sb.vok[d]?).getD true && (s.sb.vreq[d]?).getD 0 != 0 then
    { s with sb := { s.sb with vreq := setAt s.sb.vreq d 0, vok := setAt s.sb.vok d false } }
  else s

/-- The stop sequence; `cause` is the bit of STOP_CAUSE. Both causes are latched, and one sequence runs
(R392); SENSOR is the one that caused the latched THERMAL (R389). -/
def State.stopDie (s : State) (cause : Nat) (sensor : Option Nat := none) : State :=
  let had := bit (s.regN 0x4910C) 2
  let s := s.orReg 0x4910C (2 ^ cause)
  let s := match sensor with
    | some n => if had then s else s.setRegF 0x4910C 8 6 n
    | none => s
  if s.stopped then s
  else
    let s := s.leaveService.allDark
    let s : State := (List.range 20).foldl (fun t d => t.vreqZero d)
      { s with stopped := true, power := { s.power with lowering := [] } }
    s.raiseIbi (if cause = 2 then 4 else 3)

/-- COOLSTOP_BOND (R308, R390): a COOLSTOP bond has been low for 20 ns. No command tells when it rises again (log
entry 21). -/
def State.coolstopBond (s : State) : State :=
  ({ s with sb := { s.sb with bondLow := true } } : State).stopDie 0

def execCoolstopBond (s : State) : Outcome := .next s.coolstopBond

/-- Broadcast CCC 61h (R308). -/
def execCoolstopCcc (s : State) : Outcome := .next (s.stopDie 1)

end Sys2Proof.Machine
end

