-- ==== Sys2Proof/Machine/Lanes.lean ====
section
/-!
DEFINITION. The lanes of a hub port: what each bond carries (R268), the repair of a direction (R272, R273), the test
pattern of a training and its judgement (R270), training sets (R271), and bonds that an injection holds (R479).
-/

namespace Sys2Proof.Machine

def portKey (p o : Nat) : Nat := 0x20000 + p * 0x1000 + o

/-- Bonds of a lane beyond D0 to D31. -/
def bondPar : Nat := 32
def bondSpr : Nat := 33
def bondStb : Nat := 34

/-! ## What a bond carries (R268, R270, R273) -/

/-- The strobe toggles at every UI (R267). -/
def strobeLevel (u : Nat) : Bool := u % 2 == 0

/-- The level of a bond that no repair touches, in UI `u` of a flit. SPR is idle. -/
def ownLevel (flit : List Byte) (crc : BitVec 16) (b u : Nat) : Bool :=
  if b < 32 then ((flit[(32 * u + b) / 8]?).getD 0).toNat.testBit (b % 8)
  else if b = bondPar then crc.toNat.testBit (15 - u)
  else if b = bondStb then strobeLevel u
  else false

/-- The bond whose place SPR takes under a repair code. -/
def codeBond (code : Nat) : Option Nat :=
  if code < 32 then some code else if code = 0x20 then some bondPar else if code = 0x21 then some bondStb else none

/-- The level of a bond in UI `u` of a flit, with SPR steered by the lane's repair code. -/
def flitLevel (code : Nat) (flit : List Byte) (crc : BitVec 16) (b u : Nat) : Bool :=
  if b = bondSpr then
    match codeBond code with
    | some c => ownLevel flit crc c u
    | none => false
  else ownLevel flit crc b u

/-- One step of the generator x¹⁵ + x¹⁴ + 1: its oldest bit is driven, and the sum of the two oldest enters. -/
def prbsNext (r : Nat) : Nat := r * 2 % 2 ^ 15 + (r / 2 ^ 14 + r / 2 ^ 13) % 2
def prbsOut (r : Nat) : Bool := r.testBit 14

def prbsSeed (lane b : Nat) : Nat := lane * 35 + b + 1

def prbsState (seed : Nat) : Nat → Nat
  | 0 => seed
  | n + 1 => prbsNext (prbsState seed n)

/-- What a bond of a lane carries in UI `u` of what a port sends. -/
def LaneSend.level (d : LaneSend) (lane b u : Nat) : Option Bool :=
  match d with
  | .strobes => if b = bondStb then some (strobeLevel u) else none
  | .prbs n =>
    if n ≤ u then none
    else if b = bondStb then some (strobeLevel u)
    else some (prbsOut (prbsState (prbsSeed lane b) u))
  | .flit l code f crc => if l = lane ∧ u < 16 then some (flitLevel code f crc b u) else none

/-! ## Repair (R272, R273) -/

/-- Repair code of a lane from its bad bonds. -/
def laneCode (bad : List Nat) (lane : Nat) : Nat :=
  match bad.filter fun x => x / 64 == lane with
  | [] => 0x3F
  | [x] =>
    let b := x % 64
    if b < 32 then b else if b = bondPar then 0x20 else if b = bondSpr then 0x3F else 0x21
  | _ => 0x3E

def laneCodes (bad : List Nat) : List Nat := (List.range 33).map (laneCode bad)

/-- The lane that lane 32 replaces: the lowest failed one, if lane 32 has not failed itself. -/
def spareFor (codes : List Nat) : Nat :=
  if (codes[32]?).getD 0x3E = 0x3E then 0x3F
  else ((List.range 32).find? fun l => (codes[l]?).getD 0x3F == 0x3E).getD 0x3F

/-- Physical lanes that carry active lanes 0, 1, … -/
def healthyLanes (codes : List Nat) (spare : Nat) : List Nat :=
  (List.range 32).filterMap fun l =>
    if l = spare then some 32 else if (codes[l]?).getD 0x3F = 0x3E then none else some l

/-- The width of a direction, 0 for none, under the limit of PORT_CTRL.MAX_WIDTH (R272, R295). -/
def widthOf (healthy limit : Nat) : Nat :=
  ([32, 16, 8].find? fun w => decide (w ≤ healthy) && decide (w ≤ limit)).getD 0

def State.maxWidth (s : State) (p : Nat) : Nat :=
  match s.regF (portKey p 0x104) 1 2 with
  | 0 => 32
  | 1 => 16
  | _ => 8

/-- Page offsets of REPAIR_IN and REPAIR_OUT. -/
def repairIn : Nat := 0x110
def repairOut : Nat := 0x140

/-- Codes and SPARE_FOR of a direction go to REPAIR_IN or REPAIR_OUT. -/
def State.putRepair (s : State) (p o : Nat) (codes : List Nat) (spare : Nat) : State :=
  let c (l : Nat) : Nat := (codes[l]?).getD 0x3F
  let s := (List.range 8).foldl
    (fun t w => t.setRegN (portKey p (o + 4 * w))
      (c (4 * w) + c (4 * w + 1) * 2 ^ 8 + 2 ^ 16 * c (4 * w + 2) + 2 ^ 24 * c (4 * w + 3))) s
  s.setRegN (portKey p (o + 32)) (c 32 + spare * 256)

/-- Repair code of a lane as REPAIR_IN or REPAIR_OUT holds it. -/
def State.repairCode (s : State) (p o lane : Nat) : Nat := fld (s.regN (portKey p (o + 4 * (lane / 4)))) (8 * (lane % 4)) 8

def State.spareIn (s : State) (p o : Nat) : Nat := s.regF (portKey p (o + 32)) 8 8

/-- Lanes of a direction whose SPR is in use. -/
def State.sprUsed (s : State) (p o : Nat) : Nat :=
  ((List.range 33).filter fun l => decide (s.repairCode p o l ≤ 0x21)).length

/-- Physical lane and repair code of active lanes 0, 1, … of a direction. -/
def State.activeLanes (s : State) (p o : Nat) : List (Nat × Nat) :=
  (healthyLanes ((List.range 33).map (s.repairCode p o)) (s.spareIn p o)).map fun l => (l, s.repairCode p o l)

/-! ## The judgement of a training (R270) -/

/-- UI of the DESKEW and TEST patterns, shorter in a retrain (R269, R274). -/
def deskewUis (retrain : Bool) : Nat := if retrain then 16 * 256 else 64 * 256
def testUis (retrain : Bool) : Nat := if retrain then 16384 else 65536

/-- Are the bits those of the generator from a state on? -/
def prbsMatches : Nat → List Bool → Bool
  | _, [] => true
  | r, b :: t => b == prbsOut r && prbsMatches (prbsNext r) t

/-- Bonds found bad in a state: a strobe not detected or locked, a window below 100 ps, an error in TEST. -/
def badBonds (o : TrainObs) (st : TrainSt) (retrain : Bool) : List Nat :=
  match st with
  | .detect | .lock => o.lost.map fun l => l.val * 64 + bondStb
  | .deskew => (o.windows.filter fun x => decide (x.1 % 64 < bondStb) && decide (x.2 < 100)).map (·.1)
  | .test =>
    (o.samples.filter fun x => decide (x.1 % 64 < bondStb)
      && !prbsMatches (prbsSeed (x.1 / 64) (x.1 % 64)) (x.2.take (testUis retrain))).map (·.1)
  | _ => []

/-! ## Bonds that an injection holds (R357, R479) -/

/-- Is an inbound bond held at one level? -/
def State.heldBond (s : State) (p lane b : Nat) : Bool := s.injects (portKey p 0) 5 (lane * 64 + b)

/-- Held bonds of all inbound lanes. -/
def State.heldBonds (s : State) (p : Nat) : List Nat :=
  (List.range 33).flatMap fun l => (List.range 35).filterMap fun b => if s.heldBond p l b then some (l * 64 + b) else none

/-- The level of the held bond. -/
def State.heldLevel (s : State) (p : Nat) : Bool :=
  Config.stuckLevel (s.regF (portKey p 0xF10) 8 8) (s.regN (portKey p 0xF14))

/-- A number with every bit `q` of its 32-bit groups at a level: data bond `q` of a flit. -/
def holdData (f : List Byte) (q : Nat) (v : Bool) : List Byte :=
  (List.range 64).map fun i =>
    let b := (f[i]?).getD 0
    if i % 4 = q / 8 then BitVec.ofNat 8 (putFld b.toNat (q % 8) 1 (b2n v)) else b

/-- A flit and its CRC as a receive lane with a repair code takes them while a bond is held; `none` when its strobe is
lost by it. -/
def holdFlit (code b : Nat) (v : Bool) (f : List Byte) (crc : BitVec 16) : Option (List Byte × BitVec 16) :=
  let place := if b = bondSpr then codeBond code else if codeBond code = some b then none else some b
  match place with
  | none => some (f, crc)
  | some q =>
    if q < 32 then some (holdData f q v, crc)
    else if q = bondPar then some (f, if v then 0xFFFF else 0)
    else none

/-! ## Training sets (R271) -/

/-- Credits that the die grants: header and data by channel (R280). -/
def dieGrants : List (Nat × Nat) := [(0, 0), (128, 2048), (512, 512), (32, 32)]

/-- Credits that the hub grants at least. -/
def hubGrants : List (Nat × Nat) := [(96, 1536), (512, 16), (512, 512), (16, 16)]

/-- The 64 bytes of a TS. -/
def tsBytes (type port role width : Nat) (codes : List Nat) (spare : Nat) (grants : List (Nat × Nat)) : List Byte :=
  toLE 4 3 ++ toLE 1 type ++ toLE 1 port ++ toLE 1 role ++ toLE 1 width ++ codes.flatMap (toLE 1) ++ toLE 1 spare
    ++ [0, 0] ++ (if type = 2 then grants.flatMap fun g => toLE 2 g.1 ++ toLE 2 g.2 else zeros 16) ++ zeros 4

/-- A TS flit of the die. -/
def State.tsFlit (s : State) (p type : Nat) : List Byte :=
  tsBytes type p 0 (s.port p).widthIn ((List.range 33).map (s.repairCode p repairIn)) (s.spareIn p repairIn) dieGrants

/-- A TS flit of a hub that found nothing to repair. -/
def hubTs (p type : Nat) : List Byte := tsBytes type p 1 32 (List.replicate 33 0x3F) 0x3F hubGrants

/-- A flit outside the numbered stream goes on lanes, with sequence number 0 in its CRC (R271). -/
def Port.sendPlain (x : Port) (lanes : List (Nat × Nat)) (f : List Byte) : Port :=
  let crc := flitCrc 0 f
  { x with wire := x.wire ++ lanes.map fun l => .flit l.1 l.2 f crc }

/-- A TS goes on all 33 lanes, before repair. -/
def Port.sendTs (x : Port) (f : List Byte) : Port := x.sendPlain ((List.range 33).map fun l => (l, 0x3F)) f

/-! ## What PORT_STATE and PORTS_UP show (R295, R298) -/

def TrainSt.code (t : TrainSt) (retrain fresh : Bool) : Nat :=
  match t with
  | .down => if fresh then 7 else 0
  | .up => 2
  | .isolated => 4
  | .detect | .lock | .deskew | .test | .map | .repair | .align => if retrain then 3 else 1

def widthCode (w : Nat) : Nat := if w = 32 then 0 else if w = 16 then 1 else if w = 8 then 2 else 3

def State.portState (s : State) (p : Nat) : Nat :=
  let x := s.port p
  x.train.code x.retrain x.fresh + 8 * b2n x.fresh + 16 * widthCode x.widthIn + 64 * widthCode x.widthOut
    + s.spareIn p repairIn % 64 * 2 ^ 8 + s.spareIn p repairOut % 64 * 2 ^ 16
    + (s.sprUsed p repairIn + s.sprUsed p repairOut) % 128 * 2 ^ 24

def State.portsUp (s : State) : Nat :=
  (List.range 32).foldl (fun a p => a + if (s.port p).train = .up then 2 ^ p else 0) 0

end Sys2Proof.Machine
end

