-- ==== Sys2Proof/Machine/Link.lean ====
section
/-!
DEFINITION. The link layer of the hub ports: training (R269 to R274), flits, acknowledgements, replay and credits (R275
to R281), the sharing of a port by its clusters (R30), the encoding of headers (R282), and protocol errors (R297).
-/

namespace Sys2Proof.Machine

/-! ## Sending flits (R275, R276, R278, R280) -/

/-- The 20 bytes of a transaction's header (R282). -/
def Txn.header (t : Txn) : List Byte :=
  toLE 4 (t.op.code + ceilDiv t.data.length 64 * 2 ^ 8 + t.tag % 4096 * 2 ^ 16 + t.stream % 16 * 2 ^ 28)
    ++ toLE 4 t.addr ++ toLE 4 (t.addr / 2 ^ 32 % 2 ^ 20 + (t.words - 1) % 1024 * 2 ^ 20)
    ++ toLE 4 (t.fmt % 16 + t.aop % 16 * 2 ^ 4 + t.status % 256 * 2 ^ 8 + t.srcpos % 16 * 2 ^ 16
        + t.priv % 4 * 2 ^ 20 + t.srcpkg % 256 * 2 ^ 24)
    ++ toLE 4 t.aux

/-- The requester of a port whose turn a transaction takes (R30): a cluster of the port by its rank, or the die-level
blocks and the answers, which share one turn (log entry 89). -/
def Txn.requester (t : Txn) : Nat := if t.cluster.isSome then t.stream else 15

/-- The first credits that are due back, as (channel, pool, count). -/
def Port.creditsDue (x : Port) : Option (Nat × Nat × Nat) :=
  let h := (List.range 4).find? fun v => (x.backHdr[v]?).getD 0 != 0
  let d := (List.range 4).find? fun v => (x.backData[v]?).getD 0 != 0
  match h, d with
  | some v, _ => some (v, 0, min 127 ((x.backHdr[v]?).getD 0))
  | none, some v => some (v, 1, min 127 ((x.backData[v]?).getD 0))
  | none, none => none

def addAt (l : List Nat) (i n : Nat) : List Nat := setAt l i ((l[i]?).getD 0 + n)
def subAt (l : List Nat) (i n : Nat) : List Nat := setAt l i ((l[i]?).getD 0 - n)

/-- Link traffic of a period gathers by job and cluster. -/
def addLoad (l : List Load) (y : Load) : List Load :=
  match l with
  | [] => [y]
  | z :: t =>
    if z.job = y.job ∧ z.cluster = y.cluster then { z with flits := z.flits + y.flits, bytes := z.bytes + y.bytes } :: t
    else z :: addLoad t y

/-- A flit as it goes on its active lane, n mod W. -/
def Port.onLane (x : Port) (tx : List (Nat × Nat)) (n : Nat) (f : List Byte) : LaneSend :=
  let l := (tx[n % max x.widthOut 1]?).getD (0, 0x3F)
  .flit l.1 l.2 f (flitCrc n f)

/-- A numbered flit leaves and stays in the replay buffer; it is the traffic of a job and a cluster. -/
def Port.emit (x : Port) (tx : List (Nat × Nat)) (f : List Byte) (job cluster : Option Nat) (bytes : Nat) : Port :=
  { x with
    wire := x.wire ++ [x.onLane tx x.txSeq f], replay := x.replay ++ [(x.txSeq, f)], txSeq := (x.txSeq + 1) % 4096
    load := addLoad x.load ⟨job, cluster, 1, bytes⟩ }

/-- A header flit with at most one header, of a KIND; it acknowledges and returns credits. -/
def Port.emitHeader (x : Port) (tx : List (Nat × Nat)) (kind : Nat) (t : Option Txn) : Port :=
  let ack := (x.rxSeq + 4095) % 4096
  let due := x.creditsDue
  let (cvc, pool, n) := due.getD (0, 0, 0)
  let x := if due.isNone then x
    else if pool = 0 then { x with backHdr := subAt x.backHdr cvc n, dieHdr := addAt x.dieHdr cvc n }
    else { x with backData := subAt x.backData cvc n, dieData := addAt x.dieData cvc n }
  let hdr := (t.map Txn.header).getD []
  let word := kind + ack * 2 ^ 2 + 2 ^ 14 * cvc + 2 ^ 16 * pool + 2 ^ 17 * n + (if t.isNone then 0 else 2 ^ 24)
  x.emit tx (fitBytes 64 (toLE 4 word ++ hdr)) (t.bind (·.job)) (t.bind Txn.cluster) 0

/-- Are the credits for a transaction there? -/
def Port.canSend (x : Port) (t : Txn) : Bool :=
  decide (0 < (x.hubHdr[t.op.vc]?).getD 0) && decide (ceilDiv t.data.length 64 ≤ (x.hubData[t.op.vc]?).getD 0)

/-- How far a transaction's requester is behind the one that its channel granted last. -/
def Port.behind (x : Port) (t : Txn) : Nat := (t.requester + 31 - (x.turn[t.op.vc]?).getD 15) % 16

/-- The transaction that a channel grants next (R30): the oldest of the next requester that has one. -/
def Port.candidate (x : Port) (v : Nat) : Option Txn :=
  (x.queue.filter fun t => t.op.vc == v).foldl
    (fun best t => match best with
      | none => some t
      | some b => if x.behind t < x.behind b then some t else some b) none

/-- The transaction whose header leaves next: the oldest among those that their channels grant and that have credits. -/
def Port.next (x : Port) : Option Txn := x.queue.find? fun t => x.candidate t.op.vc == some t && x.canSend t

/-- The data flits of a transaction (R284, R286). -/
def Txn.flits (t : Txn) : List (List Byte) := (List.range (ceilDiv t.data.length 64)).map fun i => (t.data.drop (64 * i)).take 64

/-- The header of a transaction leaves, and its data flits are owed. -/
def Port.grant (x : Port) (tx : List (Nat × Nat)) (t : Txn) : Port :=
  let v := t.op.vc
  let y := { x with
    queue := x.queue.erase t, hubHdr := subAt x.hubHdr v 1, hubData := subAt x.hubData v (ceilDiv t.data.length 64)
    turn := setAt x.turn v t.requester, owing := x.owing ++ t.flits.map fun d => (d, t.job, t.cluster) }
  y.emitHeader tx 0 (some t)

/-- The next flit of the stream (R275): away from a header position, data that is owed; else a header flit, which asks for
a replay, carries a header, or carries none. -/
def Port.nextFlit (tx : List (Nat × Nat)) (x : Port) : Port :=
  let header := x.txSeq % max x.widthOut 1 == 0
  match header, x.owing with
  | false, (d, job, c) :: rest => ({ x with owing := rest }).emit tx (fitBytes 64 d) job c d.length
  | _, _ =>
    if x.ask then ({ x with ask := false }).emitHeader tx 1 none
    else
      match x.next with
      | some t => x.grant tx t
      | none => x.emitHeader tx 0 none

/-- Never more than 2,048 flits unacknowledged (R278). -/
def Port.room (x : Port) : Bool := decide (x.replay.length < 2048)

def Port.busy (x : Port) : Bool := !x.owing.isEmpty || x.ask || x.next.isSome || x.creditsDue.isSome

/-- Flits leave while something waits, and the slot is filled. -/
def Port.run (tx : List (Nat × Nat)) : Nat → Port → Port
  | 0, x => x
  | n + 1, x =>
    if x.room && (x.busy || x.txSeq % max x.widthOut 1 != 0) then Port.run tx n (x.nextFlit tx) else x

/-- A port that is UP sends at least one slot of flits (R275, R278). -/
def Port.pump (tx : List (Nat × Nat)) (x : Port) : Port :=
  if x.train != .up || x.widthOut = 0 || !x.room then x else Port.run tx 4096 (x.nextFlit tx)

/-- The current slot is finished (R279 step 3). -/
def Port.finishSlot (tx : List (Nat × Nat)) : Nat → Port → Port
  | 0, x => x
  | n + 1, x => if x.room && x.txSeq % max x.widthOut 1 != 0 then Port.finishSlot tx n (x.nextFlit tx) else x

/-- A replay request leaves in the next header flit (R275, R279). -/
def Port.askNow (tx : List (Nat × Nat)) : Nat → Port → Port
  | 0, x => x
  | n + 1, x => if x.room && x.ask then Port.askNow tx n (x.nextFlit tx) else x

/-- Every flit of the replay buffer is sent again, with its sequence number and lane. -/
def Port.resend (x : Port) (tx : List (Nat × Nat)) : Port :=
  { x with wire := x.wire ++ x.replay.map fun r => x.onLane tx r.1 r.2 }

/-- Flits count as activity of the mesh island (R365). -/
def State.linkLoad (s : State) (y : Load) : State :=
  let s := s.active 320 evFlit y.job y.flits
  { s with power := { s.power with load := addLoad s.power.load y } }

/-- A port goes on as its transmitter leaves it; REPLAYS counts a request that has left. -/
def State.putSent (s : State) (p : Nat) (y : Port) : State :=
  let s := if (s.port p).ask && !y.ask then s.incReg (portKey p 0x174) else s
  y.load.foldl State.linkLoad (s.setPort p { y with load := [] })

/-- A port sends for one reference period: its flits while UP, its training sets in MAP and REPAIR (R271). -/
def State.pumpPort (s : State) (p : Nat) : State :=
  let x := s.port p
  match x.train with
  | .map => s.setPort p (x.sendTs (s.tsFlit p 1))
  | .repair => s.setPort p (x.sendTs (s.tsFlit p 2))
  | _ => s.putSent p (x.pump (s.activeLanes p repairOut))

/-- Every port that has trained or trains sends. -/
def State.pumpPorts (s : State) : State :=
  if s.mute then s else s.ports.foldl (fun t p => t.pumpPort p.1) s

/-! ## Training (R269, R274) -/

/-- A training of the port starts; a retrain holds its traffic and keeps its replay buffer. -/
def State.beginTraining (s : State) (p : Nat) (retrain : Bool) : State :=
  let x := s.port p
  s.setPort p { x with
    train := .detect, retrain := retrain, bad := [], gotTs1 := false, gotTs2 := false, winErr := [],
    ackRun := 0, lastAck := none, reqRun := 0, aligned := [], wire := x.wire ++ [.strobes]
    pwakeO := true, paliveO := true, strobes := true }

/-- A port that is UP retrains (R274). -/
def State.retrain (s : State) (p : Nat) : State :=
  if (s.port p).train = .up ∧ !s.mute then s.beginTraining p true else s

/-- A direction has no width, or the other side did not answer: the port is DOWN (R272). -/
def State.portFails (s : State) (p : Nat) : State :=
  let s := s.setPort p { s.port p with
    train := .down, retrain := false, fresh := false, pwakeO := false, replay := [], owing := [], owed := [] }
  (s.setRegF (portKey p 0x104) 0 1 0).raise (pgPort p) 4

def State.portDown (s : State) (p : Nat) : State := (s.portFails p).isolate isoLanes (some p)

/-- ALIGN has ended: the port is UP, and resumes by replay after a retrain, in which the flits that either side holds
already come again (R274, R279). -/
def State.portUp (s : State) (p : Nat) : State :=
  let x := s.port p
  let was := x.retrain
  let x := if was then x.resend (s.activeLanes p repairOut) else { x with rxSeq := 0, txSeq := 0, replay := [], owing := [], owed := [] }
  let s := s.setPort p { x with
    train := .up, retrain := false, fresh := false, pwakeO := false, skipping := was
    dieHdr := dieGrants.map (·.1), dieData := dieGrants.map (·.2)
    backHdr := [0, 0, 0, 0], backData := [0, 0, 0, 0] }
  let s := (List.range 4).foldl
    (fun t v => t.setRegN (portKey p (0x184 + 4 * v))
      ((x.hubHdr[v]?).getD 0 % 2 ^ 16 + (x.hubData[v]?).getD 0 % 2 ^ 16 * 2 ^ 16)) s
  let s := if x.widthIn < 32 ∨ x.widthOut < 32 then s.raise (pgPort p) 2 else s
  let s := s.setRegF (portKey p 0x104) 0 1 0
  if was then
    let s := (s.incReg (portKey p 0x178)).raise (pgPort p) 1
    { s with health := { s.health with retrain := s.health.retrain + 1 } }
  else s

/-- MAP begins: the receiver's repair map, its width, and TS1. -/
def State.beginMap (s : State) (p : Nat) : State :=
  let x := s.port p
  let codes := laneCodes x.bad
  let sp := spareFor codes
  let w := widthOf (healthyLanes codes sp).length (s.maxWidth p)
  let s := (s.putRepair p repairIn codes sp).setPort p { x with train := .map, widthIn := w }
  s.setPort p ((s.port p).sendTs (s.tsFlit p 1))

/-- ALIGN begins: one alignment flit on every active lane, steered by the map received (R269; log entry 91). -/
def State.beginAlign (s : State) (p : Nat) : State :=
  let x := s.port p
  let f := fitBytes 64 (toLE 4 (2 + (x.rxSeq + 4095) % 4096 * 4))
  s.setPort p (({ x with train := .align, aligned := [] }).sendPlain ((s.activeLanes p repairOut).take x.widthOut) f)

/-- Bonds that an injection holds fail TEST (R479); each takes one injection. -/
def State.heldFound (s : State) (p : Nat) : State × List Nat :=
  let l := s.heldBonds p
  (l.foldl (fun t _ => t.injectDone (portKey p 0)) s, l)

/-- The state of a training ends at its bound and the next begins; a training that fails leaves the port DOWN. -/
def State.trainingNext (s : State) (p : Nat) (obs : TrainObs) : State :=
  let x := s.port p
  let x := { x with
    bad := (badBonds obs x.train x.retrain).foldl setIns x.bad, pwakeI := obs.pwakeI, paliveI := obs.paliveI }
  match x.train with
  | .detect => s.setPort p { x with train := .lock }
  | .lock => s.setPort p { x with train := .deskew, wire := x.wire ++ [LaneSend.prbs (deskewUis x.retrain)] }
  | .deskew => s.setPort p { x with train := .test, wire := x.wire ++ [LaneSend.prbs (testUis x.retrain)] }
  | .test =>
    let (s, held) := (s.setPort p x).heldFound p
    (s.setPort p { x with bad := held.foldl setIns x.bad }).beginMap p
  | .map =>
    let s := s.setPort p x
    if x.widthIn = 0 || !x.gotTs1 || x.widthOut = 0 then s.portFails p
    else
      let s := s.setPort p { x with train := .repair }
      s.setPort p ((s.port p).sendTs (s.tsFlit p 2))
  | .repair => if x.gotTs2 then (s.setPort p x).beginAlign p else (s.setPort p x).portFails p
  | .align =>
    let s := s.setPort p x
    if ((s.activeLanes p repairIn).take x.widthIn).all fun l => setHas x.aligned l.1 then s.portUp p else s.portFails p
  | .down | .up | .isolated => s

/-- TRAINING_STATE_END: a port that goes DOWN isolates the die. -/
def State.trainingStep (s : State) (p : Nat) (obs : TrainObs) : State :=
  let t := s.trainingNext p obs
  if (t.port p).train = .down ∧ (s.port p).train ≠ .down then t.isolate isoLanes (some p) else t

/-- A flit and its CRC as an inbound lane with a repair code takes them, past the bonds that an injection holds; `none`
when the lane's strobe is lost by it. -/
def State.throughLane (s : State) (p lane code : Nat) (f : List Byte) (crc : BitVec 16) :
    State × Option (List Byte × BitVec 16) :=
  (List.range 35).foldl
    (fun a b =>
      match a.2 with
      | none => a
      | some (f, crc) =>
        if a.1.heldBond p lane b && codeBond code != some b then
          (a.1.injectDone (portKey p 0), holdFlit code b (a.1.heldLevel p) f crc)
        else a) (s, some (f, crc))

/-- The map or the credits of a hub's TS flit with a valid CRC; one with a reserved repair code is ignored (R273). -/
def State.takeTs (s : State) (p : Nat) (f : List Byte) : State :=
  let b (i : Nat) : Nat := ((f[i]?).getD 0).toNat
  let codes := (List.range 33).map fun l => b (8 + l)
  let legal (c : Nat) : Bool := decide (c ≤ 0x21) || c == 0x3E || c == 0x3F
  let x := s.port p
  if b 0 % 4 != 3 || !codes.all legal then s
  else
    match b 4 with
    | 1 =>
      if x.gotTs1 then s
      else
        let w := if b 7 = 32 ∨ b 7 = 16 ∨ b 7 = 8 then b 7 else 0
        (s.putRepair p repairOut codes (b 41 % 64)).setPort p { x with gotTs1 := true, widthOut := w }
    | 2 =>
      if x.gotTs2 then s
      else
        let c (o : Nat) : List Nat := (List.range 4).map fun v => b (o + 4 * v) + 256 * b (o + 1 + 4 * v)
        s.setPort p { x with gotTs2 := true, hubHdr := c 44, hubData := c 46 }
    | _ => s

def TrainSt.training : TrainSt → Bool
  | .detect | .lock | .deskew | .test | .map | .repair => true
  | .align | .down | .up | .isolated => false

/-- A TS flit of the hub arrives on a lane, before repair (R271). -/
def State.tsReceive (s : State) (p lane : Nat) (flit : List Byte) (crc : BitVec 16) : State :=
  if !(s.port p).train.training then s
  else
    match s.throughLane p lane 0x3F (fitBytes 64 flit) crc with
    | (t, some (f, c)) => if flitCrc 0 f = c then t.takeTs p f else t
    | (t, none) => t

/-- PORT_TRAINING_START: a port that is DOWN trains; an isolated one only at readmission (R269, R311). -/
def State.trainingStart (s : State) (p : Nat) : State :=
  match (s.port p).train with
  | .down => s.beginTraining p false
  | .isolated => if s.admitSt = 5 then s.beginTraining p false else s
  | _ => s

/-- PWAKE_I rises: the port trains or retrains (R269, R274). -/
def State.pwakeRise (s : State) (p : Nat) (palive : Bool) : State :=
  let t := s.setPort p { s.port p with pwakeI := true, paliveI := palive }
  if (s.port p).train = .up then t.retrain p else t.trainingStart p

/-- The training of a port that the hub answers, from its start to its end. -/
def State.trainPort (s : State) (v : PortTrain) : State :=
  let p := v.port.val
  let s := ((((s.beginTraining p false).trainingNext p v.obs).trainingNext p v.obs).trainingNext p v.obs).trainingNext p v.obs
  let s := (s.takeTs p (fitBytes 64 v.ts1)).trainingNext p v.obs
  let s := ((s.takeTs p (fitBytes 64 v.ts2)).trainingNext p v.obs)
  let x := s.port p
  let lanes := if v.aligned then (s.activeLanes p repairIn).map (·.1) else []
  if x.train = .align then (s.setPort p { x with aligned := lanes.foldl setIns [] }).trainingNext p v.obs else s

/-- The training of a port that `obs` does not list: nothing amiss, and the credits that R280 asks of the hub at least
(log entry 22). -/
def plainTrain (p : Fin 32) : PortTrain :=
  { port := p, obs := TrainObs.good, ts1 := hubTs p.val 1, ts2 := hubTs p.val 2, aligned := true }

/-- Ports 0 to 31 train in ascending order, one at a time (R269), up to the first that stays DOWN. -/
def State.trainAll (s : State) (obs : ContObs) : State × Option Nat :=
  (List.finRange 32).foldl
    (fun a p =>
      match a.2 with
      | some d => (a.1, some d)
      | none =>
        if (a.1.port p.val).train = .up then (a.1, none)
        else
          let t := if obs.down.contains p then (a.1.beginTraining p.val false).portFails p.val
            else a.1.trainPort ((obs.trains.find? fun v => v.port == p).getD (plainTrain p))
          (t, if (t.port p.val).train = .up then none else some p.val)) (s, none)

/-! ## Receiving (R275 to R280, R297) -/

/-- What ends a transaction of the die whose response carried an error (R297). -/
def State.failOutst (s : State) (x : Outst) : State :=
  let t := s.dropOutst x
  match x.op with
  | .rd => t.readReturned x 0x10 []
  | .atom => t.atomicReturned x 0x10
  | .wwr | .wwa => t.windowAnswered x 0x10
  | .msg => t.messageAnswered x 0x10
  | .flush => t.flushReturned x 0x10
  | _ => t

/-- Channel of a code that the hub sends; `none` for a reserved code or one of the other direction. -/
def hubCode (op : Nat) : Option Nat :=
  if op = 8 ∨ op = 9 then some 2
  else if op = 0x20 ∨ op = 0x21 ∨ op = 0x22 ∨ op = 0x25 ∨ op = 0x26 then some 1
  else if op = 0x30 ∨ op = 0x31 ∨ op = 0x38 ∨ op = 0x3A then some 3
  else none

/-- The channel on which the die's transaction that a response answers was issued. -/
def requestVc (op : Nat) : Nat := if op = 0x22 then 2 else if op = 0x25 then 3 else 0

def responseOp (op : Nat) : Option TxnOp :=
  match op with
  | 0x20 => some .rdr
  | 0x21 => some .atr
  | 0x22 => some .wack
  | 0x25 => some .mack
  | 0x26 => some .flack
  | _ => none

/-- A header with a reserved bit, STATUS or message kind. -/
def headerReserved (h : List Nat) : Bool :=
  let w (i : Nat) : Nat := (h[i]?).getD 0
  let op := w 0 % 256
  bit (w 0) 15 || decide (64 < fld (w 0) 8 7) || decide (fld (w 2) 30 2 ≠ 0) || decide (fld (w 3) 22 2 ≠ 0)
    || (op == 0x38 && decide (fld (w 4) 0 2 = 3))
    || (match responseOp op with
      | some r => !statusListed r (fld (w 3) 8 8)
      | none => false)

/-- The data flits that a header announces are owed; a header without data is whole. A discarded header has no words. -/
def State.owe (s : State) (p : Nat) (y : Owed) : State :=
  let x := s.port p
  if y.left = 0 then (if y.words.isEmpty then s else s.setPort p { x with rx := x.rx ++ [(y.words, [])] })
  else s.setPort p { x with owed := x.owed ++ [y] }

/-- A credit overrun: recorded, and the port retrains, which resets the credits (R297). -/
def State.overrun (s : State) (p : Nat) (words : List Word) : State :=
  ((s.capture (pgPort p) 4 words).raise (pgPort p) 16).retrain p

/-- The cluster that a header of the hub concerns: the one that asked, the one of a window write's address (R286), or
the one of a page (R322). -/
def hubCluster (h : List Nat) (asked : Option Outst) : Option Nat :=
  let addr := (h[1]?).getD 0
  let op := (h[0]?).getD 0 % 256
  let c := if op = 8 ∨ op = 9 then fld ((h[2]?).getD 0) 0 4 * 32 + addr / 2 ^ 27
    else if (op = 0x30 ∨ op = 0x31) ∧ 0x1000000 ≤ fld addr 0 28 ∧ fld addr 12 2 ≠ 2 then clusterOf (fld addr 0 28)
    else 320
  match asked with
  | some o => requester o.port o.op o.stream
  | none => if c < 320 then some c else none

/-- One header of a flit: its credits, its checks, and the data that it announces. -/
def State.takeHeader (s : State) (p : Nat) (h : List Nat) : State :=
  let x := s.port p
  let words := h.map w32
  let w0 := (h[0]?).getD 0
  let op := w0 % 256
  let asked := (responseOp op).bind fun _ => s.findOutst p (requestVc op) (fld w0 16 12)
  let job := asked.bind fun o => s.jobOf o.purpose
  let cluster := hubCluster h asked
  let owed (ws : List Word) : Owed := ⟨ws, hubCode op, fld w0 8 7, [], job, cluster⟩
  match hubCode op with
  | none => (s.protocolError p 3 words).owe p (owed [])
  | some v =>
    if (x.dieHdr[v]?).getD 0 = 0 then (s.overrun p words).owe p (owed [])
    else
      let s := s.setPort p { x with dieHdr := subAt x.dieHdr v 1, backHdr := addAt x.backHdr v 1 }
      let s := s.cross cluster job 1
      if headerReserved h then
        let s := (s.protocolError p 5 words).owe p (owed [])
        match asked with
        | some o => s.failOutst o
        | none => s
      else s.owe p (owed words)

/-- A data flit belongs to the oldest header whose data is owed. -/
def State.takeData (s : State) (p : Nat) (f : List Byte) : State :=
  let x := s.port p
  match x.owed with
  | [] => s
  | y :: rest =>
    let next (z : Owed) (x : Port) : Port :=
      if z.left ≤ 1 then { x with owed := rest, rx := if z.words.isEmpty then x.rx else x.rx ++ [(z.words, z.data)] }
      else { x with owed := { z with left := z.left - 1 } :: rest }
    let s := (s.linkLoad ⟨y.job, y.cluster, 1, 64⟩).cross y.cluster y.job 1
    match y.vc with
    | none => s.setPort p (next y x)
    | some v =>
      if (x.dieData[v]?).getD 0 = 0 then (s.setPort p (next { y with words := [] } x)).overrun p y.words
      else
        s.setPort p (next { y with data := y.data ++ f }
          { x with dieData := subAt x.dieData v 1, backData := addAt x.backData v 1 })

/-- Flits of wholly acknowledged slots leave the replay buffer (R278, R279). -/
def Port.acknowledge (x : Port) (ack : Nat) : Port :=
  let w := max x.widthOut 1
  let next := (ack + 1) % 4096
  match x.replay.findIdx? fun f => f.1 == next with
  | some i =>
    let keep := i - next % w
    { x with replay := x.replay.drop (min i keep) }
  | none => if next = x.txSeq then { x with replay := x.replay.drop (x.replay.length - next % w) } else x

/-- REPLAY_REQUEST (R279): the current slot is finished, and every flit from the slot of ACK + 1 is sent again. An
uncorrectable error in the replay buffer takes the port DOWN (R393). -/
def State.replayRequest (s : State) (p ack : Nat) : State :=
  if (s.port p).train != .up || s.mute then s
  else
    let (s, e) := s.injectWord (portKey p 0) ack .clean
    if e = .uncorrectable then s.portDown p
    else
      let s := if e = .corrected then s.correctedError else s
      let tx := s.activeLanes p repairOut
      let x := (s.port p).acknowledge ack
      let run := if x.lastAck = some ack then x.ackRun + 1 else 1
      let s := s.putSent p (((Port.finishSlot tx 32 { x with lastAck := some ack, ackRun := run })).resend tx)
      if 4 ≤ run then s.retrain p else s

/-- Credits of a link word (R276). -/
def Port.takeCredits (x : Port) (lw : Nat) : Port :=
  let v := fld lw 14 2
  let n := fld lw 17 7
  if bit lw 16 then { x with hubData := addAt x.hubData v n } else { x with hubHdr := addAt x.hubHdr v n }

/-- The link word of a header flit or a replay request, then the headers. -/
def State.takeHeaderFlit (s : State) (p : Nat) (f : List Byte) : State :=
  let lw := ofLE (f.take 4)
  let ack := fld lw 2 12
  match lw % 4 with
  | 0 =>
    let x := ((s.port p).acknowledge ack).takeCredits lw
    let x := if x.lastAck = some ack then x else { x with lastAck := none, ackRun := 0 }
    (List.range (fld lw 24 2)).foldl
      (fun t i => t.takeHeader p ((List.range 5).map fun w => ofLE ((f.drop (4 + 20 * i + 4 * w)).take 4))) (s.setPort p x)
  | 1 => (s.setPort p ((s.port p).takeCredits lw)).replayRequest p ack
  | _ => s

/-- A flit with a failed CRC (R279, R274): counted, a replay asked for, or the port retrained. -/
def State.crcFailed (s : State) (p lane : Nat) : State :=
  let x := s.port p
  let s := s.incReg (portKey p 0x170)
  let now := s.time.now
  let th := s.regN (portKey p 0x108)
  let recent := (now :: SMap.getD x.winErr lane []).filter fun t => decide (now ≤ t + fld th 8 16 * 1000)
  let x := { x with
    skipping := true, ask := true
    laneErr := SMap.put x.laneErr lane (min 0xFFFF (SMap.getD x.laneErr lane 0 + 1))
    winErr := SMap.put x.winErr lane recent
    reqRun := x.reqRun + 1 }
  let s := s.setPort p x
  let s := s.putSent p (Port.askNow (s.activeLanes p repairOut) 64 x)
  if (fld th 0 8 ≠ 0 ∧ fld th 0 8 ≤ recent.length) ∨ 4 ≤ x.reqRun then s.retrain p else s

/-- What a flit is to the receiver (R279): how many places of the stream after the one that is due its CRC puts it, on its
lane; modulo 4,096, so that a flit that is held already lies 2,048 places after it or more. -/
def Port.placeOf (x : Port) (lane : Nat) (f : List Byte) (crc : BitVec 16) : Option Nat :=
  let w := max x.widthIn 1
  let first := (lane + 4096 - x.rxSeq % w) % w
  ((List.range (4096 / w)).map fun j => first + w * j).find? fun d => flitCrc ((x.rxSeq + d) % 4096) f == crc

/-- A numbered flit arrives on an active lane: the one that is due is taken; one that is held already is discarded, and
so is a later one while a replay is awaited; any other fails (R277, R279). -/
def State.numberedFlit (s : State) (p lane active : Nat) (f : List Byte) (crc : BitVec 16) : State :=
  let x := s.port p
  match x.placeOf active f crc with
  | some 0 =>
    let header := x.rxSeq % max x.widthIn 1 = 0 ∨ x.owed.isEmpty
    let s := s.setPort p { x with rxSeq := (x.rxSeq + 1) % 4096, skipping := false, reqRun := 0 }
    if header then (s.linkLoad ⟨none, none, 1, 0⟩).takeHeaderFlit p f else s.takeData p f
  | some d => if 2048 ≤ d ∨ x.skipping then s else s.crcFailed p lane
  | none => s.crcFailed p lane

/-- An alignment flit arrives on an active lane (R269, R276). -/
def State.alignFlit (s : State) (p lane : Nat) (f : List Byte) (crc : BitVec 16) : State :=
  let x := s.port p
  if flitCrc 0 f = crc ∧ ofLE (f.take 1) % 4 = 2 then s.setPort p { x with aligned := setIns x.aligned lane } else s

/-- HEADER_FLIT_RECEIVE: a flit arrives on a physical lane of a port that is UP or in ALIGN. A flit on a lane that is not
active is no flit of the stream. -/
def State.flitReceive (s : State) (p lane : Nat) (flit : List Byte) (crc : BitVec 16) : State :=
  let x := s.port p
  let lanes := (s.activeLanes p repairIn).take x.widthIn
  match lanes.findIdx? fun l => l.1 == lane with
  | none => s
  | some k =>
    if s.mute || (x.train != .up && x.train != .align) then s
    else
      match s.throughLane p lane (s.repairCode p repairIn lane) (fitBytes 64 flit) crc with
      | (t, none) => t.retrain p
      | (t, some (f, c)) =>
        if x.train = .align then t.alignFlit p lane f c
        else if t.injects (portKey p 0) 4 x.rxSeq then (t.injectDone (portKey p 0)).crcFailed p lane
        else t.numberedFlit p lane k f c

/-- STROBE_LOSS: a receive strobe of a port that is UP is lost (R274). -/
def State.strobeLost (s : State) (p _lane : Nat) : State := s.retrain p

/-! ## The meanings of the commands -/

def execHeaderFlitReceive (port : Fin 32) (lane : Fin 33) (flit : List Byte) (crc : BitVec 16) (s : State) : Outcome :=
  .next (s.flitReceive port.val lane.val flit crc)

def execReplayRequest (port : Fin 32) (ack : BitVec 12) (s : State) : Outcome :=
  .next (s.replayRequest port.val ack.toNat)

def execPortTrainingStart (port : Fin 32) (s : State) : Outcome := .next (s.trainingStart port.val)

def execTrainingStateEnd (port : Fin 32) (obs : TrainObs) (s : State) : Outcome :=
  .next (s.trainingStep port.val obs)

def execTsFlitReceive (port : Fin 32) (lane : Fin 33) (flit : List Byte) (crc : BitVec 16) (s : State) : Outcome :=
  .next (s.tsReceive port.val lane.val flit crc)

def execPwakeIRise (edge : PwakeEdge) (s : State) : Outcome :=
  .next (s.pwakeRise edge.port.val edge.palive)

def execStrobeLoss (port : Fin 32) (lane : Fin 33) (s : State) : Outcome := .next (s.strobeLost port.val lane.val)

end Sys2Proof.Machine
end

