-- ==== Sys2Proof/Machine/Journal.lean ====
section
/-!
DEFINITION. The journal's use: enabling and its scan (R409), retirement (R407), replay of work in flight (R411 to
R415) and replay from the journal (R416).
-/

namespace Sys2Proof.Machine

/-! ## Entries read back (R403) -/

/-- Little-endian number of `n` bytes at an offset. -/
def bytesAt (b : List Byte) (o n : Nat) : Nat := ofLE ((b.drop o).take n)

/-- An entry is valid: its ACRC matches and its INDEX is the one expected. -/
def entryValid (b : List Byte) (i : Word) : Bool :=
  bytesAt b 0 4 == i.toNat && bytesAt b 120 2 == (crc16 (b.take 104)).toNat

/-- Its completion part is valid. -/
def doneValid (b : List Byte) : Bool := bytesAt b 122 2 == (crc16 ((b.drop 104).take 16)).toNat

def entryStatus (b : List Byte) : Nat := if doneValid b then bytesAt b 108 1 else 0xFF

/-- What the die keeps of an entry. -/
def JEntry.ofBytes (b : List Byte) : JEntry :=
  { index := w32 (bytesAt b 0 4), q := bytesAt b 10 1 % 16, seq := w32 (bytesAt b 4 4),
    done := entryStatus b != 0xFF }

/-- What was sampled for the entry's descriptor. -/
def sampleOf (b : List Byte) (d : Desc) (chain : List Word) (context : Option Nat) : Sample :=
  { q := bytesAt b 10 1 % 16, seq := w32 (bytesAt b 4 4), desc := d, first := bytesAt b 12 4 % 512,
    count := fld (bytesAt b 12 4) 16 9, rescue := bit (bytesAt b 10 1) 4, headAt := w32 (bytesAt b 16 4),
    chain := chain, context := context }

/-! ## Enabling (R408, R409) -/

/-- The run of valid entries from an index upward, at most `fuel` of them. -/
def State.scanRun (s : State) (v : HubView) : Nat → Word → List JEntry
  | 0, _ => []
  | n + 1, i =>
    let a := s.entryAddr i
    let b := viewBytes v a 128
    match viewRange v a 128 with
    | .ok => if entryValid b i then JEntry.ofBytes b :: State.scanRun s v n (i + 1) else []
    | _ => []

/-- RETIRE_Qn and the image of queue n as the JCB holds them. -/
def State.loadPart (s : State) (jcb : List Byte) (q : Nat) : State :=
  let b := (jcb.drop (64 + 64 * q)).take 64
  let s := s.setRegN (retireKey q) (bytesAt b 0 4)
  let im : ImageInfo :=
    { seq := w32 (bytesAt b 16 4), id := w32 (bytesAt b 20 4), save := bytesAt b 32 8, dig := bytesAt b 40 8 }
  if bit (bytesAt b 24 4) 0 then { s with images := SMap.put s.images q im }
  else { s with images := SMap.del s.images q }

/-- ENABLE goes from 0 to 1: the JCB is read and the ring scanned. Where the JCB cannot be read the spec gives FLOOR
no value, and it is free (log entry 3). -/
def State.journalStart (s : State) (v : HubView) : State :=
  let s := s.viewReads v 15 15 s.jcb 1088 0
  let (floor, s) := match viewRange v s.jcb 1088 with
    | .ok =>
      let b := viewBytes v s.jcb 1088
      (w32 (bytesAt b 0 4), (List.range 16).foldl (fun (t : State) q => t.loadPart b q) s)
    | _ => s.freshWord
  let l := s.scanRun v s.journalSize floor
  let s := l.foldl (fun (t : State) e => t.viewReads v 15 15 (t.entryAddr e.index) 128 0) s
  let s := (s.setReg 0x4D110 floor).setReg 0x4D10C (floor + w32 l.length)
  let s := { s with journal := l, jfloor := floor }
  if s.journalFull then s.raise pgJournal 1 else s

/-- The journal is switched off: its cursor is gone. -/
def State.journalStop (s : State) : State :=
  let s := (s.setReg 0x4D110 0).setReg 0x4D10C 0
  { s with journal := [], jfloor := 0 }

/-! ## RETIRE_Qn (R407, R439) -/

/-- Is the write refused: backward, past a descriptor in flight, or during a replay from the journal? -/
def State.retireRefused (s : State) (q : Nat) (v : Word) : Bool :=
  let back := (v - s.reg (retireKey q)).toNat
  let past (o : OpRec) : Bool :=
    let d := (v - o.seq).toNat
    o.q == q && decide (1 ≤ d) && decide (d ≤ 2 ^ 31)
  decide (2 ^ 31 < back) || s.accepted.any past
    || (match s.replay with | .journal _ | .failing _ _ => true | _ => false)

/-- A change of RETIRE_Qn: the JCB part is written (R408), and FLOOR follows. -/
def State.retireTo (s : State) (q : Nat) (v : Word) : State :=
  if v = s.reg (retireKey q) then s else ((s.setReg (retireKey q) v).writeJcbPart q).moveFloor

/-! ## Checks before a replay (R413) -/

/-- Address of the descriptor that HEAD_AT names: its ring slot, or the template. -/
def State.slotAddr (s : State) (q : Nat) (headAt : Word) : Nat :=
  if headAt = 0xFFFFFFFF then s.regN 0x4C118 + 2 ^ 32 * s.regN 0x4C11C
  else
    s.regN (queueKey q 0x100) + 2 ^ 32 * s.regN (queueKey q 0x104)
      + 64 * (headAt.toNat % 2 ^ s.regF (queueKey q 0x108) 0 5)

/-- What a replay reads again: the entry, the descriptor, its records and list, and their hash. -/
structure Reread where
  st     : State
  entry  : List Byte
  sample : Sample
  recs   : Fetch
  list   : Option Nat
  /-- Checks 1 and 2 of R413 hold. -/
  ok     : Bool

def State.reread (s : State) (i : Word) (v : HubView) : Reread :=
  let a := s.entryAddr i
  let s := s.viewReads v 15 15 a 128 0
  let b := viewBytes v a 128
  let good := viewRange v a 128 == .ok && entryValid b i
  let q := bytesAt b 10 1 % 16
  let sa := s.slotAddr q (w32 (bytesAt b 16 4))
  let s := if good then s.viewReads v 15 15 sa 64 0 else s
  let d : Desc := BitVec.ofNat 512 (ofLE (viewBytes v sa 64))
  let x := sampleOf b d (s.chainRecord d) (s.taskContext q (bytesAt b 8 2))
  let (s, gone) := s.readChain d
  let (f, l) := if good then fetchAll s x v else ({ st := s, recs := [], lost := false, refused := false }, none)
  let hash := descHash d x.chain f.recs l
  { st := f.st, entry := b, sample := x, recs := f, list := l
    ok := good && !gone && viewRange v sa 64 == .ok && !f.lost && fitBytes 48 hash == (b.drop 32).take 48 }

/-- A replay starts (R401, R397 input 6). -/
def State.countReplay (s : State) : State :=
  { s.incReg 0x4C130 with health := { s.health with replay := s.health.replay + 1 } }

/-! ## Replay of work in flight (R411 to R415) -/

/-- Handles read and their generations are as they were at acceptance (check 3). -/
def State.sameInputs (s : State) (o : OpRec) (entry : List Byte) : Bool :=
  (s.genSum o.readHandles).toNat == bytesAt entry 96 4

/-- The outputs' generations changed: every tile is computed again (R412). -/
def State.dropMarks (s : State) (id : Nat) : State :=
  (s.mapCores fun _ c => { c with marks := c.marks.filter (·.op != id) }).modOp id fun p => { p with committed := 0 }

/-- The operation runs again by its opcode's line of R414. -/
def State.rerun (s : State) (o : OpRec) (v : HubView) : State :=
  let s := s.modOp o.id fun p =>
    { p with phase := .running, stopped := false, replays := p.replays + 1, noReplay := false }
  match o.kind with
  | .compute => (s.launch o.id).settle o.id
  | .window _ _ acked =>
    let all := o.slivers.flatMap fun x => (List.range (o.desc.word 8 / 64)).map fun i => (x.cluster, 64 * i)
    let s := s.modOp o.id fun p => { p with kind := .window (all.filter fun w => !acked.contains w) [] acked }
    (o.slivers.foldl (fun t x => t.windowNext o.id x.cluster) s).settle o.id
  | .wait c k target _ _ none _ =>
    match s.op o.id with
    | some p => if target.toNat ≤ s.regN (winCountKey c k) then s.beginClose p false else s
    | none => s
  | .wait _ _ _ _ _ (some _) _ => s
  | .signal _ true => s.finish o.id 0x30
  | .signal _ false =>
    (s.modOp o.id fun p => { p with kind := .signal false false }).flush (8 + o.q) 15 (.signalFlush o.id)
  | .fence scope g w _ =>
    if scope = 2 ∧ (s.group g).st = .degraded then s.finish o.id 0x22
    else (s.modOp o.id fun p => { p with kind := .fence scope g w false }).fenceGo o.id
  | .secure => s.secureRestart
  | .mark => s.finish o.id 0x30
  | .restore =>
    let (s, st) := s.restoreWork o v
    s.finish o.id (if st = 0 then 0x30 else st)
  | .scrub _ _ _ _ => s.scrubRun o
  | .failed | .slot => s.finish o.id o.status

/-- The replay of one interrupted operation: the checks of R413, then its run; a check that fails ends it. -/
def State.replayOp (s : State) (o : OpRec) (v : HubView) : State :=
  let s := s.countReplay
  let fail (t : State) : State := t.replayFailed.failWith o.id 0x31
  match o.jindex with
  | none => fail s
  | some i =>
    let r := s.reread i v
    if !r.ok || !r.st.sameInputs o r.entry || o.noReplay then fail r.st
    else
      let s := if (r.st.genSum o.written).toNat = bytesAt r.entry 100 4 then r.st else r.st.dropMarks o.id
      s.rerun o v

/-- The operations of a replay that are in flight, in journal order. -/
def State.replayOps (s : State) (todo : List Nat) : List OpRec := todo.filterMap s.op

/-- REPLAY_IN_FLIGHT: one replay runs at a time, in journal index order (R411): the lowest operation that waits for
its replay starts once no other of them runs. -/
def State.replayFlight (s : State) (v : HubView) : State :=
  match s.replay with
  | .flight todo =>
    if !s.onDuty || (s.replayOps todo).any (·.phase != .interrupted) then s
    else
      match (s.replayOps todo).head? with
      | some o => s.replayOp o v
      | none => s
  | _ => s

/-! ## Replay from the journal (R416) -/

/-- The later of two counts modulo 2³². -/
def later (a b : Word) : Word := if (b - a).toNat < 2 ^ 31 then b else a

/-- The entries from FLOOR to WRITTEN − 1 that are valid, as read. -/
def State.entriesRead (s : State) (v : HubView) : List (List Byte) :=
  (List.range (s.written - s.floor).toNat).filterMap fun k =>
    let i := s.floor + w32 k
    let b := viewBytes v (s.entryAddr i) 128
    if entryValid b i then some b else none

/-- Step 1: the queue's registers from the JCB and the entries. -/
def State.setCursor (s : State) (jcb : List Byte) (es : List (List Byte)) (q : Nat) : State :=
  let part (o : Nat) : Word := w32 (bytesAt jcb (64 + 64 * q + o) 4)
  let mine := es.filter fun b => bytesAt b 10 1 % 16 == q
  let head := mine.foldl
    (fun a b => if bytesAt b 16 4 = 0xFFFFFFFF then a else later a (w32 (bytesAt b 16 4 + 1))) (part 8)
  let seq := mine.foldl (fun a b => later a (w32 (bytesAt b 4 4 + 1))) (part 4)
  let cpl := mine.foldl
    (fun a b => if entryStatus b = 0xFF then a else later a (w32 (bytesAt b 112 4 + 1))) (part 12)
  let k := queueKey q
  ((((s.setReg (k 0x110) head).setReg (k 0x10C) head).setReg (k 0x144) seq).setReg (k 0x12C) cpl).setReg (k 0x130) cpl

/-- The job whose task owns the handles of a queue's image: that of the SECURE_STATE that wrote it, whose entry is
never retired while it is the last one (R407); without that entry, of the queue's first entry (log entry 80). -/
def imageJob (es : List (List Byte)) (q : Nat) (im : ImageInfo) : Nat :=
  let mine := es.filter fun b => bytesAt b 10 1 % 16 == q
  let own := mine.find? fun b => bytesAt b 4 4 == im.seq.toNat
  (((own.orElse fun _ => mine.head?).map fun b => bytesAt b 8 2)).getD 0

/-- Step 2: one image is restored; `none` once a restore has failed, with its status. The handles take the ownership
that the SECURE_STATE left them with (R232, R425). -/
def State.restoreImage (acc : State × Option Nat) (v : HubView) (es : List (List Byte)) (q : Nat) :
    State × Option Nat :=
  let (s, st) := acc
  match st, SMap.find s.images q with
  | none, some im =>
    let (first, n) := s.clusterSet q
    let job := imageJob es q im
    let ctx := s.taskContext q job
    let dark := ((s.taskEntry q job).map (·.endDark)).getD false
    let (t, r) := s.restore s.nextOp (positions first n) im.save im.dig v
      (fun u keys => keys.foldl (fun w k => w.bumpGen (k / 64) (k % 64))
        ((u.taskAccepted q job ctx dark).claimAll keys q job ctx dark false))
    (t, if r = 0 ∨ (r = 0x40 ∧ !halting t r) then none else some r)
  | _, _ => (s, st)

/-- REPLAY_CMD.START, accepted. -/
def State.replayStart (s : State) (v : HubView) : State :=
  let s := s.viewReads v 15 15 s.jcb 1088 0
  let jcb := viewBytes v s.jcb 1088
  let es := s.entriesRead v
  let s := (List.range 16).foldl (fun t q => (t.loadPart jcb q).setCursor jcb es q) s
  let s := (s.setReg 0x4D120 2)
  let (s, bad) := (List.range 16).foldl (fun acc q => State.restoreImage acc v es q) (s, none)
  match bad with
  | none => { s with replay := .journal s.floor }
  | some st => { s with replay := .failing s.floor st }

/-- The end of a replay from the journal. -/
def State.replayOver (s : State) : State :=
  (({ s with replay := .idle, recovery := false } : State).setReg 0x4D120 0).raise pgJournal 2

/-- A descriptor that only gives an entry's record: the fields that the entry shows. -/
def descOf (b : List Byte) : Desc :=
  let op := bytesAt b 11 1
  BitVec.ofNat 512
    (op + bytesAt b 8 2 * 2 ^ 16
      + (if op = opJournalMark then bytesAt b 80 8 * 2 ^ 64
         else if 1 ≤ op ∧ op ≤ 5 then 2 ^ 384 * bytesAt b 80 8 + 2 ^ 448 * bytesAt b 88 8 else 0))

/-- An operation for an entry that completes with REPLAY_FAILED. -/
def failedEntry (id : Nat) (i : Word) (b : List Byte) : OpRec :=
  let x := sampleOf b (descOf b) [] none
  { opRecord x id false .failed with
    jindex := some i, inplace := bit (bytesAt b 10 1) 5, dhash := (b.drop 32).take 48
    genIn := w32 (bytesAt b 96 4), genOut := w32 (bytesAt b 100 4), status := 0x31, stopped := true
    phase := .finished, replays := 1, fromJournal := true }

/-- A queue halts though it is disabled (R416 step 4). -/
def State.replayHalt (s : State) (q : Nat) : State :=
  (s.setQueue q { s.queue q with st := .halted, halt := 0x31 }).raise (pgQueue q) 4

/-- The replay stops at an entry: it and every later entry in flight complete with REPLAY_FAILED, and their queues
halt (step 4). An entry that had completed before gets no second record; its queue halts all the same. -/
def State.replayStops (s : State) (i : Word) (status : Nat) (v : HubView) : State :=
  let s := ((s.setReg 0x4D124 i).setRegN 0x4D120 (3 + status * 256)).raise pgJournal 4
  let s : State := { s with replay := .stopped, recovery := false }
  let s := match s.journal.find? (·.index == i) with
    | some e => s.replayHalt e.q
    | none => s
  (List.range (s.written - i).toNat).foldl
    (fun t k =>
      let j := i + w32 k
      let b := viewBytes v (t.entryAddr j) 128
      let busy := t.ops.any fun o => o.jindex == some j
      if busy || !entryValid b j || entryStatus b != 0xFF then t
      else
        let q := bytesAt b 10 1 % 16
        ({ t with nextOp := t.nextOp + 1, ops := t.ops ++ [failedEntry t.nextOp j b] } : State).replayHalt q) s

/-- Does the entry need no replay: retired, or not after its queue's image? -/
def State.entryDone (s : State) (e : JEntry) : Bool :=
  e.retired s
    || (match SMap.find s.images e.q with
      | some im =>
        let d := (e.seq - im.seq).toNat
        d == 0 || decide (2 ^ 31 ≤ d)
      | none => false)

/-- The opcode's condition for a replay from the journal (R414). -/
def fromJournalOk (o : OpRec) (inplace : Bool) : Bool :=
  match o.kind with
  | .compute => !inplace && !(o.desc.cAcc && o.entries.any fun e => match e.c with
      | .record _ _ _ _ _ _ => true
      | _ => false)
  | .window _ _ _ | .wait _ _ _ _ _ _ _ | .signal _ _ | .fence _ _ _ _ => false
  | _ => true

/-- An entry whose replay failed. -/
def State.entryFails (s : State) (i : Word) : State := { s.replayFailed with replay := .failing i 0x31 }

/-- The operation of a replayed entry takes its place among those in flight. -/
def State.putReplayed (s : State) (i : Word) (e : JEntry) (entry : List Byte) (o : OpRec) : State :=
  { s with ops := s.ops ++ [{ o with
      jindex := some i, fromJournal := true, replays := 1, writeRecord := !e.done
      dhash := (entry.drop 32).take 48, genIn := w32 (bytesAt entry 96 4), genOut := w32 (bytesAt entry 100 4)
      inplace := bit (bytesAt entry 10 1) 5 }] }

/-- The descriptor of a replayed entry is checked and its operation starts. -/
def State.runSample (s : State) (i : Word) (e : JEntry) (v : HubView) (r : Reread) (id : Nat) (dark : Bool) : State :=
  let x := r.sample
  match s.checkDesc x r.recs r.list with
  | some y =>
    (s.putReplayed i e r.entry { opRecord x id dark .failed with status := y.code, stopped := true }).finish id y.code
  | none =>
    let o := s.passed x id dark r.recs r.list v
    if !fromJournalOk o (bit (bytesAt r.entry 10 1) 5) then s.entryFails i
    else
      let dpos := (s.queue x.q).lastDpos
      let s := s.claimAll o.claims x.q x.desc.job x.context dark x.desc.inherit
      let s := (s.setQueue x.q { s.queue x.q with lastDpos := o.dpos }).putReplayed i e r.entry o
      match s.op id with
      | some p => (s.firstWork p dpos v).startRun id
      | none => s

/-- The entry's descriptor takes a number, and its task and ticket. -/
def State.enterEntry (s : State) (x : Sample) : State :=
  let s : State := { s with nextOp := s.nextOp + 1 }
  (s.taskAccepted x.q x.desc.job x.context (s.darkNext x.q x.desc)).takeTicket x.desc.job

/-- The entry's descriptor runs again, from its start. -/
def State.runEntry (s : State) (i : Word) (e : JEntry) (v : HubView) : State :=
  let r := s.countReplay.reread i v
  if !r.ok then r.st.entryFails i
  else
    (r.st.enterEntry r.sample).runSample i e v r r.st.nextOp (r.st.darkNext r.sample.q r.sample.desc)

/-- REPLAY_ENTRY: the replay from the journal takes its next step. -/
def State.replayEntry (s : State) (v : HubView) : State :=
  if !s.onDuty then s
  else
    match s.replay with
    | .failing i st => s.replayStops i st v
    | .journal i =>
      match s.ops.find? (·.fromJournal) with
      | some o =>
        if o.phase != .interrupted then s
        else
          let s := s.countReplay
          let r := s.reread i v
          if r.ok then r.st.dropMarks o.id |>.rerun o v else r.st.replayFailed.failWith o.id 0x31
      | none =>
        if i = s.written then s.replayOver
        else
          match s.journal.find? (·.index == i) with
          | some e => if s.entryDone e then { s with replay := .journal (i + 1) } else s.runEntry i e v
          | none => { s with replay := .journal (i + 1) }
    | _ => s

def execReplayEntry (view : HubView) (s : State) : Outcome := .next (s.replayEntry view)

def execReplayInFlight (view : HubView) (s : State) : Outcome := .next (s.replayFlight view)

end Sys2Proof.Machine
end

