-- ==== Sys2Proof/Machine/Hublink.lean ====
section
/-!
DEFINITION. The time base (R300), the references (R309), side signals of the hub (R289), lost peers (R314,
R315, R434), admission and readmission (R311, R312, R435, R470), and the taking of a position (R299).
-/

namespace Sys2Proof.Machine

/-! ## The time base (R300) -/

/-- A time base copy counts as failed after four consecutive bad frames. -/
def copyFailed (bad : Nat) : Bool := decide (4 ≤ bad)

/-- The CRC and the sync word of a frame are good. -/
def frameGood (f : TFrame) : Bool := f.sync == 0xF0F0 && crc16 (toLE 8 f.t.toNat) == f.crc

/-- The copy in use: 0, and 1 while copy 0 fails. -/
def TimeBase.inUse (t : TimeBase) : Nat := if copyFailed t.bad0 then 1 else 0

/-- TBASE_FRAME: a frame of a copy has been received; its T is the time base value now. -/
def State.tbaseFrame (s : State) (copy : Nat) (f : TFrame) : State :=
  if s.stopped then s
  else
    let good := frameGood f
    let t := s.time
    let t := if copy = 0 then { t with bad0 := if good then 0 else t.bad0 + 1, pass0 := good }
      else { t with bad1 := if good then 0 else t.bad1 + 1, pass1 := good }
    let t := { t with copy := t.inUse }
    let differs := decide (f.t.toNat ≠ t.now)
    let s := if !good || differs then s.incReg 0x5110C else s
    let s := if good && copy == t.copy then
        let s := if differs then s.setReg 0x51110 (w32 (f.t.toNat + 2 ^ 32 - t.now % 2 ^ 32)) else s
        { s with time := { t with now := f.t.toNat, lock := true } }
      else { s with time := t }
    if copyFailed t.bad0 && copyFailed t.bad1 then
      ({ s with time := { t with lock := false } } : State).isolate isoTbase
    else s

/-- Both copies have failed. -/
def State.timeBaseLost (s : State) : State :=
  ({ s with time := { s.time with lock := false, bad0 := max 4 s.time.bad0, bad1 := max 4 s.time.bad1,
                                  pass0 := false, pass1 := false } } : State).isolate isoTbase

/-- The reference copies present; with none, nothing counts the time base on (R6). -/
def State.setReference (s : State) (present : Nat) : State :=
  { s.setRegF 0x40120 0 4 present with
    time := { s.time with ref := present, lock := s.time.lock && present != 0 } }

/-- A reference copy is absent, or an island generator has lost lock (R309). -/
def State.refclkLost (s : State) (present : Nat) : State := (s.setReference present).isolate isoRefclk

/-! ## Who is heard -/

/-- Transactions reach the die through a port that has trained and has not gone down since. -/
def State.heard (s : State) (port : Nat) : Bool :=
  let p := s.port port
  !s.mute && !p.fresh && p.train != .down && p.train != .isolated

/-- A side signal of the hub is answered with a MACK and acts; a failed start-up answers no message (R468). -/
def State.signalled (s : State) (a : Access) (f : State → State) : State :=
  if !s.heard a.port.val || s.bootFailed then s
  else
    f (s.send { port := a.port, op := .mack, tag := a.tag.toNat, stream := a.stream.toNat,
                srcpos := a.srcpos.toNat, srcpkg := a.srcpkg.toNat })

/-! ## Peers (R314, R315, R434) -/

/-- The package is the die's own. -/
def State.ownPkg (s : State) (pkg : Nat) : Bool := pkg == 0xFF || pkg == s.pkg

/-- PEER_STATE covers the positions of the die's own package. -/
def State.setPeer (s : State) (pos pkg st : Nat) : State :=
  if s.ownPkg pkg ∧ pos < 8 then s.setRegF 0x40110 (2 * pos) 2 st else s

/-- A group with the lost position among its VALID members degrades, and its FENCE ends with PEER_LOST. -/
def State.groupLost (s : State) (gi pos pkg : Nat) : State :=
  let g := s.group gi
  let hit := (List.range 16).filter fun m =>
    memberValid (g.member m) && memberPos (g.member m) == pos
      && (memberPkg (g.member m) == pkg || (s.ownPkg pkg && s.ownPkg (memberPkg (g.member m))))
  let live := match g.st with
    | .forming | .formed | .fencing | .degraded => true
    | .empty | .discord => false
  if hit.isEmpty || !live then s
  else
    let lost := hit.foldl (fun a m => a ||| 2 ^ m) g.lost
    let t := (s.setGroup gi { g with st := .degraded, lost := lost }).raise pgGroup 1
    match t.groupFence gi with
    | some id => t.failWith id 0x22
    | none => t

def State.peerLost (s : State) (pos pkg : Nat) : State :=
  let s := ((s.setPeer pos pkg 3).incReg 0x40114).raise pgGroup 8
  (List.range 64).foldl (fun t gi => t.groupLost gi pos pkg) s

def State.peerBack (s : State) (pos pkg : Nat) : State := (s.setPeer pos pkg 1).incReg 0x40114

/-- PEER_SPARE names no position: the event is counted. -/
def State.peerSpare (s : State) : State := s.incReg 0x40114

/-! ## Admission and readmission (R311, R312, R435, R470) -/

/-- Operations that isolation interrupted are replayed in the order of their acceptance; those that no journal
names, or that a second replay has failed, end with REPLAY_FAILED (R402, R415). -/
def State.resumeOps (s : State) : State :=
  match s.replay with
  | .journal _ | .failing _ _ => s
  | .idle | .flight _ | .stopped =>
    let cut := s.ops.filter fun o => o.phase == .interrupted
    let able (o : OpRec) : Bool := o.jindex.isSome && s.journalOn && decide (o.replays < 2)
    let s := (cut.filter fun o => !able o).foldl
      (fun t o => (if 0 < o.replays then t.replayFailed else t).failWith o.id 0x31) s
    let ids := (cut.filter able).map (·.id)
    if ids.isEmpty then
      match s.replay with
      | .flight _ => ({ s with replay := .idle } : State).setRegF 0x4D120 0 2 0
      | _ => s
    else ({ s with replay := .flight ids } : State).setRegF 0x4D120 0 2 1

/-- The concord check differs: every descriptor in flight ends with DISCORD, also one that had failed, and every
queue halts. -/
def State.discordOps (s : State) : State :=
  let s := s.accepted.foldl (fun t o => t.failWith o.id 0x23) s
  let s : State := { s with replay := match s.replay with | .flight _ => .idle | r => r }
  (List.range 16).foldl (fun t q => t.haltQueue q 0x23) s

/-- Every group that was not EMPTY degrades, with the die's own slot marked lost. -/
def State.groupsCut (s : State) : State :=
  (List.range 64).foldl
    (fun t gi =>
      let g := t.group gi
      if g.st == .empty then t
      else (t.setGroup gi { g with st := .degraded, lost := g.lost ||| 2 ^ g.self }).raise pgGroup 1) s

/-- Current UCODE, NUMERIC and FEATURES equal the latched ones (R435). -/
def State.concordEqual (s : State) : Bool :=
  s.latched.ucode == s.reg 0x1108 && s.latched.numeric == w32 s.numericMode && s.latched.features == w32 s.features

/-- Position, package and state of a GRANT. -/
def State.setPosition (s : State) (v : Nat) : State :=
  (s.setRegN 0x40108 (fld v 0 4 + fld v 8 8 * 256)).setRegN 0x4010C (if bit v 4 then 3 else 2)

/-- The journal's cursor is lost with the position it belonged to (R311): no descriptor in flight has an entry any
more. -/
def State.dropCursor (s : State) : State :=
  let s := (s.journalStop).setRegF 0x4D010 0 1 0
  { s with ops := s.ops.map fun o => { o with jindex := none } }

/-- Interrupts that stayed pending are sent (R331). -/
def State.resendAll (s : State) : State := (List.range 32).foldl (fun t v => t.vectorResend v) s

/-- GRANT (R311, R470). -/
def State.grant (s : State) (v : Nat) : State :=
  if s.admitSt = 1 ∧ s.bootStep = 9 then
    (({ (s.setPosition v).nextStep 9 with recovery := true } : State).raiseIbi 1).resendAll
  else if s.admitSt = 5 then
    let moved := decide (s.pos ≠ fld v 0 4)
    let equal := s.concordEqual
    let s := s.setPosition v
    let s := if moved then s.dropCursor else s
    let s := s.groupsCut
    let s := if equal then s.resumeOps else s.discordOps
    let s := if s.journalOn && s.jfloor != s.floor then s.writeJcbHeader else s
    s.resendAll
  else s

def State.deny (s : State) : State :=
  if s.admitSt = 1 ∧ s.bootStep = 9 then s.bootFail 9
  else if s.admitSt = 5 then s.goIsolated
  else s

/-- SB_CMD READMIT (R311 step 1). -/
def State.readmit (s : State) : State := if s.admitSt = 4 ∧ !s.stopped then s.setRegN 0x4010C 5 else s

/-- Steps 2 to 4 of R311: `copies` reference copies have been present and locked for 100 µs, and ports 0 to 31
train. A missing condition keeps the die isolated and shows its cause; a port that stays DOWN isolates it again. -/
def State.readmitTrain (s : State) (copies : Nat) (obs : ContObs) : State :=
  if s.admitSt != 5 || !s.mute || s.stopped then s
  else
    let s := s.setReference copies
    if copies != 15 then (s.latchIso isoRefclk none).setRegN 0x4010C 4
    else if !s.time.lock then (s.latchIso isoTbase none).setRegN 0x4010C 4
    else
      let s := s.setRung 320 .run
      let (s, down) := s.trainAll obs
      match down with
      | some p => (s.latchIso isoLanes (some p)).goIsolated
      | none =>
        let s : State := { s with mute := false }
        (s.sideSignal 0x10 (BitVec.ofNat 64 (s.regF 0x40104 0 8))).raiseIbi 6

/-- A spare takes a position (R299). -/
def State.takePosition (s : State) (v : Nat) : State :=
  let s := (s.setRegF 0x40108 0 4 v).setRegN 0x4010C 2
  s.sideSignal 0x14 (BitVec.ofNat 64 (fld v 0 4))

/-! ## Software side signals (R289, R298) -/

/-- Header words of a side signal to the die (R282, R289, R293). -/
def State.signalWords (s : State) (a : Access) (code : Nat) : List Word :=
  let addr := 0xA * 2 ^ 48 + 0xFF * 2 ^ 40 + 2 ^ 36 * s.pos
  [ w32 (0x138 + 2 ^ 16 * a.tag.toNat + 2 ^ 28 * a.stream.toNat), w32 addr, w32 (addr / 2 ^ 32),
    w32 (2 ^ 16 * a.srcpos.toNat + 2 ^ 20 * a.priv.toNat + 2 ^ 24 * a.srcpkg.toNat), w32 (2 + code * 2 ^ 8) ]

/-- A software side signal is recorded and answered. A code below 40h has a row of its own or is reserved; a
reserved code is a protocol error, discarded and not answered (R289, R297). -/
def State.softSignal (s : State) (a : Access) (code : Nat) : State :=
  if code < 0x40 then
    if s.heard a.port.val then s.protocolError a.port.val 5 (s.signalWords a code) else s
  else
    s.signalled a fun t =>
      (t.setRegN 0x40118 (code + a.srcpos.toNat * 2 ^ 8 + 2 ^ 16 * a.srcpkg.toNat)).incReg 0x4011C

/-! ## The meanings of the commands -/

def execTbaseFrame (copy : Fin 2) (f : TFrame) (s : State) : Outcome := .next (s.tbaseFrame copy.val f)

def execTimeBaseLost (s : State) : Outcome := .next s.timeBaseLost

def execRefclkLoss (present : BitVec 4) (s : State) : Outcome := .next (s.refclkLost present.toNat)

def execPeerLost (a : Access) (pos : BitVec 4) (pkg : Byte) (s : State) : Outcome :=
  .next (s.signalled a fun t => t.peerLost pos.toNat pkg.toNat)

def execPeerBack (a : Access) (pos : BitVec 4) (pkg : Byte) (s : State) : Outcome :=
  .next (s.signalled a fun t => t.peerBack pos.toNat pkg.toNat)

def execPeerSpare (a : Access) (_pos : BitVec 4) (_pkg : Byte) (s : State) : Outcome :=
  .next (s.signalled a State.peerSpare)

def execIsolate (a : Access) (s : State) : Outcome := .next (s.signalled a fun t => t.isolate isoHub)

def execGrant (a : Access) (v : BitVec 64) (s : State) : Outcome := .next (s.signalled a fun t => t.grant v.toNat)

def execDeny (a : Access) (s : State) : Outcome := .next (s.signalled a State.deny)

def execSoftwareSideSignal (a : Access) (code : Byte) (s : State) : Outcome :=
  .next (s.softSignal a code.toNat)

def execReadmit (s : State) : Outcome := .next s.readmit

def execReadmitTrain (obs : ReadmitObs) (s : State) : Outcome :=
  .next (s.readmitTrain obs.copies.toNat obs.ports)

end Sys2Proof.Machine
end

