-- ==== Sys2Proof/Machine/Groups.lean ====
section
/-!
DEFINITION. Communication groups: forming (R429), the rounds of an exchange (R431) and their evaluation
(R432), and dissolving (R434).
-/

namespace Sys2Proof.Machine

/-! ## FORM and DISSOLVE (R429, R434) -/

/-- VALID members that name this die. -/
def State.ownSlots (s : State) (g : Group) : List Nat :=
  (List.range 16).filter fun m =>
    memberValid (g.member m) && memberPos (g.member m) == s.pos && memberPkg (g.member m) == 0xFF

/-- FORM is refused: the entry, the members or the concord window do not allow it. -/
def State.formRefused (s : State) (gi : Nat) : Bool :=
  let g := s.group gi
  let valid := (List.range 16).filter fun m => memberValid (g.member m)
  let e := s.handle g.cluster g.handle
  g.st != .empty || s.admitSt == 3 || decide (valid.length < 2) || decide ((s.ownSlots g).length ≠ 1)
    || decide (320 ≤ g.cluster) || !s.windowOpen g.cluster g.handle || e.fmt != 9 || e.tagMode != 0
    || decide (e.extent < 128 * 16)

/-- An accepted FORM: FORMING with EXCHANGE 0, and the exchange starts. -/
def State.form (s : State) (gi : Nat) : State :=
  let g := s.group gi
  (s.setGroup gi { g with
    st := .forming, mask := 0, exchange := 0, lost := 0, skew := 0, skewPos := 0, sent := [], round2 := false
    self := ((s.ownSlots g).head?).getD 0 }).concordStart gi

/-- DISSOLVE empties the entry; the members, the window and the epoch that software wrote stay. A FENCE in
progress ends with DISCORD and leaves MASK bit 7. -/
def State.dissolve (s : State) (gi : Nat) : State :=
  let g := s.group gi
  let fence := if g.st == .empty then none else s.groupFence gi
  let s := s.setGroup gi { g with
    st := .empty, mask := if fence.isSome then 128 else 0, exchange := 0, lost := 0, self := 0, sent := []
    round2 := false }
  match fence with
  | some id => s.failWith id 0x23
  | none => s

/-! ## The exchange (R431) -/

def Group.exchanging (g : Group) : Bool := (g.st == .forming || g.st == .fencing) && !g.sent.isEmpty

/-- CONCORD_ROUND: the window holds every round-1 record of the exchange, and round 2 starts. -/
def State.concordRound (s : State) (gi : Nat) : State :=
  let g := s.group gi
  if g.exchanging && !g.round2 && g.others.all fun m => s.concordHas gi g m 0 then s.concordSecond gi else s

/-! ## The evaluation (R432) -/

/-- A difference modulo 2³², signed. -/
def signedDiff (a b : Nat) : Int :=
  let d : Nat := (a + 2 ^ 32 - b % 2 ^ 32) % 2 ^ 32
  if d < 2 ^ 31 then (d : Int) else (d : Int) - 2 ^ 32

/-- Twice the skew toward a member in the same package. -/
def State.skewTwice (s : State) (g : Group) (m : Nat) : Nat :=
  let a1 := SMap.getD g.sent m 0
  let b1 := s.concordWord g m 1 (s.pos % 8)
  let b0 := s.concordWord g m 0 8
  let a0 := s.concordWord g m 0 15
  (signedDiff b1 a1 - signedDiff a0 b0).natAbs

/-- Bits of MASK that a member's round-1 record sets. -/
def State.fieldMask (s : State) (g : Group) (m : Nat) : Nat :=
  let w (i : Nat) : Nat := s.concordWord g m 0 i
  let mine (i : Nat) : Nat := (g.mine[i]?).getD 0
  let differs (i : Nat) : Nat := b2n (w (2 + i) != mine i)
  let dg := toLE 4 (w 0) ++ toLE 4 (w 1)
  differs 0 + 2 * differs 1 + 4 * differs 2 + 8 * differs 3
    + 32 * b2n (dg != concordDigest (w 2) (w 3) (w 4) (w 5))

/-- The member with the largest skew, the lowest slot first. -/
def worstSkew : List (Nat × Nat) → Option (Nat × Nat)
  | [] => none
  | (m, k) :: t =>
    match worstSkew t with
    | some (n, j) => if k < j then some (n, j) else some (m, k)
    | none => some (m, k)

/-- CONCORD_EVALUATE: the window holds every round-2 record, and the verdict is taken. A skew that the field of
G_SKEW cannot hold has no stated value and is free (log entry 3). -/
def State.concordEvaluate (s : State) (gi : Nat) : State :=
  let g := s.group gi
  if !(g.exchanging && g.round2 && g.peers.all fun m => s.concordHas gi g m 1) then s
  else
    let fields := g.others.foldl (fun a m => a ||| s.fieldMask g m) 0
    let skews := g.peers.map fun m => (m, s.skewTwice g m)
    let time := if skews.any fun p => decide (200 < p.2) then 16 else 0
    let worst := worstSkew skews
    let k := (worst.map (·.2)).getD 0
    let (w, s) := if k / 2 < 2 ^ 16 then (w32 (k / 2), s) else s.freshWord
    let s := s.setGroup gi { g with skew := w.toNat % 2 ^ 16, skewPos := (worst.map fun p => memberPos (g.member p.1)).getD 0 }
    s.groupVerdict gi (g.mask ||| fields ||| time)

/-! ## The meanings of the commands -/

def execConcordRound (g : Fin 64) (s : State) : Outcome := .next (s.concordRound g.val)

def execConcordEvaluate (g : Fin 64) (s : State) : Outcome := .next (s.concordEvaluate g.val)

end Sys2Proof.Machine
end

