-- ==== Sys2Proof/Machine/Power.lean ====
section
/-!
DEFINITION. Voltage domains and islands' steps (R37 to R41, R363), energy, calibration and tickets (R365 to R368,
R376), the cap and its controller (R369 to R374), droop (R378) and supply faults (R379).
-/

namespace Sys2Proof.Machine

/-! ## Steps (R37, R38, R363) -/

/-- Frequency of a step in MHz. -/
def stepFreq (k : Nat) : Nat :=
  ([600, 700, 800, 900, 1000, 1100, 1200, 1300, 1400, 1500, 1550, 1600, 1650, 1700, 1750, 1800][k]?).getD 600

/-- Minimum domain voltage of a step in mV. -/
def stepVolt (k : Nat) : Nat :=
  ([550, 565, 580, 600, 620, 640, 660, 680, 700, 720, 740, 760, 780, 805, 830, 850][k]?).getD 550

/-- Domain of a cluster: its row. -/
def domainOf (c : Nat) : Nat := c / 16

def domainKey (d : Nat) : Nat := 0x48124 + 4 * (d / 8)

/-- The step whose voltage a domain receives. -/
def State.domainStep (s : State) (d : Nat) : Nat := s.regF (domainKey d) (4 * (d % 8)) 4

def State.setDomainStep (s : State) (d v : Nat) : State := s.setRegF (domainKey d) (4 * (d % 8)) 4 v

/-- The sensor that governs a cluster (R385): the first five of a block's ten clusters an even one. -/
def sensorOf (c : Nat) : Nat := 2 * homePort c + (if clusterStream c < 5 then 0 else 1)

def State.sensorFailed (s : State) (n : Nat) : Bool := bit (s.regN (0x4911C + 4 * (n / 32))) (n % 32)

/-- Reading of a sensor in 0.25 °C. -/
def State.tempOf (s : State) (n : Nat) : Int :=
  let v := s.regF (0x49200 + 4 * n) 0 11
  if v < 1024 then (v : Int) else (v : Int) - 2048

/-- LIMIT: the lowest of the thermal, sensor-failure, emergency and supply limits. -/
def State.limitOf (s : State) (c : Nat) : Nat :=
  let i := s.island c
  let fail := if s.sensorFailed (sensorOf c) then s.regF 0x49108 0 4 else 15
  min (min i.thermal fail) (min i.emergency i.supply)

/-- WANT: the forced step, or the controller's choice. -/
def State.wantOf (s : State) (c : Nat) : Nat :=
  let k := clusterBase c + 0x2F0C
  if bit (s.regN k) 31 then s.regF k 0 4 else (s.island c).want

/-- The step that a domain's islands may run at: its voltage's, or a lower one that waits for them (R40). -/
def State.domainRoom (s : State) (d : Nat) : Nat :=
  match SMap.find s.power.lowering d with
  | some n => min n (s.domainStep d)
  | none => s.domainStep d

/-- RUN. -/
def State.runStep (s : State) (c : Nat) : Nat :=
  min (min (s.wantOf c) (s.limitOf c)) (s.domainRoom (domainOf c)) - (s.island c).droop

/-- The step that a forced step of the DIE page puts on the mesh (`control` false) or the control island. -/
def State.fabForced (s : State) (control : Bool) : Option Nat :=
  let w := s.regN 0xF0C
  if bit w 31 && bit w 4 == control then some (fld w 0 4) else none

def State.meshStep (s : State) : Nat :=
  let want := (s.island 320).want
  min 9 (min want ((s.fabForced false).getD want)) - (s.island 320).droop

def State.controlStep (s : State) : Nat := min 9 ((s.fabForced true).getD 9) - (s.island 321).droop

/-! ## Energy estimates (R365, R367) -/

def Activity.energy (a : Activity) : Nat := a.count * Config.eventEnergy a.kind

/-- Supply of an island: its domain, or 20 for the fabric. -/
def supplyOf (island : Nat) : Nat := if island < 320 then domainOf island else 20

def State.gain (s : State) (i : Nat) : Nat := s.regF (0x481A0 + 4 * i) 0 16

/-- A calibrated energy: raw times the supply's gain. -/
def State.calib (s : State) (supply e : Nat) : Nat := e * s.gain supply / 2 ^ 14

def isMemory (kind : Nat) : Bool := kind == evSlot || kind == evAcc

/-- Raw dynamic energy of a cluster: memory and compute. -/
def State.dynOf (s : State) (c : Nat) : Nat × Nat :=
  s.power.activity.foldl
    (fun x a => if a.island ≠ c then x else if isMemory a.kind then (x.1 + a.energy, x.2) else (x.1, x.2 + a.energy))
    (0, 0)

def State.leakOf (s : State) (c step : Nat) : Nat := Config.leakage step (s.tempOf (sensorOf c)) (s.ladder c)

def State.meshLeak (s : State) : Nat := Config.meshLeakage ((List.range 64).map s.tempOf)

def State.controlLeak (s : State) : Nat := Config.controlLeakage ((List.range 64).map s.tempOf)

/-- Raw dynamic energy of an island: the mesh island's is that of the bond lanes, the port link layers and the mesh. -/
def State.islandRaw (s : State) (i : Nat) : Nat :=
  s.power.activity.foldl (fun x a => if a.island = i then x + a.energy else x) 0

/-- mW that an energy in 1/256 µJ makes in one control period of 10 µs. -/
def toMw (e : Nat) : Nat := e * 100 / 256

/-- What one control period's events come to. -/
structure Estimates where
  /-- Memory and compute of the clusters, raw. -/
  dyn   : List (Nat × Nat)
  leaks : List Nat
  /-- The links and the mesh island. -/
  link  : Nat
  /-- Events of the control island, and the always-on section. -/
  ctrl  : Nat
  /-- Leakage of the mesh and control islands. -/
  fabric : Nat
  deriving Repr

def State.estimates (s : State) : Estimates :=
  { dyn := (List.range 320).map s.dynOf
    leaks := (List.range 320).map fun c => s.leakOf c (s.domainStep (domainOf c))
    link := s.islandRaw 320, ctrl := s.islandRaw 321 + Config.alwaysOn
    fabric := s.meshLeak + s.controlLeak }

def Estimates.cluster (e : Estimates) (c : Nat) : Nat :=
  let d := (e.dyn[c]?).getD (0, 0)
  d.1 + d.2 + (e.leaks[c]?).getD 0

/-- Raw energy of a supply. -/
def Estimates.supply (e : Estimates) (d : Nat) : Nat :=
  if d < 20 then (List.range 16).foldl (fun x i => x + e.cluster (16 * d + i)) 0
  else e.link + e.ctrl + e.fabric

/-! ## Phases and jobs (R369, R374) -/

/-- Class of an opcode, if it forms a phase. -/
def phaseClass (opcode : Nat) : Option Nat :=
  if opcode = 1 ∨ opcode = 2 ∨ opcode = 3 then some 0
  else if opcode = 4 ∨ opcode = 5 then some 1
  else if opcode = 6 ∨ opcode = 7 then some 2
  else none

def OpRec.phaseKey (o : OpRec) : Option Nat := (phaseClass o.desc.opcode).map fun c => c * 65536 + o.job

/-- Phases on a cluster. -/
def State.phasesOn (s : State) (c : Nat) : List Nat :=
  dedup ((s.ops.filter fun o => setHas o.holds c).filterMap OpRec.phaseKey)

def State.jobRuns (s : State) (job : Nat) : Bool := s.accepted.any fun o => o.job == job

/-! ## Accounting of a control period (R364, R366, R376) -/

def addTo (m : SMap Nat) (k n : Nat) : SMap Nat := SMap.putD m k (SMap.getD m k 0 + n) 0

/-- Clusters that each job holds, each cluster counted as 720,720 parts so that up to 16 jobs share it. -/
def State.jobWeights (s : State) : SMap Nat :=
  (List.range 320).foldl
    (fun m c =>
      let jobs := dedup ((s.ops.filter fun o => setHas o.holds c).map (·.job))
      jobs.foldl (fun m j => addTo m j (720720 / max jobs.length 1)) m) []

/-- Credit energy to a job's ticket; what no ticket takes is left over. -/
def State.credit (s : State) (job : Option Nat) (e : Nat) : State × Nat :=
  match job.bind s.ticketOf with
  | some t => ({ s with power := { s.power with ticket := addTo s.power.ticket t e } }, e)
  | none => (s, 0)

/-- Data bytes that the links carried in the period, and those of a part of the traffic. -/
def State.carried (s : State) (mine : Load → Bool) : Nat :=
  (s.power.load.filter mine).foldl (fun x y => x + y.bytes) 0

/-- The part of the period's link energy that falls to a part of the traffic, by the bytes carried (R376). -/
def State.linkShare (s : State) (energy : Nat) (mine : Load → Bool) : Nat :=
  energy * s.carried mine / max 1 (s.carried fun _ => true)

/-- The running interval takes the period's raw energies; a new number starts a new one (R366). -/
def State.addInterval (s : State) (e : Estimates) : State :=
  let n := (s.time.now - 1) / 1000000
  let fresh : Interval := { number := n, raw := [], split := [], link := [], sole := [] }
  let (cur, rest, first) := match s.power.held with
    | i :: t => if i.number = n then (i, t, false) else (fresh, i :: t, true)
    | [] => (fresh, [], true)
  let raw := (List.range 21).foldl (fun m d => addTo m d (e.supply d)) cur.raw
  let split := (List.range 320).foldl
    (fun m c =>
      let d := (e.dyn[c]?).getD (0, 0)
      let o := SMap.getD m c (0, 0)
      SMap.putD m c (o.1 + d.1, o.2 + d.2) (0, 0)) cur.split
  let link := (List.range 320).foldl
    (fun m c => addTo m c (s.linkShare e.link fun y => y.cluster == some c)) cur.link
  let sole := (List.range 320).foldl
    (fun m c =>
      let one := match s.phasesOn c with | [p] => some p | _ => none
      if first then SMap.put m c one
      else if SMap.getD m c none = one then m else SMap.put m c none) cur.sole
  let cur : Interval := { number := n, raw := raw, split := split, link := link, sole := sole }
  { s with power := { s.power with held := (cur :: rest).take 5 } }

/-- PWR_NOW and PWR_AVG in 0.1 W, from the last 10 and 1,000 periods. -/
def State.showPower (s : State) : State :=
  let sum (n : Nat) : Nat := (s.power.periods.take n).foldl (· + ·) 0
  (s.setRegN 0x48110 (sum 10 / 2560 % 65536)).setRegN 0x48114 (sum 1000 / 256000 % 65536)

/-- The clusters' estimates of a period are shown, and its interval is added to the window. -/
def State.showEstimates (s : State) (e : Estimates) : State :=
  ((List.range 320).foldl (fun t c => t.setRegN (clusterBase c + 0x2114) (e.cluster c % 2 ^ 24)) s).addInterval e

/-- Energies of the period go to the islands, the tickets and the interval. -/
def State.account (s : State) (e : Estimates) : State :=
  let total := (List.range 21).foldl (fun x d => x + s.calib d (e.supply d)) 0
  let (s, dyn, given) := (s.power.activity.filter fun a => decide (a.island < 320)).foldl
    (fun (x : State × Nat × Nat) a =>
      let n := x.1.calib (domainOf a.island) a.energy
      let (t, g) := x.1.credit a.job n
      (t, x.2.1 + n, x.2.2 + g)) (s, 0, 0)
  let link := s.calib 20 e.link
  let (s, given) := (dedup (s.power.load.filterMap (·.job))).foldl
    (fun (x : State × Nat) j =>
      let (t, g) := x.1.credit (some j) (s.linkShare link fun y => y.job == some j)
      (t, x.2 + g)) (s, given)
  let static := total - dyn - link
  let (s, given) := s.jobWeights.foldl
    (fun (x : State × Nat) p =>
      let (t, g) := x.1.credit (some p.1) (static * p.2 / (320 * 720720))
      (t, x.2 + g)) (s, given)
  let energy := (List.range 320).foldl (fun m c => addTo m c (s.calib (domainOf c) (e.cluster c))) s.power.energy
  let s := s.showEstimates e
  ({ s with power := { s.power with
      loose := s.power.loose + (total - given), energy := energy, activity := [], load := []
      periods := (total :: s.power.periods).take 1000 } } : State).showPower

/-! ## The cap (R368, R369) -/

/-- The effective cap in W. -/
def State.capEff (s : State) : Nat :=
  (List.range 4).foldl
    (fun x k =>
      let w := s.regN (0x48610 + 4 * k)
      if bit w 31 && s.jobRuns (fld w 0 16) then min x (fld w 16 10) else x)
    (min (s.regF 0x48100 0 10) (s.regF 0x48104 0 10))

/-- The cap that the controller regulates to, in mW. -/
def State.capMw (s : State) : Nat :=
  let c := s.regF 0x48134 0 10 * 1000
  if bit (s.regN 0x481F8) 0 then c * 95 / 100 else c

/-- An emergency cut (R373). -/
def State.emergency (s : State) (mw : Nat) : State :=
  let cap := s.capMw
  if 103 * cap < 100 * mw ∧ s.power.predicted * 100 + 3 * cap < 100 * mw then
    let s := (List.range 320).foldl
      (fun t c => t.setIsland c { t.island c with emergency := s.runStep c - 2 }) s
    (s.incReg 0x4811C).raise pgPower 8
  else s

/-- EMERGENCY_LIFT: the limit rises by one step, up to none. -/
def State.emergencyLift (s : State) : State :=
  (List.range 320).foldl
    (fun t c =>
      let i := t.island c
      if i.emergency < 15 then t.setIsland c { i with emergency := i.emergency + 1 } else t) s

/-! ## The phase learner (R374) -/

def learnKey (e : Nat) : Nat := 0x48700 + 8 * e

def State.learnEntry (s : State) (p : Nat) : Option Nat :=
  (List.range 32).find? fun e => bit (s.regN (learnKey e)) 31 && s.regF (learnKey e) 0 18 == p / 65536 * 65536 + p % 65536

def State.defaultSplit (s : State) : Nat × Nat := (s.regF 0x4810C 8 8, s.regF 0x4810C 16 8)

def State.splitOf (s : State) (p : Nat) : Nat × Nat :=
  if bit (s.regN 0x4810C) 1 then s.defaultSplit
  else
    match s.learnEntry p with
    | some e => (s.regF (learnKey e + 4) 0 8, s.regF (learnKey e + 4) 8 8)
    | none => s.defaultSplit

/-- The learner's table holds a split; compute is what the other two leave. -/
def State.setSplit (s : State) (e l m : Nat) : State :=
  s.setRegN (learnKey e + 4) (l % 256 + m % 256 * 256 + (256 - l - m) % 256 * 65536)

/-- Phases that run, with the clusters that each holds. -/
def State.runningPhases (s : State) : SMap Nat :=
  (List.range 320).foldl (fun m c => (s.phasesOn c).foldl (fun m p => addTo m p 1) m) []

/-- Each running phase has its entry, a free or the least recently used one, unless FREEZE is 1. -/
def State.learnAllocate (s : State) : State :=
  s.runningPhases.foldl
    (fun t x =>
      match t.learnEntry x.1 with
      | some e => { t with power := { t.power with lru := setDel t.power.lru e ++ [e] } }
      | none =>
        if bit (t.regN 0x4810C) 0 then t
        else
          let free := (List.range 32).find? fun e => !bit (t.regN (learnKey e)) 31
          match (match free with | some e => some e | none => t.power.lru.head?) with
          | some e =>
            let d := t.defaultSplit
            let u := (t.setRegN (learnKey e) (2 ^ 31 + x.1)).setSplit e d.1 d.2
            { u with power := { u.power with lru := setDel u.power.lru e ++ [e] } }
          | none => t) s

/-- The mean of the running phases' splits, weighted by their clusters: link and memory in 1/256. -/
def State.phaseSplit (s : State) : Nat × Nat :=
  let l := s.runningPhases
  let w := l.foldl (fun x p => x + p.2) 0
  if w = 0 then s.defaultSplit
  else
    (l.foldl (fun x p => x + p.2 * (s.splitOf p.1).1) 0 / w, l.foldl (fun x p => x + p.2 * (s.splitOf p.1).2) 0 / w)

/-- A quarter of the way, rounding toward zero (R20). -/
def quarterStep (old new : Nat) : Nat := if old ≤ new then old + (new - old) / 4 else old - (old - new) / 4

/-- Entries of the phases that alone held clusters for a whole interval move toward what was observed. -/
def State.learnUpdate (s : State) (i : Interval) : State :=
  let phases := dedup (i.sole.filterMap (·.2))
  if bit (s.regN 0x4810C) 0 then s
  else
    phases.foldl
      (fun t p =>
        match t.learnEntry p with
        | none => t
        | some e =>
          let mine := (i.sole.filter fun x => x.2 == some p).map (·.1)
          let sum (f : Nat × Nat → Nat) : Nat := mine.foldl
            (fun x c => x + t.calib (domainOf c) (f (SMap.getD i.split c (0, 0)))) 0
          let l := t.calib 20 (mine.foldl (fun x c => x + SMap.getD i.link c 0) 0)
          let m := sum (·.1)
          let n := l + m + sum (·.2)
          if n = 0 then t
          else
            let k := learnKey e + 4
            t.setSplit e (quarterStep (t.regF k 0 8) (256 * l / n)) (quarterStep (t.regF k 8 8) (256 * m / n))) s

/-! ## The controller (R371, R372) -/

/-- A cluster as the controller sees it: its step, its domain's, its LIMIT, memory and compute in mW, and the step
chosen. -/
structure Est where
  step  : Nat
  dom   : Nat
  limit : Nat
  mem   : Nat
  cmp   : Nat
  pick  : Nat

/-- mW at a step with the voltage of step `v`. -/
def Est.at (e : Est) (mw x v : Nat) : Nat :=
  mw * stepFreq x * stepVolt v ^ 2 / (stepFreq e.step * stepVolt e.dom ^ 2)

/-- The highest step within LIMIT whose predicted power fits an allowance. -/
def Est.best (e : Est) (allowance : Nat) : Nat :=
  (((List.range 16).filter fun x => decide (x ≤ e.limit) && decide (e.at (e.mem + e.cmp) x x ≤ allowance)).getLast?).getD 0

/-- A domain under the controller: its candidate step, its clusters and its leakage in mW by step. -/
structure Dom where
  step : Nat
  cl   : List Est
  leak : List Nat

def Dom.power (d : Dom) : Nat :=
  d.cl.foldl (fun x e => x + e.at (e.mem + e.cmp) e.pick d.step) ((d.leak[d.step]?).getD 0)

def Dom.raise (d : Dom) : Dom :=
  { d with
    step := d.step + 1
    cl := d.cl.map fun e => if e.pick + 1 ≤ e.limit then { e with pick := e.pick + 1 } else e }

def Dom.lower (d : Dom) : Dom :=
  { d with step := d.step - 1, cl := d.cl.map fun e => { e with pick := min e.pick (d.step - 1) } }

def sumPower (l : List Dom) : Nat := l.foldl (fun x d => x + d.power) 0

/-- Step 4 of R372: `base` is the power beside the domains, `i` the next domain. -/
def raiseGo (base cap : Nat) : Nat → Nat → List Dom → List Dom
  | 0, _, l => l
  | n + 1, i, l =>
    match l[i % 20]? with
    | none => l
    | some d =>
      if 15 ≤ d.step then raiseGo base cap n (i + 1) l
      else
        let l' := setAt l (i % 20) d.raise
        if cap < base + sumPower l' then l else raiseGo base cap n (i + 1) l'

/-- Step 5 of R372. -/
def lowerGo (base cap : Nat) : Nat → Nat → List Dom → List Dom
  | 0, _, l => l
  | n + 1, i, l =>
    if base + sumPower l ≤ cap then l
    else
      match l[i % 20]? with
      | none => l
      | some d => lowerGo base cap n (i + 19) (if d.step = 0 then l else setAt l (i % 20) d.lower)

/-- A domain's step goes toward a target (R40, R307): up by VREQ at once, down once its islands have stepped down.
A domain whose VOK is low, or under a supply fault, keeps its VREQ. -/
def State.steerDomain (s : State) (d target : Nat) : State :=
  let cur := s.domainStep d
  let drop := SMap.del s.power.lowering d
  if !((s.sb.vok[d]?).getD true) || bit (s.regN 0x48120) d then s
  else if target < cur then
    { s with power := { s.power with lowering := SMap.put s.power.lowering d target } }
  else
    let s : State := { s with power := { s.power with lowering := drop } }
    if cur < target then
      { s with sb := { s.sb with vreq := setAt s.sb.vreq d target, vok := setAt s.sb.vok d false } }
    else s

/-- What one run of R371 and R372 comes to: B_L, B_M and B_C after return, the mesh step, the domains and the power
beside them. -/
structure Plan372 where
  link : Nat
  mem  : Nat
  cmp  : Nat
  mesh : Nat
  doms : List Dom
  base : Nat

/-- Leakage of a domain in mW at each step of its voltage (R371). -/
def State.domainLeaks (s : State) (d : Nat) : List Nat :=
  (List.range 16).map fun x =>
    (List.range 16).foldl (fun y i => y + toMw (s.calib d (s.leakOf (16 * d + i) x))) 0

/-- R371 and R372, with the domains' leakage taken at the steps `holds`; `run` are the clusters' present steps. -/
def State.budget (s : State) (e : Estimates) (run holds : List Nat) : Plan372 :=
  let cap := s.capMw
  let ests := (List.range 320).map fun c =>
    let d := (e.dyn[c]?).getD (0, 0)
    ({ step := (run[c]?).getD 0, dom := s.domainStep (domainOf c), limit := s.limitOf c
       mem := toMw (s.calib (domainOf c) d.1), cmp := toMw (s.calib (domainOf c) d.2), pick := 0 } : Est)
  let ctrl := toMw (s.calib 20 e.ctrl)
  let fabric := toMw (s.calib 20 e.fabric)
  let leaks := (List.range 20).map s.domainLeaks
  let leak := fabric + (List.range 20).foldl
    (fun x d => x + (((leaks[d]?).getD [])[(holds[d]?).getD 0]?).getD 0) 0
  let link := toMw (s.calib 20 e.link)
  let mesh := s.meshStep
  let linkAt (x : Nat) : Nat := link * stepFreq x / stepFreq mesh
  let memNow := ests.foldl (fun x c => x + c.mem) 0
  let cmpNow := ests.foldl (fun x c => x + c.cmp) 0
  let floorL := s.regF 0x48108 0 8 * 1000
  let floorM := s.regF 0x48108 8 8 * 1000
  let h := cap - leak - ctrl
  let above := h - floorL - floorM
  let (fl, fm) := s.phaseSplit
  let bL := floorL + above * fl / 256
  let bM := floorM + above * fm / 256
  let bC := h - bL - bM
  let (bL, bC) := if linkAt 9 < bL then (linkAt 9, bC + (bL - linkAt 9)) else (bL, bC)
  let (bM, bC) := if memNow < bM then (memNow, bC + (bM - memNow)) else (bM, bC)
  let meshPick := (((List.range 10).filter fun x => decide (linkAt x ≤ bL)).getLast?).getD 0
  let ests := ests.map fun c =>
    let share := (if memNow = 0 then 0 else bM * c.mem / memNow) + (if cmpNow = 0 then 0 else bC * c.cmp / cmpNow)
    { c with pick := c.best share }
  let doms := (List.range 20).map fun d =>
    let cl := (ests.drop (16 * d)).take 16
    ({ step := cl.foldl (fun x c => max x c.pick) 0, cl := cl, leak := (leaks[d]?).getD [] } : Dom)
  let base := linkAt meshPick + ctrl + fabric
  let k := s.time.now / 1000000 % 20
  { link := bL, mem := bM, cmp := bC, mesh := meshPick, base := base
    doms := lowerGo base cap 400 (k + 19)
      (if base + sumPower doms ≤ cap then raiseGo base cap 640 k doms else doms) }

/-- The step whose voltage a domain will receive once the controller asks for `target`: its present one where R307 or
R379 holds it. -/
def State.willHold (s : State) (d target : Nat) : Nat :=
  if !((s.sb.vok[d]?).getD true) || bit (s.regN 0x48120) d then s.domainStep d else target

/-- CONTROL_PERIOD's second half: budgets, steps and the prediction for the next period. R371 takes the leakage at the
voltages that will hold, which the budgets only then decide: the model first budgets with the leakage at the present
voltages, and again with that at the voltages so found (DESIGN CHOICE, log entry 100). -/
def State.control (s : State) (e : Estimates) (run : List Nat) : State :=
  let first := s.budget e run ((List.range 20).map s.domainStep)
  let plan := s.budget e run
    ((List.range 20).map fun d => s.willHold d (((first.doms[d]?).map (·.step)).getD 0))
  let doms := plan.doms
  let s := (List.range 320).foldl
    (fun t c => t.setIsland c { t.island c with
      want := (((doms[c / 16]?).bind fun d => d.cl[c % 16]?).map (·.pick)).getD 0 }) s
  let s := s.setIsland 320 { s.island 320 with want := plan.mesh }
  let s := (List.range 20).foldl (fun t d => t.steerDomain d (((doms[d]?).map (·.step)).getD 0)) s
  let next := plan.base + ((List.range 20).map fun d =>
    (doms[d]?).map fun x => ({ x with step := s.domainStep d } : Dom).power).foldl (fun a p => a + p.getD 0) 0
  let s := s.setRegN 0x48118
    (plan.link / 1000 % 1024 + plan.mem / 1000 % 1024 * 2 ^ 10 + plan.cmp / 1000 % 1024 * 2 ^ 20)
  { s with power := { s.power with predicted := next } }

/-- CONTROL_PERIOD (R371): the controller runs in the control island from step 4 of start-up on (R464), until the die
is dark. -/
def State.controlPeriod (s : State) : State :=
  if s.stopped || decide (s.bootStep < 4) || s.bootStep == 11 then s
  else
    let e := s.estimates
    let mw := toMw ((List.range 21).foldl (fun x d => x + s.calib d (e.supply d)) 0)
    let run := (List.range 320).map s.runStep
    let s := ((s.account e).emergency mw).learnAllocate
    (s.setRegN 0x48134 s.capEff).control e run

/-! ## Calibration (R366 to R368) -/

/-- A gain moves an eighth of the way to a ratio, both in 2.14 fixed point, rounding toward zero (R20). -/
def eighthStep (gain r : Nat) : Nat := if gain ≤ r then gain + (r - gain) / 8 else gain - (gain - r) / 8

/-- One supply of an accepted report. -/
def State.calibrate (s : State) (i : Interval) (d : Nat) : State :=
  let raw := SMap.getD i.raw d 0
  let meas := s.regN (0x48140 + 4 * d) * 256
  if raw < 1000 * 256 then s
  else if raw ≤ 2 * meas ∧ meas < 2 * raw then
    s.setRegN (0x481A0 + 4 * d) (eighthStep (s.gain d) (meas * 2 ^ 14 / raw) % 65536)
  else (s.capture pgPower 2 [w32 d]).raise pgPower 2

/-- CAL_STAT.DRIFT. -/
def State.drift (s : State) : Nat :=
  (List.range 21).foldl (fun x i => max x ((s.gain i - 0x4000) + (0x4000 - s.gain i))) 0

/-- The four most recent completed intervals (R366); of one in which no control period ended the estimates are 0. -/
def State.completed (s : State) : List Interval :=
  let cur := s.time.now / 1000000
  (List.range (min 4 cur)).map fun i =>
    let n := cur - 1 - i
    (s.power.held.find? fun x => x.number == n).getD { number := n, raw := [], split := [], link := [], sole := [] }

/-- The effect of a write of MEAS_SEQ: calibration on the interval that it names. -/
def State.measure (s : State) (n : Nat) : State :=
  match s.completed.find? fun i => i.number % 65536 == n % 65536 with
  | none =>
    let s := s.capture pgPower 1 [w32 (n % 65536)]
    let m := s.regF 0x481F8 8 8
    s.setRegF 0x481F8 8 8 (min 255 (m + 1))
  | some i =>
    let s := (List.range 21).foldl (fun t d => t.calibrate i d) s
    let s := (s.setRegF 0x481F8 16 16 s.drift).setRegF 0x481F8 0 1 0
    s.learnUpdate i

/-- CAL_STALE: three consecutive intervals have passed without an accepted report. -/
def State.calStale (s : State) : State := (s.setRegF 0x481F8 0 1 1).raise pgPower 1

/-- LEARN_CTRL.CLEAR. -/
def State.learnClear (s : State) : State :=
  let s := (List.range 64).foldl (fun t i => t.setReg (0x48700 + 4 * i) 0) s
  { s with power := { s.power with lru := [] } }

/-! ## Voltage handshake and supply faults (R40, R307, R379) -/

/-- ISLAND_STEP_CONFIRM: the islands of a domain run at or below its new step, and the lower voltage is asked for. -/
def State.stepConfirm (s : State) (d : Nat) : State :=
  match SMap.find s.power.lowering d with
  | some n =>
    if !((s.sb.vok[d]?).getD true) || bit (s.regN 0x48120) d || s.stopped then s
    else
      let s := s.setDomainStep d n
      { s with
        power := { s.power with lowering := SMap.del s.power.lowering d }
        sb := { s.sb with vreq := setAt s.sb.vreq d n, vok := setAt s.sb.vok d false } }
  | none => s

/-- VOK_RISE: the domain has settled at the step requested on VREQ. A die that has stopped or shut down then requests
step 0 (R390, R476). -/
def State.vokRise (s : State) (d : Nat) : State :=
  let s := s.setDomainStep d ((s.sb.vreq[d]?).getD 9)
  let s : State := { s with sb := { s.sb with vok := setAt s.sb.vok d true } }
  if s.stopped || s.shut == .done then s.vreqZero d else s

/-- A supply fault holds the domain's islands at their present steps. -/
def State.supplyHold (s : State) (d cause bits : Nat) : State :=
  let s := (List.range 16).foldl
    (fun t i => t.setIsland (16 * d + i) { t.island (16 * d + i) with supply := s.runStep (16 * d + i) }) s
  ((s.setRegF 0x48120 d 1 1).capture pgPower cause [w32 d]).raise pgPower bits

/-- SUPPLY_FAULT: VOK fell without a change of VREQ. -/
def State.supplyFault (s : State) (d : Nat) : State :=
  ({ s with sb := { s.sb with vok := setAt s.sb.vok d false } } : State).supplyHold d 3 4

/-- VOK_LATE: VOK has not returned 1 ms after a change of VREQ. -/
def State.vokLate (s : State) (d : Nat) : State := s.supplyHold d 4 36

/-- SUPPLY_FAULT_END: VOK has been high for 100 µs. -/
def State.supplyFaultEnd (s : State) (d : Nat) : State :=
  let s := (List.range 16).foldl (fun t i => t.setIsland (16 * d + i) { t.island (16 * d + i) with supply := 15 }) s
  (s.vokRise d).setRegF 0x48120 d 1 0

/-! ## Droop (R378) -/

def islandIndex : IslandId → Nat
  | .cluster c => c.val
  | .mesh => 320
  | .control => 321

/-- Is an island's droop response active? The mesh and control islands have no enable. -/
def State.droopOn (s : State) (i : Nat) : Bool := decide (320 ≤ i) || bit (s.regN (clusterBase i + 0x210C)) 16

/-- DROOP_DETECT: the event counts, and the island runs one step lower. -/
def State.droopDetect (s : State) (i : Nat) : State :=
  let s := if i < 320 then s.incReg (clusterBase i + 0x2110) else s
  let s : State := { s with health := { s.health with droop := s.health.droop + 1 } }
  let x := s.island i
  if !s.droopOn i || 3 ≤ x.droop then s
  else
    let s := s.setIsland i { x with droop := x.droop + 1 }
    if x.droop + 1 = 3 ∧ i < 320 then s.raise (pgIsland i) 1 else s

/-- DROOP_QUIET: an interval without an event. -/
def State.droopQuiet (s : State) (i : Nat) : State := s.setIsland i { s.island i with droop := (s.island i).droop - 1 }

/-! ## The meanings of the commands -/

def execControlPeriod (s : State) : Outcome := .next s.controlPeriod

def execEmergencyLift (s : State) : Outcome := .next s.emergencyLift

def execCalStale (s : State) : Outcome := .next s.calStale

def execVokRise (d : Fin 20) (s : State) : Outcome := .next (s.vokRise d.val)

def execSupplyFault (d : Fin 20) (s : State) : Outcome := .next (s.supplyFault d.val)

def execVokLate (d : Fin 20) (s : State) : Outcome := .next (s.vokLate d.val)

def execSupplyFaultEnd (d : Fin 20) (s : State) : Outcome := .next (s.supplyFaultEnd d.val)

def execIslandStepConfirm (d : Fin 20) (s : State) : Outcome := .next (s.stepConfirm d.val)

def execDroopDetect (i : IslandId) (s : State) : Outcome := .next (s.droopDetect (islandIndex i))

def execDroopQuiet (i : IslandId) (s : State) : Outcome := .next (s.droopQuiet (islandIndex i))

end Sys2Proof.Machine
end

