-- ==== Sys2Proof/Machine/Therm.lean ====
section
/-!
DEFINITION. Heat (R385 to R389), the ladder of cluster islands (R380, R381), and the health monitor (R397 to R400).
-/

namespace Sys2Proof.Machine

/-! ## Sensors (R385 to R388) -/

def sensorBit (n : Nat) : Nat := 2 ^ (n % 32)

def State.throttled (s : State) (n : Nat) : Bool := bit (s.regN (0x49114 + 4 * (n / 32))) (n % 32)

def State.setThrottled (s : State) (n : Nat) (b : Bool) : State := s.setRegF (0x49114 + 4 * (n / 32)) (n % 32) 1 (b2n b)

def State.setSensorFailed (s : State) (n : Nat) (b : Bool) : State := s.setRegF (0x4911C + 4 * (n / 32)) (n % 32) 1 (b2n b)

/-- A sensor has failed (R387). -/
def State.failSensor (s : State) (n : Nat) : State :=
  if s.sensorFailed n then s
  else (((s.setSensorFailed n true).setThrottled n false).capture pgTherm 1 [w32 n]).raise pgTherm 2

/-- Is a reading in 0.25 °C within −40 °C to 150 °C? -/
def readingWorks (x : Int) : Bool := decide (-160 ≤ x) && decide (x ≤ 600)

/-- TEMPn shows a reading in 11 bits, two's complement; what it shows of one that they cannot hold is free (R389; log
entry 3). -/
def State.showTemp (s : State) (n : Nat) (x : Int) : State :=
  if -1024 ≤ x ∧ x < 1024 then s.setRegN (0x49200 + 4 * n) (x.toNat + (2048 - (-x).toNat) % 2048)
  else
    let (w, s) := s.freshWord
    s.setRegN (0x49200 + 4 * n) (w.toNat % 2048)

/-- A working reading: its register, throttling, and the two samples of a thermal shutdown. -/
def State.workingSample (s : State) (n : Nat) (x : Int) : State :=
  let s := (s.setSensorFailed n false).showTemp n x
  let above := decide (4 * (s.regF 0x49100 0 8 : Int) ≤ x)
  let s := if above && !s.throttled n then s.raise pgTherm 1 else s
  let s := s.setThrottled n above
  let s := if 480 ≤ x then s.raise pgTherm 4 else s
  if 500 ≤ x then
    let was := setHas s.therm.hot n
    let s : State := { s with therm := { hot := setIns s.therm.hot n } }
    if was then s.stopDie 2 (some n) else s
  else { s with therm := { hot := setDel s.therm.hot n } }

/-- One sensor's conversion; without a reading nothing changes. -/
def State.sampleSensor (s : State) (n : Nat) (r : Option Int) : State :=
  match r with
  | none => s
  | some x => if readingWorks x then s.workingSample n x
    else
      (({ s with therm := { hot := setDel s.therm.hot n } } : State).showTemp n x).failSensor n

/-- TEMP_MAX: the hottest working reading, the lowest sensor first. -/
def State.hottest (s : State) : Nat :=
  let l := (List.range 64).filter fun n => !s.sensorFailed n
  match l.foldl (fun (b : Option Nat) n => match b with
      | some m => if s.tempOf m < s.tempOf n then some n else some m
      | none => some n) none with
  | some n => s.regF (0x49200 + 4 * n) 0 11 + 2 ^ 16 * n
  | none => 0

/-- THERMAL_SAMPLE. -/
def State.thermalSample (s : State) (rs : List (Option Int)) : State :=
  let s := (List.range 64).foldl (fun t n => t.sampleSensor n (rs[n]?).join) s
  s.setRegN 0x49110 s.hottest

/-- Clusters that a sensor governs. -/
def governed (n : Nat) : List Nat := (List.range 320).filter fun c => sensorOf c == n

/-- THROTTLE_STEP: 20 µs at or above THROTTLE lower the limit of the sensor's clusters (R386). -/
def State.throttleStep (s : State) (n : Nat) : State :=
  if s.throttled n then
    (governed n).foldl (fun t c => t.setIsland c { t.island c with thermal := (t.island c).thermal - 1 }) s
  else s

/-- THROTTLE_RELEASE_STEP: 1 ms at or below THROTTLE − HYST raises it again. -/
def State.throttleRelease (s : State) (n : Nat) : State :=
  if !s.sensorFailed n
      && decide (s.tempOf n ≤ 4 * ((s.regF 0x49100 0 8 : Int) - (s.regF 0x49104 0 4 : Int))) then
    (governed n).foldl (fun t c => t.setIsland c { t.island c with thermal := min 15 ((t.island c).thermal + 1) }) s
  else s

/-! ## The ladder (R381) -/

/-- No core of the cluster holds a tile or a slug and its compositor has no sliver. -/
def State.islandIdle (s : State) (c : Nat) : Bool :=
  (s.cores.filter fun p => p.1 / 256 == c).all fun p =>
    p.2.work.isEmpty && p.2.tile.isNone && p.2.slugs.isEmpty && p.2.formes.isEmpty

def State.deepest (s : State) (c : Nat) : Nat := s.regF (clusterBase c + 0x2108) 0 2

/-- ISLAND_STILL_ENTRY: idle for STILL_AFTER µs without an access of its store. -/
def State.stillEntry (s : State) (c : Nat) : State :=
  if s.ladder c = 0 ∧ s.islandIdle c ∧ (s.waiting c).isEmpty ∧ s.deepest c ≠ 0 then
    s.setRegF (clusterBase c + 0x2104) 0 3 2
  else s

/-- ISLAND_KEEP_ENTRY. -/
def State.keepEntry (s : State) (c : Nat) : State :=
  if s.ladder c = 2 ∧ s.deepest c = 2 then s.setRegF (clusterBase c + 0x2104) 0 3 3 else s

/-- On return to run from keep a bank resumes its requested state (R381). -/
def State.resumeBank (s : State) (c bank : Nat) : State :=
  let k := bankKey c bank
  match s.wanted c bank, s.bank k with
  | 0, .keep => s.setBank k .on
  | 1, .on => s.setBank k .keep
  | w, _ => s.bankTo c bank w

/-- The island returns to run for a sliver or an access; no island wakes in isolation (R310). Island keep has held
every bank at retention. -/
def State.wakeIsland (s : State) (c : Nat) : State :=
  if s.asleep c ∧ !s.mute then
    let kept := s.ladder c == 3
    let s := s.setRegF (clusterBase c + 0x2104) 0 3 0
    if kept then (List.range 48).foldl (fun t b => t.resumeBank c b) s else s
  else s

/-! ## The health monitor (R397 to R400) -/

/-- Spare lanes in use and lanes whose SPR is in use, over all ports. -/
def State.spareLevel (s : State) : Nat :=
  (List.range 32).foldl
    (fun x p => x + s.sprUsed p 0x110 + s.sprUsed p 0x140 + b2n (s.spareIn p 0x110 % 64 != 0x3F)
      + b2n (s.spareIn p 0x140 % 64 != 0x3F)) 0

/-- The margin to THROTTLE in 0.25 °C. -/
def State.margin (s : State) : Int :=
  let v := s.regF 0x49110 0 11
  4 * (s.regF 0x49100 0 8 : Int) - (if v < 1024 then (v : Int) else (v : Int) - 2048)

def State.scores (s : State) : List Nat :=
  let k0 := s.regN 0x4C108
  [ min 255 (s.health.ce * fld k0 0 8), min 255 (s.health.retrain * fld k0 8 8),
    min 255 (s.spareLevel * fld k0 16 8), min 255 (s.health.droop * fld k0 24 8),
    min 255 ((80 - s.margin).toNat * 13 / 4), min 255 (s.regF 0x481F8 16 16 / 16),
    min 255 (s.health.replay * s.regF 0x4C10C 0 8) ]

/-- Is a threshold armed again? -/
def rearmed (armed : Bool) (risk thr hyst : Nat) : Bool :=
  armed || (if hyst ≤ thr then decide (risk < thr - hyst) else decide (risk = 0))

/-- An automatic securing is refused with a cause (R400). -/
def State.autoFail (s : State) (cause : Nat) : State := (s.healthCapture cause 0 0 none).raise pgHealth 8

/-- A template is read and placed ahead of its queue's ring; `true` when it was placed. A template that cannot be read
starts no securing. -/
def State.placeTemplate (s : State) (v : HubView) : State × Bool :=
  let q := s.regF 0x4C114 4 4
  let addr := s.regN 0x4C118 + 2 ^ 32 * s.regN 0x4C11C
  let s := s.viewReads v 15 15 addr 64 0
  let d : Desc := BitVec.ofNat 512 (ofLE (viewBytes v addr 64))
  match viewRange v addr 64 with
  | .ok =>
    if d.opcode ≠ opSecureState then (s.autoFail 8, false)
    else if s.securing.isSome || (s.queue q).st != .run then (s.autoFail 9, false)
    else (s.setQueue q { s.queue q with ahead := some d }, true)
  | _ => (s.autoFail 9, false)

/-- HEALTH_EVALUATION: the monitor goes on in isolation, where no template can be read. -/
def State.healthEvaluate (s : State) (v : HubView) : State :=
  if s.stopped then s
  else
    let sc := s.scores
    let w := sc.zipIdx.map fun p => p.1 * s.regF 0x4C104 (4 * p.2) 4
    let raw := min 255 (w.foldl (· + ·) 0 / 8)
    let thr := s.regN 0x4C110
    let old := s.regF 0x4C100 0 8
    let risk := max raw (old - fld thr 24 8)
    let best := (w.zipIdx.foldl (fun (b : Nat × Nat) p => if b.1 < p.1 then p else b) ((w[0]?).getD 0, 0)).2
    let crosses (t : Nat) : Bool := decide (old < t) && decide (t ≤ risk)
    let alert := s.health.alertArmed && crosses (fld thr 0 8)
    let secure := s.health.secureArmed && crosses (fld thr 8 8)
    let s := s.setRegN 0x4C100 (risk + max risk (s.regF 0x4C100 8 8) * 2 ^ 8 + 2 ^ 16 * best)
    let b (i : Nat) : Nat := (sc[i]?).getD 0
    let s := (s.setRegN 0x4C120 (b 0 + b 1 * 2 ^ 8 + 2 ^ 16 * b 2 + 2 ^ 24 * b 3)).setRegN 0x4C124
      (b 4 + b 5 * 2 ^ 8 + 2 ^ 16 * b 6)
    let s : State := { s with health := { s.health with
      ce := 0, retrain := 0, droop := 0, replay := 0
      alertArmed := rearmed (s.health.alertArmed && !alert) risk (fld thr 0 8) (fld thr 16 8)
      secureArmed := rearmed (s.health.secureArmed && !secure) risk (fld thr 8 8) (fld thr 16 8) } }
    let s := if alert || secure then s.raise pgHealth (b2n alert + 2 * b2n secure) else s
    if secure && bit (s.regN 0x4C114) 0 && s.shut == .none then
      if s.onDuty then (s.placeTemplate v).1 else s.autoFail 9
    else s

/-! ## The meanings of the commands -/

def execThermalSample (readings : List (Option Int)) (s : State) : Outcome := .next (s.thermalSample readings)

def execThrottleStep (sensor : Fin 64) (s : State) : Outcome := .next (s.throttleStep sensor.val)

def execThrottleReleaseStep (sensor : Fin 64) (s : State) : Outcome := .next (s.throttleRelease sensor.val)

def execSensorTimeout (sensor : Fin 64) (s : State) : Outcome := .next (s.failSensor sensor.val)

def execHealthEvaluation (view : HubView) (s : State) : Outcome := .next (s.healthEvaluate view)

def execIslandStillEntry (cluster : Fin 320) (s : State) : Outcome := .next (s.stillEntry cluster.val)

def execIslandKeepEntry (cluster : Fin 320) (s : State) : Outcome := .next (s.keepEntry cluster.val)

def execIslandWake (cluster : Fin 320) (s : State) : Outcome := .next (s.wakeIsland cluster.val)

end Sys2Proof.Machine
end

