-- ==== Sys2Proof/Machine/Audit.lean ====
section
/-!
DEFINITION. The audit log (R457 to R459), the protection table (R452, R453), the end of tasks by command (R455),
and the self-tests and services of the cryptographic boundary (R445 to R451).
-/

namespace Sys2Proof.Machine

/-! ## The audit log (R458, R459) -/

def State.auditWritten (s : State) : Word := s.reg 0x5510C
def State.auditSize (s : State) : Nat := 2 ^ s.regF 0x55108 0 5
def State.auditBase (s : State) : Nat := s.regN 0x55100 + 2 ^ 32 * s.regN 0x55104
def State.unread (s : State) : Nat := (s.auditWritten - s.reg 0x55110).toNat

/-- The log can take a record. -/
def State.auditRoom (s : State) : Bool :=
  decide (s.unread + 1 ≤ s.auditSize) && (s.audit.configured || decide (s.audit.held.length < 16))

/-- The 128 bytes of a record. -/
def auditRecord (seq now kind priv port arg : Nat) (data : List Byte) : List Byte :=
  toLE 4 seq ++ toLE 8 now ++ toLE 1 kind ++ toLE 1 priv ++ toLE 1 port ++ zeros 1 ++ toLE 4 arg ++ zeros 12
    ++ fitBytes 96 data

def State.postRecord (s : State) (seq : Nat) (r : List Byte) : State :=
  s.writeMem 15 15 (s.auditBase + 128 * (seq % s.auditSize)) r .block

/-- A record is appended and chained; without room it takes the place of the oldest one, and OVERRUN is set. -/
def State.audited (s : State) (kind priv port arg : Nat) (data : List Byte) : State :=
  let full := !s.auditRoom
  let unread := s.unread
  let seq := s.auditWritten
  let r := auditRecord seq.toNat s.time.now kind priv port arg data
  let s := (s.setReg 0x5510C (seq + 1))
  let s : State := { s with audit := { s.audit with head := sha384 (s.audit.head ++ r) } }
  let s := if s.audit.configured then s.postRecord seq.toNat r
    else
      let held := if s.audit.held.length < 16 then s.audit.held else s.audit.held.drop 1
      { s with audit := { s.audit with held := held ++ [r] } }
  let s := if full then s.raise pgAudit 2 else s
  if 3 * s.auditSize ≤ 4 * (unread + 1) then s.raise pgAudit 1 else s

/-- The write of RING_SIZE that configures the ring: held records go out first. -/
def State.configureAudit (s : State) (priv port : Nat) : State :=
  let held := s.audit.held
  let s := held.foldl (fun t r => t.postRecord (ofLE (r.take 4)) r) s
  let s : State := { s with audit := { s.audit with held := [], configured := true } }
  s.audited 0x0B priv port 0 (toLE 8 s.auditBase)

/-! ## The protection table (R452, R453) -/

def ProtEntry.words (e : ProtEntry) : List Word := [e.scope, e.jobs, e.baseLo, e.baseHi, e.pages, e.rights]

def ProtEntry.image (e : ProtEntry) : List Byte := e.words.flatMap (fun w => toLE 4 w.toNat) ++ zeros 8

/-- PROT_MEAS of the adopted table. -/
def State.protMeas (s : State) : List Byte := sha384 ((List.range 256).flatMap fun e => (s.protEntry e).image)

/-- The entry that the N registers hold. -/
def State.newEntry (s : State) : ProtEntry :=
  let r (i : Nat) : Word := s.reg (0x56120 + 4 * i)
  ⟨r 0, r 1, r 2, r 3, r 4, r 5⟩

def State.applyRefused (s : State) (v : Nat) : Bool := fld v 16 16 != s.regF 0x56144 0 16 || !s.auditRoom

/-- An accepted APPLY. -/
def State.applyEntry (s : State) (v priv port : Nat) : State :=
  let e := s.newEntry
  let i := fld v 0 8
  let s := s.audited 1 priv port i e.image
  let s : State := { s with prot := SMap.putD s.prot i e ProtEntry.zero }
  (s.incReg 0x56144).raise pgProt 1

/-- TASK_END naming a task with a descriptor in flight is refused. -/
def State.taskEndRefused (s : State) (v : Nat) : Bool := s.taskRuns (fld v 0 4) (fld v 16 16)

/-- END_DARK of the task that software ends: as its last acceptance found it. -/
def State.endNamed (s : State) (v : Nat) : State :=
  let q := fld v 0 4
  let job := fld v 16 16
  match (s.queue q).tasks.find? (·.job == job) with
  | some x => s.endTask q job x.dark
  | none => s.endTask q job (((s.taskEntry q job).map (·.endDark)).getD false)

/-! ## Self-tests (R446) -/

/-- A test of the boundary fails: its error state, the record, and the die's failure under R396. -/
def State.selfTestFailed (s : State) (cause test : Nat) : State :=
  let s : State := { s with sec := { s.sec with error := true, testOk := false } }
  let s := (s.capture pgSec cause (if cause = 2 then [w32 test] else [])).raise pgSec 2
  (s.audited 0x0A 0 0xFF test []).controlLost

def State.selfTest (s : State) (r : SelfTestResult) : State :=
  match r with
  | .pass => { s with sec := { s.sec with testOk := true } }
  | .fail n => s.selfTestFailed 2 n
  | .entropy n => s.selfTestFailed 3 n

/-- A continuous entropy health test fails; the record's test number is not given and is free (log entry 3). -/
def State.entropyFailed (s : State) : State :=
  let (w, s) := s.freshWord
  s.selfTestFailed 3 w.toNat

/-- A new key-agreement key pair. -/
def State.newKeyPair (s : State) : State :=
  let (k, s) := s.draw 48
  { s with sec := { s.sec with kaPriv := k } }

/-! ## Attestation (R447, R448) -/

/-- NUM_MODE as it reads (R123). -/
def State.numModeWord (s : State) : Nat := s.regF 0x1180 0 1 + 256 * b2n s.rescueActive

def State.configMeas (s : State) : List Byte :=
  sha384 (toLE 4 s.numModeWord
    ++ ([0x7F100, 0x4E100, 0x4D010, 0x48104, 0x49100] ++ (List.range 16).map (queueKey · 0x140)).flatMap
        fun k => toLE 4 (s.regN k))

def State.secServiceState (s : State) : Nat :=
  s.admitSt + 8 * s.regF 0x7F100 0 1 + 16 * b2n s.sec.session + 32 * b2n s.fuses.ownerHash.isSome

/-- Fused SVN_MIN count and the running image's SVN. -/
def State.svnWord (s : State) : Nat := s.sec.svn % 65536 + s.fuses.svnMin % 65536 * 65536

/-- The imprint record. -/
def State.imprint (s : State) (nonce : List Byte) : List Byte :=
  toLE 2 1 ++ toLE 2 0x190 ++ toLE 8 s.fuses.serial.toNat ++ toLE 4 0x0C800201 ++ toLE 4 s.svnWord
    ++ toLE 4 (s.regN 0x40108) ++ toLE 4 s.secServiceState ++ zeros 4 ++ fitBytes 48 nonce
    ++ toLE 8 s.time.now ++ fitBytes 48 s.sec.ucodeMeas ++ s.configMeas ++ s.protMeas
    ++ fitBytes 48 s.audit.head ++ toLE 4 s.auditWritten.toNat ++ zeros 4
    ++ fitBytes 96 (kaPublic s.sec.kaPriv) ++ zeros 16

/-! ## Services (R450, R451) -/

/-- Bytes `n` of MBOX from byte `o`. -/
def State.mboxBytes (s : State) (o n : Nat) : List Byte :=
  (((List.range 128).flatMap fun w => toLE 4 (s.regN (0x54400 + 4 * w))).drop o).take n

def State.mbox (s : State) (w : Nat) : Nat := s.regN (0x54400 + 4 * w)

/-- MBOX holds an output; its other words are clear. -/
def State.putMbox (s : State) (d : List Byte) : State :=
  (List.range 128).foldl
    (fun t w => t.setRegN (0x54400 + 4 * w) (ofLE ((fitBytes 512 d).drop (4 * w) |>.take 4))) s

/-- What a service comes to: its result, output and the state. -/
structure Service where
  st     : State
  result : Nat := 0
  out    : List Byte := []
  /-- The audit log had no room (R459). -/
  full   : Bool := false

/-- Levels at which a service may be called. -/
def serviceLevel (code priv : Nat) : Bool :=
  match code with
  | 1 | 9 => priv == 0 || priv == 1
  | 2 | 3 => priv == 1
  | _ => priv == 0

def serviceSession (code : Nat) : Bool := code == 7 || code == 11 || code == 12

/-- A change that needs an audit record; without room it is refused, with a RESULT that the spec does not give
(log entry 3). -/
def Service.logged (s : State) (kind priv port arg : Nat) (data : List Byte) (f : State → Service) : Service :=
  if s.auditRoom then f (s.audited kind priv port arg data)
  else
    let (w, s) := s.freshWord
    { st := s, result := w.toNat % 256, full := true }

/-- Volatile values of R441 are cleared, and a new key-agreement key pair is made. -/
def State.zeroise (s : State) : State :=
  ({ s with sec := { s.sec with keys := [], kaPriv := [], challenge := none, session := false } } : State).instantiate.newKeyPair

/-- CO_LOGIN: the key's hash is OWNER_HASH and the signature verifies against the latest challenge. -/
def State.loginOk (s : State) : Bool :=
  let key := s.mboxBytes 0 96
  match s.sec.challenge, s.fuses.ownerHash with
  | some ch, some h =>
    sha384 key == h && ecdsaVerify key (sha384 (ch ++ toLE 8 s.fuses.serial.toNat)) (s.mboxBytes 96 96)
  | _, _ => false

/-- RANDOM (R450). -/
def State.serveRandom (s : State) : Service :=
  let n := s.mbox 0
  if n = 0 ∨ 512 < n then { st := s, result := 4 } else { st := (s.draw n).2, out := (s.draw n).1 }

/-- ATTEST (R450): the record and its signature, whose per-signature secret is the generator's next draw (R445). -/
def State.serveAttest (s : State) : Service :=
  if s.fuses.killed then { st := s, result := 3 }
  else
    let rec_ := s.imprint (s.mboxBytes 0 48)
    { st := (s.draw 48).2.incReg 0x5411C
      out := rec_ ++ fitBytes 96 (ecdsaSign s.fuses.identity (sha384 rec_) (s.draw 48).1) }

/-- CO_CHALLENGE (R450). -/
def State.serveChallenge (s : State) : Service :=
  let t := (s.draw 48).2
  { st := { t with sec := { t.sec with challenge := some (s.draw 48).1 } }, out := (s.draw 48).1 }

/-- CO_LOGIN (R450). -/
def State.serveLogin (s : State) (priv port : Nat) : Service :=
  if 8 ≤ s.sec.failed then { st := s, result := 3 }
  else
    let ok := s.loginOk
    Service.logged s 7 priv port (b2n ok) [] fun t =>
      if ok then { st := { t with sec := { t.sec with challenge := none, session := true } } }
      else { st := { t with sec := { t.sec with challenge := none, failed := t.sec.failed + 1 } }, result := 5 }

/-- LOAD_KEY (R450). -/
def State.serveLoadKey (s : State) (priv port : Nat) : Service :=
  let slot := s.mbox 0
  let eph := s.mboxBytes 4 96
  if 15 < slot then { st := s, result := 4 }
  else
    match unwrapKey s.sec.kaPriv eph slot s.fuses.serial.toNat (s.mboxBytes 100 40) with
    | none => { st := s, result := 7 }
    | some k =>
      Service.logged s 4 priv port slot (sha384 eph) fun t =>
        { st := { t with sec := { t.sec with keys := SMap.put t.sec.keys slot (fitBytes 32 k) } } }

/-- CLEAR_KEY (R450). -/
def State.serveClearKey (s : State) (priv port : Nat) : Service :=
  let slot := s.mbox 0
  if 15 < slot then { st := s, result := 4 }
  else
    Service.logged s 5 priv port slot [] fun t =>
      { st := { t with sec := { t.sec with keys := SMap.del t.sec.keys slot } } }

/-- FUSE_OWNER blows OWNER_HASH, once (R450). -/
def State.serveFuseOwner (s : State) (priv port : Nat) : Service :=
  if s.fuses.ownerHash.isSome then { st := s, result := 8 }
  else
    let h := s.mboxBytes 0 48
    Service.logged s 9 priv port 1 h fun t => { st := { t with fuses := { t.fuses with ownerHash := some h } } }

/-- SVN_MIN with the first `n` fuses of the thermometer code blown. -/
def Fuses.raiseSvn (f : Fuses) (n : Nat) : Fuses :=
  { f with svnFuses := f.svnFuses ||| BitVec.ofNat 64 (2 ^ min n 64 - 1) }

/-- RAISE_SVN (R450) blows SVN_MIN up to the running image's SVN. -/
def State.serveRaiseSvn (s : State) (priv port : Nat) : Service :=
  let f := s.fuses.raiseSvn s.sec.svn
  Service.logged s 9 priv port 2 (toLE 4 f.svnMin) fun t => { st := { t with fuses := t.fuses.raiseSvn s.sec.svn } }

/-- KILL (R450). -/
def State.serveKill (s : State) (priv port : Nat) : Service :=
  if s.mbox 0 ≠ 0x4B494C4C then { st := s, result := 4 }
  else Service.logged s 9 priv port 3 [] fun t => { st := { t with fuses := { t.fuses with killed := true } } }

/-- One service by its code, its checks of R450 apart. -/
def State.serve (s : State) (code priv port : Nat) (r : SelfTestResult) : Service :=
  match code with
  | 1 => { st := s.selfTest r, result := if (s.selfTest r).sec.error then 3 else 0 }
  | 2 => s.serveRandom
  | 3 => s.serveAttest
  | 4 => s.serveChallenge
  | 5 => s.serveLogin priv port
  | 6 => Service.logged s 8 priv port 0 [] fun t => { st := { t with sec := { t.sec with session := false } } }
  | 7 => s.serveLoadKey priv port
  | 8 => s.serveClearKey priv port
  | 9 =>
    if priv = 1 then { st := (s.audited 6 priv port 0 []).zeroise }
    else Service.logged s 6 priv port 0 [] fun t => { st := t.zeroise }
  | 10 => s.serveFuseOwner priv port
  | 11 => s.serveRaiseSvn priv port
  | 12 => s.serveKill priv port
  | _ => { st := s, result := 4 }

/-- A write of CMD runs a service to its end: level, error state, session, input; then RESULT, MBOX and DONE. -/
def State.secCommand (s : State) (v priv port : Nat) (r : SelfTestResult) : State :=
  let code := fld v 0 8
  let x : Service :=
    if code = 0 ∨ 12 < code then { st := s, result := 4 }
    else if !serviceLevel code priv then { st := s, result := 1 }
    else if s.sec.error then { st := s, result := 3 }
    else if serviceSession code && !s.sec.session then { st := s, result := 2 }
    else s.serve code priv port r
  let t := x.st.putMbox x.out
  let t := if x.full then t.capture pgSec 1 [w32 code]
    else if x.result = 5 then t.capture pgSec 4 []
    else if x.result = 0 ∨ x.result = 7 then t
    else t.capture pgSec 1 [w32 code]
  (t.setRegN 0x54104 (x.result % 256 * 256 + x.out.length * 65536)).raise pgSec 1

/-- SEC_STATE. -/
def State.secState (s : State) : Nat :=
  b2n s.sec.testOk + 2 * b2n s.sec.error + 4 * b2n s.sec.session + 8 * b2n s.fuses.ownerHash.isSome
    + 16 * b2n s.fuses.killed
    + (List.range 16).foldl (fun x k => x + if (SMap.find s.sec.keys k).isSome then 2 ^ (8 + k) else 0) 0
    + 2 ^ 24 * min 8 s.sec.failed

def execEntropyHealthTestFailure (s : State) : Outcome := .next s.entropyFailed

end Sys2Proof.Machine
end

