-- ==== Sys2Proof/Machine/Commit.lean ====
section
/-!
DEFINITION. Shadows and commits: page commits (R347, R348), die-wide commits (R352), and the adoption of a page
(R349) with the checks of handle entries (R227, R231, R234) and of dark requests (R382).
-/

namespace Sys2Proof.Machine

/-! ## Requests -/

/-- A cluster page's adoption waits for the descriptors accepted before the request (R349). -/
def State.holdCommit (s : State) (base : Nat) : State :=
  if 0x1000000 ≤ base then
    ({ s with commitHold := SMap.put s.commitHold base (s.ops.map (·.id)) } : State).commitMoments
  else s

/-- A write of COMMIT 1: refused, or the page is pending (R348). -/
def State.pageCommitRefused (s : State) (p : Page) : Bool :=
  s.pagePending p || bit (s.regN (p.base + 0x44)) 2

def State.requestCommit (s : State) (p : Page) : State :=
  (s.setRegF (p.base + 0x40) 16 1 1).holdCommit p.base

/-- Drop a page's shadows that differ from the adopted copy. -/
def State.dropShadows (s : State) (base : Nat) : State :=
  { s with shad := SMap.dropRange s.shad base (base + 0x1000) }

/-- An accepted write of SHADOW_CTRL: DISCARD, then JOIN (R347). -/
def State.shadowCtrl (s : State) (p : Page) (v : Nat) : State :=
  let s := if bit v 1 then (s.dropShadows p.base).setRegF (p.base + 0x44) 0 1 0 else s
  if s.pagePending p then s else s.setRegF (p.base + 0x44) 2 1 (v / 4)

/-- The common cause that refuses a write of SHADOW_CTRL, if any (R348). -/
def State.shadowCtrlRefused (s : State) (p : Page) (v : Nat) : Option Nat :=
  if !s.pagePending p then none
  else if bit v 1 then some 0xE3
  else if bit v 2 != bit (s.regN (p.base + 0x44)) 2 then some 0xE6
  else none

/-- A write of an RS field (R347): the shadow, and DIRTY. -/
def State.writeShadow (s : State) (p : Page) (key : Nat) (v : Word) : State :=
  (s.setShadow key v).setRegF (p.base + 0x44) 0 1 1

/-- Bases of the pages whose JOIN is 1. -/
def State.joined (s : State) : List Nat :=
  s.regs.filterMap fun p => if p.1 % 0x1000 = 0x44 ∧ bit p.2.toNat 2 = true then some (p.1 - 0x44) else none

/-- NUMBER, MIXED and LAG of DIE.EPOCH (R352). -/
def State.setEpoch (s : State) (number lag : Nat) : State :=
  s.setRegN 0x104 (number % 2 ^ 16 + 2 ^ 16 * b2n (decide (0 < lag)) + lag % 2 ^ 12 * 2 ^ 20)

/-- The die-wide commit is mixed. -/
def State.mixed (s : State) : Bool := bit (s.regN 0x104) 16

/-- An accepted die-wide commit (R352). -/
def State.dieCommit (s : State) : State :=
  let l := s.joined
  let s := l.foldl (fun (t : State) b => ((t.setRegF (b + 0x44) 2 1 0).setRegF (b + 0x44) 3 1 1).holdCommit b) s
  s.setEpoch (s.regF 0x104 0 16 + 1) l.length

/-! ## Adoption of handle entries (R227) -/

/-- Words of a handle's entry in the shadow copy, or as adopted. -/
def State.shadowWords (s : State) (c h : Nat) : List Word := (List.range 7).map fun i => s.shadow (handleKey c h i)
def State.entryWords (s : State) (c h : Nat) : List Word := (List.range 7).map fun i => s.reg (handleKey c h i)

/-- An entry's words without the fields that a commit under an open window may change: `power` drops POWER
too, and TIMEOUT is always dropped. -/
def entryKernel (power : Bool) (l : List Word) : List Nat :=
  (List.range 7).map fun i =>
    let w := ((l[i]?).getD 0).toNat
    if i = 0 ∧ power = true then w % 2 ^ 30 else if i = 4 then w / 2 ^ 24 else w

def handleOfWords (l : List Word) : Handle :=
  let w (i : Nat) : Nat := ((l[i]?).getD 0).toNat
  Handle.ofWords (w 0) (w 1) (w 2) (w 3) (w 4)

/-- The checks of R227 on a new entry. -/
def State.entryRefused (s : State) (c h : Nat) (new : List Word) : Bool :=
  let e := handleOfWords new
  decide (48 < e.base + e.count * (1 + b2n e.twin))
    || decide (e.count * (512 - e.row) < ceilDiv e.extent 64)
    || (e.planeEn && decide (e.extent ≤ e.planeOff))
    || (e.winEn && (List.range 64).any fun g =>
          let f := s.handle c g
          g != h && f.winEn && f.winCtr == e.winCtr)
    || (s.windowOpen c h && entryKernel true new != entryKernel true (s.entryWords c h))

/-- The entry is adopted: generations (R231), owner (R234). -/
def State.adoptEntry (s : State) (c h : Nat) (new : List Word) : State :=
  let was := s.entryWords c h
  let old := handleOfWords was
  let e := handleOfWords new
  let s := (List.range 7).foldl
    (fun (t : State) i =>
      ({ t with shad := SMap.del t.shad (handleKey c h i) } : State).setReg (handleKey c h i) ((new[i]?).getD 0)) s
  let s := if entryKernel false new != entryKernel false was then s.bumpGen c h else s
  let s := if e.power = 2 ∧ old.power ≠ 2 ∧ e.count ≠ 0 then s.bumpGen c h else s
  if (e.base, e.count, e.row, e.twin, e.fmt) ≠ (old.base, old.count, old.row, old.twin, old.fmt) then s.clearOwner c h
  else s

/-- One entry of a commit: adopted or refused. -/
def State.adoptHandle (s : State) (c h : Nat) : State :=
  let new := s.shadowWords c h
  if new = s.entryWords c h then s
  else if s.entryRefused c h new then
    (s.capture (pgStore c) 8 [w32 (h * 2097152 + 134217728)]).noteRefusal (pgStore c)
  else s.adoptEntry c h new

/-! ## Adoption of a page (R349) -/

/-- Every shadow of the page becomes the adopted value. -/
def State.copyShadows (s : State) (base : Nat) : State :=
  let l := s.shad.filter fun p => decide (base ≤ p.1) && decide (p.1 < base + 0x1000)
  (l.foldl (fun (t : State) p => t.setReg p.1 (s.shadow p.1)) s).dropShadows base

/-- LADDER_CTRL of a cluster island (R382). -/
def State.adoptLadder (s : State) (c : Nat) : State :=
  let key := clusterBase c + 0x2108
  let new := s.shadow key
  let dark := bit new.toNat 24
  let was := bit (s.regN key) 24
  let open_ := s.regN (clusterBase c + 0x1108) != 0 || s.regN (clusterBase c + 0x110C) != 0
  if dark && !was && open_ then
    ((s.setReg key (w32 (putFld new.toNat 24 1 0))).capture (pgIsland c) 1 [w32 0x108]).noteRefusal (pgIsland c)
  else
    let t := s.copyShadows (clusterBase c + 0x2000)
    if dark && !was then
      let t := t.setIsland c { t.island c with
        darkening := true, darkHandles := (t.placed c).filter fun h => t.losesBank c h }
      (t.retarget c s).finishDark c
    else if was && !dark then
      let t := t.setIsland c { t.island c with darkening := false, darkHandles := [] }
      (if s.ladder c = 4 then t.setRegN (clusterBase c + 0x2104) 0 else t).retarget c s
    else t

/-- What a page's adoption does to its registers. -/
def State.adoptPage (s : State) (p : Page) : State :=
  match p.kind with
  | .store =>
    let t := (List.range 64).foldl (fun (u : State) h => u.adoptHandle p.inst h) s
    let ctrl := p.base + 0x100
    let t := ({ t with shad := SMap.del t.shad ctrl } : State).setReg ctrl (s.shadow ctrl)
    t.retarget p.inst s
  | .comp => (s.copyShadows p.base).retarget p.inst s
  | .island => s.adoptLadder p.inst
  | _ => s.copyShadows p.base

/-- Adoption: the shadows, EPOCH, and the end of COMMIT, PEND_DIE and DIRTY (R348, R352). -/
def State.adopt (s : State) (p : Page) : State :=
  let die := bit (s.regN (p.base + 0x44)) 3
  let s := s.adoptPage p
  let s := s.setRegN (p.base + 0x40) ((s.regF (p.base + 0x40) 0 16 + 1) % 2 ^ 16)
  let s := (s.setRegF (p.base + 0x44) 0 1 0).setRegF (p.base + 0x44) 3 1 0
  let s : State := { s with commitHold := SMap.del s.commitHold p.base }
  if die then s.setEpoch (s.regF 0x104 0 16) (s.regF 0x104 20 12 - 1) else s

/-- COMMIT_ADOPTION: a pending page adopts, at the moment of R349; a stop overrides every pending commit (R392). -/
def State.commitAdoption (s : State) (base : Nat) : State :=
  match pageAt base with
  | some p =>
    if s.stopped = false ∧ p.base = base ∧ s.pagePending p = true ∧ SMap.getD s.commitHold base [] = [] then s.adopt p else s
  | none => s

def execCommitAdoption (page : BitVec 28) (s : State) : Outcome := .next (s.commitAdoption page.toNat)

end Sys2Proof.Machine
end

