-- ==== Sys2Proof/Machine/Sideband.lean ====
section
/-!
DEFINITION. The side-band endpoint (R301 to R304) and the test access port (R305).
-/

namespace Sys2Proof.Machine

/-- Start-up runs its step `n`: it has not failed, and no stop has overridden it (R468, R477). -/
def State.inStep (s : State) (n : Nat) : Bool := s.bootStep == n && !s.bootFailed && !s.stopped

/-- The endpoint answers: step 1 of start-up has ended (R301, R462). -/
def State.contact (s : State) : State := if s.inStep 1 then s.nextStep 1 else s

/-- Step 2 ends once SB_UCODE_LO and SB_UCODE_HI have been written (R462). -/
def State.contactEnds (s : State) : State :=
  if s.inStep 2 && s.sb.wroteLo && s.sb.wroteHi then s.nextStep 2 else s

/-- A private write of index 03h or 04h (R302). -/
def State.sbUcode (s : State) (hi : Bool) (v : Word) : State :=
  let s := s.contact
  let b := s.sb
  let b := if hi then { b with ucodeHi := w32 (fld v.toNat 0 20), wroteHi := true }
    else { b with ucodeLo := v, wroteLo := true }
  ({ s with sb := b } : State).contactEnds

/-- Package address of the microcode image. -/
def State.ucodeAddr (s : State) : Nat := s.sb.ucodeLo.toNat + 2 ^ 32 * s.sb.ucodeHi.toNat

def State.setDynAddr (s : State) (a : Option (BitVec 7)) : State :=
  let s := s.contact
  { s with sb := { s.sb with dynAddr := a } }

def State.enableIbi (s : State) (b : Bool) : State :=
  let s := s.contact
  { s with sb := { s.sb with ibi := b } }

/-- What the endpoint returns to a GET command. -/
def State.sbReply (s : State) (l : List Byte) : State :=
  let s := s.contact
  { s with sb := { s.sb with replies := s.sb.replies ++ [l] } }

/-- The 48-bit provisional ID, most significant byte first. -/
def provisionalId : Nat := 2 ^ 33 * Config.mipiCode.toNat + 0x0C80 * 2 ^ 16 + 2 * 2 ^ 12 + 1

/-- GETSTATUS returns two bytes whose contents the spec does not give; they are free (log entry 3). -/
def State.sbStatus (s : State) : State :=
  let (l, s) := State.freshBytes 2 s
  s.sbReply l

def State.configureRst (s : State) (action : Byte) : State :=
  let s := s.contact
  { s with sb := { s.sb with rstact := action } }

/-- SB_STATE. -/
def State.sbState (s : State) : Nat :=
  s.bootStep + s.admitSt * 2 ^ 4 + s.regF 0x40104 0 8 * 2 ^ 8 + 2 ^ 16 * b2n (decide (s.regF 0x4910C 0 2 ≠ 0))
    + 2 ^ 17 * s.regF 0x4910C 2 1 + 2 ^ 18 * b2n s.sb.bootFailed

/-- What a private read of an index returns (R302); the table of commands has no row for one. -/
def State.sbRead (s : State) (i : Nat) : Nat :=
  if i = 0 then 0x0C800201
  else if i = 1 then s.sbState
  else if i = 3 then s.sb.ucodeLo.toNat
  else if i = 4 then s.sb.ucodeHi.toNat
  else if i = 8 then (if s.stopped then 0 else (s.regF 0x48110 0 16 + 5) / 10)
  else if 0x10 ≤ i ∧ i < 0x20 then
    (List.range 4).foldl
      (fun a k => a + s.regF (0x49200 + 4 * (4 * (i - 16) + k)) 2 8 * 256 ^ k) 0
  else 0

/-- IDCODE of the test access port. -/
def idcode : Nat := 2 * 2 ^ 28 + 0x0C80 * 2 ^ 12 + Config.jedecCode.toNat * 2 + 1

def State.testUnlocked (s : State) : Bool := bit (s.regN 0x7F100) 0

/-- An instruction of the test access port; one that needs the unlock acts as BYPASS without it. -/
def State.tapLoad (s : State) (i : TapInstr) : State :=
  let j := match i with
    | .other n => if s.testUnlocked then .other n else .bypass
    | .bypass => .bypass
    | .idcode => .idcode
    | .extest => .extest
  { s with sb := { s.sb with tap := j } }

/-- Segment of the die wrapper register that a cell stands in (R262, R305). -/
def wrapperSegment (cell : Nat) : Nat := cell / 2438

/-- Cells of the die wrapper register. -/
def wrapperCells : Nat := 78144

/-- What a scan shifts out, least significant bit first: BYPASS is one bit, which starts at 0; EXTEST shifts out what it
captured from the bonds. -/
def scanOut (j : TapInstr) (x : TapScan) : List Bool :=
  match j with
  | .bypass => (false :: x.bits).take x.bits.length
  | .idcode => (List.range 32).map idcode.testBit
  | .extest => (List.range wrapperCells).map x.bonds.contains
  | .other _ => []

/-- The scan that follows an instruction. What an unlocked instruction other than these three reaches, R305 does not
say. -/
def State.tapScan (s : State) (x : TapScan) : State :=
  let b := { s.sb with tapOut := scanOut s.sb.tap x }
  { s with sb := if s.sb.tap = .extest then { b with wrapper := x.cells } else b }

/-! ## The meanings of the commands -/

def execSbUcodeWrite (hi : Bool) (v : Word) (s : State) : Outcome := .next (s.sbUcode hi v)

def execSetdasa (addr : BitVec 7) (s : State) : Outcome := .next (s.setDynAddr (some addr))

def execRstdaa (s : State) : Outcome := .next (s.setDynAddr none)

def execEnec (s : State) : Outcome := .next (s.enableIbi true)

def execDisec (s : State) : Outcome := .next (s.enableIbi false)

def execGetpid (s : State) : Outcome := .next (s.sbReply (toBE 6 provisionalId))

def execGetbcr (s : State) : Outcome := .next (s.sbReply [0x06])

def execGetdcr (s : State) : Outcome := .next (s.sbReply [0x00])

def execGetstatus (s : State) : Outcome := .next s.sbStatus

def execRstact (action : Byte) (s : State) : Outcome := .next (s.configureRst action)

def execTapInstruction (load : TapLoad) (s : State) : Outcome :=
  .next ((s.tapLoad load.instr).tapScan load.scan)

end Sys2Proof.Machine
end

