-- ==== Sys2Proof/Machine/Startup.lean ====
section
/-!
DEFINITION. Resets (R304, R306, R465, R472), the steps of start-up (R462 to R471), the mailbox with island and block
resets and the shutdown (R461, R474 to R476), and the watchdog (R474).
-/

namespace Sys2Proof.Machine

/-! ## Cold and warm resets (R472) -/

/-- A cold reset keeps the fuses. The records of what the die has sent, the waiting commands, the counter of free
values and the number of the next entropy input (log entry 5) are the model's own. -/
def State.coldReset (s : State) : State :=
  { State.reset with
    fuses := s.fuses, out := s.out, free := s.free, pending := s.pending
    sec := { State.reset.sec with seeds := s.sec.seeds }
    sb := { State.reset.sb with ibis := s.sb.ibis, replies := s.sb.replies } }

/-- Register keys that a warm reset keeps: ISO_CAUSE, STOP_CAUSE, the AUDIT page, PROT.GEN and ENERGY_HI as
latched; and DOMAIN_STEP, which says what the domains receive (R38; log entry 78). -/
def warmKept (k : Nat) : Bool :=
  (decide (0x48124 ≤ k) && decide (k ≤ 0x4812C)) || k == 0x40104 || k == 0x4910C || (decide (0x55000 ≤ k) && decide (k < 0x55F00)) || k == 0x56144
    || (decide (0x1000000 ≤ k) && decide (k < 0x1500000) && k % 0x4000 == 0x211C)

/-- Any working sensor above 95 °C after a thermal shutdown (R388). -/
def State.tooHot (s : State) : Bool :=
  s.stopped && bit (s.regN 0x4910C) 2
    && (List.range 64).any fun n => !s.sensorFailed n && decide (380 < s.tempOf n)

/-- The supplies over a warm reset: no rule says what VREQ, VOK and the domains' steps are after one. The model keeps
what each domain receives and its VOK, and requests step 9 under the handshake of R307 where VOK is high (log entry
78). -/
def State.supplyStart (s : State) (d : Nat) : State :=
  if (s.sb.vok[d]?).getD true && (s.sb.vreq[d]?).getD 9 != 9 then
    { s with sb := { s.sb with vreq := setAt s.sb.vreq d 9, vok := setAt s.sb.vok d false } }
  else s

/-- The state that a warm reset leaves, in step 3, or in step 2 while SB_UCODE is still to be written (R465). -/
def State.warmState (s : State) : State :=
  let step := if s.sb.wroteLo && s.sb.wroteHi then 3 else 2
  let r : State := { State.reset with
    regs := s.regs.filter fun p => warmKept p.1
    fuses := s.fuses, prot := s.prot, audit := s.audit
    power := { State.reset.power with energy := s.power.energy }
    sec := { State.reset.sec with failed := s.sec.failed, seeds := s.sec.seeds }
    sb := { s.sb with rstact := 0, tap := .idcode }
    time := { State.reset.time with ref := s.time.ref }
    out := s.out, free := s.free, pending := s.pending }
  let r := ((r.setRegF 0x4C100 8 8 (s.regF 0x4C100 8 8)).setRegN 0x1104 2).setRegF bootKey 0 4 step
  (List.range 20).foldl (fun t d => t.supplyStart d) r

/-- The level at which a reset finds the COOLSTOP bonds. Of a bond that went low before, no command says whether it has
risen again: that is a free value (log entry 21). -/
def State.bondLevel (s : State) : State :=
  if s.sb.bondLow then
    let (w, t) := s.freshWord
    { t with sb := { t.sb with bondLow := w.getLsbD 0 } }
  else s

/-- WARM_RESET (R465): ignored while a COOLSTOP bond is low or the die is too hot (R304, R391). A die that finds the
test regions unlocked records their relock first. -/
def State.warmReset (s : State) : State :=
  let s := s.bondLevel
  if s.sb.bondLow || s.tooHot then s
  else (if s.testUnlocked then s.audited 2 0 0xFF 0 [] else s).warmState

/-- A Target Reset Pattern (R304). -/
def State.resetPattern (s : State) : State :=
  if s.sb.rstact == 1 || s.sb.rstact == 2 then s.warmReset else s

/-! ## Start-up (R462 to R470) -/

/-- Step 3. -/
def State.fuseRead (s : State) (agree : Bool) : State :=
  if s.inStep 3 then (if agree then s.nextStep 3 else s.bootFail 2) else s

/-- Step 4: the DRBG is instantiated, and the self-tests of R446 run, with the key-agreement key pair that they test. -/
def State.stewardBoot (s : State) (r : SelfTestResult) : State :=
  if s.inStep 4 then
    let t := s.instantiate.newKeyPair.selfTest r
    if t.sec.testOk then (t.setRegF 0x40120 0 4 t.time.ref).nextStep 4 else t.bootFail 3
  else s

/-- Step 5 (R466): the continuity check, then the training of ports 0 to 31; the first port that stays DOWN fails
start-up. -/
def State.portsStartup (s : State) (obs : ContObs) : State :=
  if s.inStep 5 then
    let s := (List.range 32).foldl
      (fun t p => t.setRegN (portKey p 0x10C) (((obs.failed.find? fun x => x.1.val == p).map fun x => x.2.toNat).getD 0)) s
    let (s, down) := s.trainAll obs
    match down with
    | some p => s.isolate isoLanes (some p)
    | none => s.nextStep 5
  else s

/-- The reads of the boot ROM leave on port 15. -/
def State.bootReads (s : State) (addr n : Nat) : State :=
  (readStarts addr n).foldl
    (fun t a =>
      let stop := min (addr + n) ((a / 4096 + 1) * 4096)
      t.send { port := 15, op := .rd, tag := (t.nextTag 15 0).getD 0, addr := a, words := ceilDiv (stop - a) 4, srcpos := t.pos }) s

/-- Every read of the range was answered with STATUS 00h (R468 code 05h). -/
def bootOk (v : HubView) (a n : Nat) : Bool := (readStarts a n).all fun x => viewStatus v x 0 == 0

/-- The header of a microcode image is valid (R443, R444). -/
def imageHeaderOk (h : List Byte) : Bool :=
  bytesAt h 0 4 == 0x0C8055C0 && bytesAt h 12 4 % 64 == 0 && decide (bytesAt h 12 4 ≤ 4 * 2 ^ 20)

/-- Step 6 (R444): the image is read and, if all checks hold, runs; the log takes the boot record. -/
def State.microcodeFetch (s : State) (v : HubView) : State :=
  if s.inStep 6 then
    let a := s.ucodeAddr
    let h := viewBytes v a 256
    let s := s.bootReads a 256
    if !bootOk v a 256 || !imageHeaderOk h then s.bootFail 5
    else
      let n := bytesAt h 12 4
      let s := s.bootReads (a + 256) n
      let body := viewBytes v (a + 256) n
      let meas := sha384 (h.take 160 ++ body)
      let key := (h.drop 64).take 96
      if !bootOk v (a + 256) n || sha384 key != s.fuses.rootHash
          || !ecdsaVerify key meas ((h.drop 160).take 96) || decide (bytesAt h 8 4 < s.fuses.svnMin) then
        s.bootFail 5
      else
        let s := s.audited 0 0 0xFF (bytesAt h 8 4) meas
        let s := s.setRegN 0x1108 (bytesAt h 4 4)
        ({ s with sec := { s.sec with svn := bytesAt h 8 4, ucodeMeas := meas } } : State).nextStep 6
  else s

/-- Banks in the states that all-zero handle entries request: on in the staging area, elsewhere keep, or dark under
IDLE_DARK (R255). -/
def State.restingBanks (s : State) : SMap BankSt :=
  (List.range 320).flatMap fun c =>
    let (b, n) := s.staging c
    let st := if bit (s.regN (clusterBase c + 0x1100)) 20 then BankSt.dark else BankSt.keep
    ((List.range 48).filter fun k => !(decide (b ≤ k) && decide (k < b + n))).map fun k => (bankKey c k, st)

/-- Step 7 (R467): repairs, and every bank zero, empty and in the state that zero entries request. -/
def State.storeSelfTest (s : State) (obs : StoreTestObs) : State :=
  if s.inStep 7 then
    if obs.repaired.any fun p => decide (8 < p.2) then s.bootFail 6
    else if obs.coreFail then s.bootFail 7
    else
      let rows := obs.repaired.foldl (fun a p => a + p.2) 0
      let most := obs.repaired.foldl (fun a p => max a p.2) 0
      ({ s with store := [], full := [], banks := s.restingBanks } : State).setRegN 0x110C (rows % 2 ^ 16 + 2 ^ 16 * most)
        |>.nextStep 7
  else s

/-- Registers of a core that the numeric self-test clears (R469): sticky flags, first-exception capture, RESCUE_LOG.
R130 and R469 do not say whether RESCUE_SEQ, which counts the log's records, is cleared with it; the model clears it
(DESIGN CHOICE, log entry 97). -/
def testCleared (k : Nat) : Bool :=
  decide (coreKey 0 0 ≤ k) && (k % 0x1000 == 0x200 || (decide (0x208 ≤ k % 0x1000) && decide (k % 0x1000 ≤ 0x228)))

/-- Step 8 (R469). -/
def State.numericSelfTest (s : State) (agree : Bool) : State :=
  if s.inStep 8 then
    if agree then
      ({ s with cores := [], regs := s.regs.filter fun p => !testCleared p.1 } : State).nextStep 8
    else s.bootFail 8
  else s

/-- Step 9 (R470): the concord values are latched and the die asks for admission. -/
def State.admission (s : State) : State :=
  if s.inStep 9 && s.admitSt == 0 then
    ((s.latchConcord.setRegN 0x4010C 1).sideSignal 0x13 0).raiseIbi 6
  else s

/-! ## Block resets (R475) -/

/-- A block reset is recorded (R460). -/
def State.blockResetDone (s : State) (target : Nat) : State := (s.setRegN 0x1104 (4 + target * 256)).raise pgSteward 4

/-- Error capture and INT_STATUS of a page are cleared. -/
def State.clearCapture (s : State) (base : Nat) : State :=
  (List.range 8).foldl (fun t i => t.setRegN (base + 0x20 + 4 * i) 0) (s.setRegN (base + 0x18) 0)

def State.resetQueue (s : State) (q : Nat) : State :=
  let k := queueKey q
  let s := [0x110, 0x10C, 0x12C, 0x130, 0x48].foldl (fun (t : State) o => t.setRegN (k o) 0) (s.clearCapture (k 0))
  s.blockResetDone q

def State.resetPort (s : State) (p : Nat) : State :=
  let s := (s.clearCapture (portKey p 0)).setRegN (portKey p 0x170) 0
  let s := (s.setRegN (portKey p 0x174) 0).setPort p { s.port p with laneErr := [] }
  (s.retrain p).blockResetDone p

/-! ## The mailbox (R461) -/

/-- A mailbox command that the die's state does not allow (R460 cause 01h). -/
def State.mailboxRefused (s : State) (v : Nat) : State := (s.capture pgSteward 1 [w32 v]).mailboxDone 1

/-- ISLAND_RESET. -/
def State.mbIslandReset (s : State) (v : Nat) : State :=
  let arg := s.regN 0x1204
  if 320 ≤ arg then s.mailboxDone 2
  else if s.islandResetBarred arg then s.mailboxRefused v
  else (s.islandReset arg false false).mailboxDone 0

/-- BLOCK_RESET. -/
def State.mbBlockReset (s : State) (v : Nat) : State :=
  let arg := s.regN 0x1204
  let i := fld arg 0 17
  let kind := fld arg 30 2
  let limit := if kind = 0 then 81920 else if kind = 1 then 16 else if kind = 2 then 32 else 0
  if fld arg 17 13 ≠ 0 ∨ limit ≤ i then s.mailboxDone 2
  else if kind = 0 then (s.resetCore i none false).mailboxDone 0
  else if kind = 1 then
    (if (s.queue i).st = .disabled then (s.resetQueue i).mailboxDone 0 else s.mailboxRefused v)
  else (if (s.port i).train = .up then (s.resetPort i).mailboxDone 0 else s.mailboxRefused v)

/-- SHUTDOWN, step 1 and the template of step 2 (R476). -/
def State.mbShutdown (s : State) (v : Nat) (view : HubView) : State :=
  let arg := s.regN 0x1204
  if 2 ≤ arg then s.mailboxDone 2
  else if s.bootStep ≠ 10 ∨ s.admitSt = 4 ∨ s.admitSt = 5 then s.mailboxRefused v
  else
    let s : State := { s.setRegN mbStatKey 1 with shut := .stopping, shutResult := 0 }
    if arg = 0 then s
    else
      let (t, placed) := s.placeTemplate view
      if placed then { t with shut := .securing } else { t with shutResult := 3 }

/-- The effect of a write of MB_CMD. -/
def State.mailbox (s : State) (v : Nat) (view : HubView) : State :=
  match fld v 0 8 with
  | 1 => s.mbIslandReset v
  | 2 => s.mbBlockReset v
  | 3 => s.mbShutdown v view
  | _ => s.mailboxDone 2

/-! ## The end of a shutdown (R476) -/

/-- Open windows, as (cluster, handle). -/
def State.openList (s : State) : List (Nat × Nat) :=
  s.regs.flatMap fun p =>
    if 0x1000000 ≤ p.1 ∧ p.1 < 0x1500000 ∧ (p.1 % 0x4000 = 0x1108 ∨ p.1 % 0x4000 = 0x110C) then
      (List.range 32).filterMap fun i =>
        if bit p.2.toNat i then some (clusterOf p.1, i + (if p.1 % 0x4000 = 0x110C then 32 else 0)) else none
    else []

/-- No descriptor is in flight or about to be accepted, no replay runs, and no window write waits for its count. -/
def State.shutReady (s : State) : Bool :=
  s.shut == .stopping && s.ops.isEmpty && s.openList.all (fun w => !s.windowBusy w.1 w.2)
    && (match s.replay with | .idle | .stopped => true | _ => false)

/-- Step 3: a queue is disabled. -/
def State.shutQueue (s : State) (q : Nat) : State :=
  let Q := s.queue q
  ((s.setQueue q { Q with st := .disabled, halt := 0, held := none, reading := false, ahead := none }).setRegF
    (queueKey q 0x10) 0 1 0).endAllTasks q

/-- Step 4: a window is closed without waiting for a count. -/
def State.shutWindow (s : State) (c h : Nat) : State :=
  (({ s with closing := setIns s.closing (c * 64 + h) } : State).closeComplete c h)

/-- SHUTDOWN_FINISH: steps 3 to 6. The control island runs on, and the domains are lowered as in R390. -/
def State.shutdownFinish (s : State) : State :=
  if s.shutReady then
    let s := (List.range 16).foldl (fun t q => t.shutQueue q) s
    let s := s.openList.foldl (fun t w => t.shutWindow w.1 w.2) s
    let s := ((List.range 16).foldl (fun t q => t.writeJcbPart q) s).writeJcbHeader
    let s := s.placedList.foldl (fun t w => t.scrub w.1 w.2) s
    let s := s.mapCores fun _ c => { c with file := [] }
    let s := (s.audited 6 0 0xFF 0 []).zeroise
    let s := (s.mailboxDone s.shutResult).allDark.setRung 321 .run
    let s := s.dropTraffic.cutPorts
    let s : State := { s with mute := true, shut := .done, power := { s.power with lowering := [] } }
    ((List.range 20).foldl (fun t d => t.vreqZero d) s).setRegF bootKey 0 4 11
  else s

/-! ## The watchdog (R474) -/

/-- WATCHDOG_EXPIRY: a descriptor holds the cluster and nothing has moved there for WATCHDOG ms. -/
def State.watchdogExpiry (s : State) (c : Nat) : State :=
  if s.regF 0x1140 0 16 = 0 ∨ s.mute = true ∨ s.ops.all (fun o => !setHas o.holds c) = true then s
  else (s.capture pgSteward 2 [w32 c]).islandReset c true false

/-! ## The meanings of the commands -/

def execColdReset (_cause : ColdCause) (s : State) : Outcome := .next s.coldReset

def execWarmReset (s : State) : Outcome := .next s.warmReset

def execTargetResetPattern (s : State) : Outcome := .next s.resetPattern

def execFuseRead (agree : Bool) (s : State) : Outcome := .next (s.fuseRead agree)

def execStewardBoot (r : SelfTestResult) (s : State) : Outcome := .next (s.stewardBoot r)

def execPortsStartup (obs : ContObs) (s : State) : Outcome := .next (s.portsStartup obs)

def execMicrocodeFetch (view : HubView) (s : State) : Outcome := .next (s.microcodeFetch view)

def execStoreSelfTest (obs : StoreTestObs) (s : State) : Outcome := .next (s.storeSelfTest obs)

def execNumericSelfTest (agree : Bool) (s : State) : Outcome := .next (s.numericSelfTest agree)

def execAdmission (s : State) : Outcome := .next s.admission

def execShutdownFinish (s : State) : Outcome := .next s.shutdownFinish

def execWatchdogExpiry (cluster : Fin 320) (s : State) : Outcome := .next (s.watchdogExpiry cluster.val)

end Sys2Proof.Machine
end

