-- ==== Sys2Proof/Machine/Readout.lean ====
section
/-!
DEFINITION. What a register reads (R13, R14, R317 to R320): stored registers, shadows, windows, and the registers
whose value follows from the state; the reads that latch; who may read (R323, R324, R358); and the answer (R287).
-/

namespace Sys2Proof.Machine

/-! ## Keys -/

/-- Core that CORE_SEL of a cluster names, die-wide (R130). -/
def State.selectedCore (s : State) (c : Nat) : Nat := 256 * c + s.regF (clusterBase c + 0x3100) 0 8

/-- Does a CORE_ACCESS offset belong to the selected core? -/
def windowed (o : Nat) : Bool := (decide (0x200 ≤ o) && decide (o < 0x230)) || decide (0xF00 ≤ o)

/-- Key of the register at an offset of a page. -/
def State.regKey (s : State) (p : Page) (o : Nat) : Nat :=
  match p.kind with
  | .coreAccess => if windowed o then coreKey (s.selectedCore p.inst) o else p.base + o
  | _ => p.base + o

/-! ## Values that follow from the state -/

/-- Some field of the page's test region is enabled or armed (R319): bit 31 of T_DELAY to T_INJ and T_QUAD. -/
def State.testActive (s : State) (p : Page) : Bool :=
  s.regs.any fun r =>
    (match p.kind with
      | .coreAccess => decide (coreKey (256 * p.inst) 0 ≤ r.1) && decide (r.1 < coreKey (256 * (p.inst + 1)) 0)
      | _ => decide (p.base ≤ r.1) && decide (r.1 < p.base + 0x1000))
      && decide (0xF00 ≤ r.1 % 0x1000) && r.1 % 0x1000 != 0xF14 && r.1 % 0x1000 != 0xF18 && r.1 % 0x1000 != 0xF24
      && bit r.2.toNat 31

def QState.code : QState → Nat
  | .disabled => 0 | .run => 1 | .stopping => 2 | .halted => 3

/-- STATUS of a queue (R335), TEST_ACTIVE apart. -/
def State.queueStatus (s : State) (q : Nat) : Nat :=
  let Q := s.queue q
  let held := match s.nextDesc q with
    | some d => 2 ^ 24 * b2n (s.heldCommit q) + 2 ^ 25 * b2n (d.order && s.inFlight q != 0) + 2 ^ 26 * b2n (!s.cplRoom q)
    | none => 0
  Q.st.code + s.inFlight q % 32 * 2 ^ 8 + Q.halt % 256 * 2 ^ 16 + held

/-- A replay runs (R410 REPLAYING). -/
def State.replaying (s : State) : Bool :=
  match s.replay with
  | .idle | .stopped => false
  | _ => true

def State.status (s : State) (p : Page) : Nat :=
  (match p.kind with
    | .queue => s.queueStatus p.inst
    | .health => b2n s.health.failed + 2 * b2n s.inRecovery
    | .journal => b2n (s.journalOn && s.journalFull) + 2 * b2n s.replaying
    | _ => 0) + 2 ^ 31 * b2n (s.testActive p)

/-- FX_STATUS.VALID of a core (R129). -/
def State.fxValid (s : State) (k : Nat) : Bool := bit (s.regN (coreKey k 0x208)) 31

/-- Cores with a capture. -/
def State.fxCores (s : State) : List Nat :=
  s.regs.filterMap fun p =>
    if coreKey 0 0 ≤ p.1 ∧ p.1 % 0x1000 = 0x208 ∧ bit p.2.toNat 31 = true then some ((p.1 - coreKey 0 0) / 0x1000) else none

/-- The word with bit `i` for each of 32 positions that satisfies `f`. -/
def bitWord (f : Nat → Bool) : Nat := (List.range 32).foldl (fun a i => a + if f i then 2 ^ i else 0) 0

/-- Clusters with a page whose line is at 1 (R333). -/
def State.lineClusters (s : State) : List Nat := (s.clusterCauses.filter s.baseLine).map clusterOf

/-- Banks 16n to 16n + 15 in BANK_STATEn (R225). -/
def BankSt.code : BankSt → Nat
  | .on => 0 | .keep => 1 | .dark => 2 | .closing _ => 3 | .waking _ => 3

def State.bankState (s : State) (c n : Nat) : Nat :=
  (List.range 16).foldl (fun a i => a + (s.bank (bankKey c (16 * n + i))).code * 4 ^ i) 0

/-- STEP of a cluster island (R364). -/
def State.stepWord (s : State) (c : Nat) : Nat :=
  s.runStep c + s.wantOf c * 2 ^ 4 + s.limitOf c * 2 ^ 8 + 2 ^ 12 * s.domainStep (domainOf c) + (s.island c).droop * 2 ^ 16

def State.ladderWord (s : State) (c : Nat) : Nat :=
  if s.ladder c = 0 ∧ s.islandIdle c = true then 1 else s.ladder c

/-- DRAIN_STAT of a core (R209). -/
def State.drainStat (s : State) (k : Nat) : Nat :=
  let x := s.core k
  let p := x.chainAt
  let op := x.current.bind fun g => s.op g.op
  let forme := match op with
    | some o => x.chain.isNone && !s.formeFree k o
    | none => false
  let buf := match op with
    | some o => !forme && !((o.fills p.1 p.2).all fun f => x.filled.contains f)
    | none => false
  let dest := x.heldFormes.head?.bind fun f => (s.op f.op).bind fun o => (o.entryOf f.sliver).map (·.c)
  x.entries + 16 * b2n (x.chain.isSome || !x.heldFormes.isEmpty) + 32 * b2n forme + 64 * b2n buf
    + 128 * b2n (match dest with | some d => s.backPressed k d | none => false) + x.fullStalls % 2 ^ 16 * 2 ^ 16

/-- Energies in µJ of the registers of R364 and R377. -/
def State.islandEnergy (s : State) (c : Nat) : Nat := SMap.getD s.power.energy c 0 / 256
def State.ticketEnergy (s : State) (t : Nat) : Nat := SMap.getD s.power.ticket t 0 / 256
def State.looseEnergy (s : State) : Nat := s.power.loose / 256

/-- Word `i` of a digest. -/
def digestWord (d : List Byte) (i : Nat) : Nat := ofLE ((d.drop (4 * i)).take 4)

/-! ## Registers of each page that are not read as stored -/

def State.readSteward (s : State) (o : Nat) : Option Nat :=
  if o = 0x180 then some (fld (s.shadow 0x1180).toNat 0 1 + 256 * b2n s.rescueActive) else none

def State.readHubport (s : State) (p o : Nat) : Option Nat :=
  if o = 0x100 then some (s.portState p)
  else if o = 0x180 then some (SMap.getD (s.port p).laneErr (s.regF (portKey p 0x17C) 0 6) 0)
  else none

def State.readHublink (s : State) (o : Nat) : Option Nat :=
  if o = 0x100 then some s.portsUp
  else if o = 0x120 then some (s.regF 0x40120 0 4 + 16 * b2n s.time.pass0 + 32 * b2n s.time.pass1)
  else none

def State.readTime (s : State) (o : Nat) : Option Nat :=
  if o = 0x100 then some s.time.now
  else if o = 0x108 then
    some (b2n s.time.lock + 2 * s.time.copy + 4 * b2n s.time.pass0 + 8 * b2n s.time.pass1)
  else none

def State.readPower (s : State) (o : Nat) : Option Nat :=
  if o = 0x130 then
    some (s.meshStep + s.controlStep * 2 ^ 4 + (s.island 320).droop * 2 ^ 8 + (s.island 321).droop * 2 ^ 10)
  else if 0x200 ≤ o ∧ o < 0x600 then
    let t := (o - 0x200) / 16
    if o % 16 = 0 then
      let w := s.regN (ticketKey t)
      some (w + if bit w 31 && s.jobRuns (fld w 0 16) then 2 ^ 30 else 0)
    else if o % 16 = 4 then some (s.ticketEnergy t)
    else none
  else if o = 0x600 then some s.looseEnergy
  else none

/-- The windows of GROUP on entry SEL (R428). -/
def State.readGroup (s : State) (o : Nat) : Option Nat :=
  let g := s.group (s.regF 0x50100 0 6)
  let states (f : GroupSt → Bool) (n : Nat) : Nat := bitWord fun i => f (s.group (32 * n + i)).st
  if o = 0x104 then some g.stateWord
  else if o = 0x10C then some g.epoch.toNat
  else if o = 0x110 then some g.conc.toNat
  else if o = 0x114 then some (digestWord g.digest 0)
  else if o = 0x118 then some (digestWord g.digest 1)
  else if o = 0x11C then some g.lost
  else if 0x120 ≤ o ∧ o < 0x160 then some (g.member ((o - 0x120) / 4))
  else if o = 0x160 then some g.self
  else if o = 0x164 then some (g.skew + 2 ^ 16 * g.skewPos)
  else if o = 0x180 ∨ o = 0x184 then some (states (· == .degraded) ((o - 0x180) / 4))
  else if o = 0x188 ∨ o = 0x18C then some (states (· == .discord) ((o - 0x188) / 4))
  else none

def State.readSec (s : State) (o : Nat) : Option Nat :=
  if o = 0x108 then some s.secState
  else if o = 0x10C then some s.fuses.serial.toNat
  else if o = 0x110 then some (s.fuses.serial.toNat / 2 ^ 32)
  else if o = 0x114 then some s.svnWord
  else none

def State.readAudit (s : State) (o : Nat) : Option Nat :=
  if o = 0x114 then some s.audit.held.length
  else if 0x120 ≤ o ∧ o < 0x150 then some (digestWord s.audit.head ((o - 0x120) / 4))
  else none

def State.readProt (s : State) (o : Nat) : Option Nat :=
  if 0x104 ≤ o ∧ o < 0x11C then
    some ((((s.protEntry (s.regF 0x56100 0 8)).words[(o - 0x104) / 4]?).getD 0).toNat)
  else if 0x150 ≤ o ∧ o < 0x180 then some (digestWord s.protMeas ((o - 0x150) / 4))
  else none

def State.readErragg (s : State) (o : Nat) : Option Nat :=
  if o = 0x18 then some (s.regN 0x60018 + s.erraggSummary)
  else if 0x100 ≤ o ∧ o < 0x128 then
    some (bitWord fun i => s.fxCores.any fun k => k / 256 == 32 * ((o - 0x100) / 4) + i)
  else if 0x140 ≤ o ∧ o < 0x168 then some (bitWord fun i => setHas s.lineClusters (32 * ((o - 0x140) / 4) + i))
  else none

def State.readStorePage (s : State) (c o : Nat) : Option Nat :=
  if 0x120 ≤ o ∧ o < 0x12C then some (s.bankState c ((o - 0x120) / 4))
  else if o = 0x134 then some (s.outstanding c (s.regF (clusterBase c + 0x1130) 0 6) % 2 ^ 16)
  else none

def State.readIsland (s : State) (c o : Nat) : Option Nat :=
  if o = 0x100 then some (s.stepWord c)
  else if o = 0x104 then some (s.ladderWord c)
  else if o = 0x118 then some (s.islandEnergy c)
  else none

/-- Word `w` of a feeder store, which is 1,024 words of 4 bytes (R23). -/
def Core.storeWord (c : Core) (w : Nat) : Word :=
  BitVec.ofNat 32 (ofLE ((List.range 4).map fun i => SMap.getD c.fs (4 * w + i) 0))

/-- T_FS_DATA is the word that T_FS_ADDR names, as it stands (R360). -/
def State.readCore (s : State) (c o : Nat) : Option Nat :=
  if o = 0x22C then some (s.drainStat (s.selectedCore c))
  else if o = 0xF28 then
    let k := s.selectedCore c
    some ((s.core k).storeWord (fld (s.regN (coreKey k 0xF24)) 2 10)).toNat
  else none

/-- The registers of a page that are not read as stored. -/
def State.readSpecial (s : State) (p : Page) (o : Nat) : Option Nat :=
  if o = 0 then some (p.kind.typeCode + p.inst * 256)
  else if o = 0x14 then some (s.status p)
  else
    match p.kind with
    | .die => if o = 0x100 then some (b2n s.mixed) else none
    | .steward => s.readSteward o
    | .hubport => s.readHubport p.inst o
    | .hublink => s.readHublink o
    | .time => s.readTime o
    | .power => s.readPower o
    | .group => s.readGroup o
    | .sec => s.readSec o
    | .audit => s.readAudit o
    | .prot => s.readProt o
    | .erragg => s.readErragg o
    | .comp =>
      if 0x200 ≤ o ∧ o < 0x220 then
        some (bitWord fun i => s.fxValid (256 * p.inst + 32 * ((o - 0x200) / 4) + i))
      else none
    | .store => s.readStorePage p.inst o
    | .island => s.readIsland p.inst o
    | .coreAccess => s.readCore p.inst o
    | .impose | .queue | .therm | .health | .journal | .secure | .digest | .testctl => none

/-- The value that a read of a register returns (R13): an RS field its shadow, a WO field and a reserved bit 0. -/
def State.readReg (s : State) (p : Page) (r : RegRow) (o : Nat) : Word :=
  match s.readSpecial p o with
  | some v => w32 v
  | none =>
    let k := s.regKey p o
    if r.rs = 0 then s.reg k else (s.shadow k &&& w32 r.rs) ||| (s.reg k &&& ~~~ (w32 r.rs))

/-! ## Reads that latch (R300, R364, R377) -/

/-- What a read changes: the upper half of a 64-bit value is latched, and a free value is used up. -/
def State.readEffect (s : State) (p : Page) (o : Nat) : State :=
  match p.kind with
  | .time => if o = 0x100 then s.setRegN 0x51104 (s.time.now / 2 ^ 32) else s
  | .power =>
    if 0x200 ≤ o ∧ o < 0x600 ∧ o % 16 = 4 then
      s.setRegN (0x48000 + o + 4) (s.ticketEnergy ((o - 0x200) / 16) / 2 ^ 32)
    else if o = 0x600 then s.setRegN 0x48604 (s.looseEnergy / 2 ^ 32)
    else s
  | .island => if o = 0x118 then s.setRegN (p.base + 0x11C) (s.islandEnergy p.inst / 2 ^ 32) else s
  | _ => s

/-! ## Who may read -/

/-- Reads that level 2 may make (R323). -/
def PageKind.levelTwo : PageKind → Bool
  | .queue | .time | .erragg => true
  | _ => false

/-- Accesses are served from step 5 onward (R462) while the die is in service, is being admitted, or only answers
reads after a failed start-up (R468); during readmission only once it is granted (R310, R311). -/
def State.served (s : State) (port : Nat) : Bool :=
  s.heard port && decide (5 ≤ s.bootStep) && s.admitSt != 5

/-- A cluster page other than ISLAND whose island is dark (R382). -/
def State.darkPage (s : State) (p : Page) : Bool :=
  match p.kind with
  | .comp | .store | .coreAccess => s.ladder p.inst == 4
  | _ => false

/-- Where a refused access is recorded, and with which cause: not permitted (R324), a dark cluster (R382), a locked
test region (R358). -/
def State.readRefused (s : State) (p : Page) (o priv : Nat) : Option (Page × Nat × Word) :=
  let test := decide (0xF00 ≤ o)
  if priv = 3 ∨ (priv = 2 ∧ (p.kind.levelTwo = false ∨ (test = true ∧ s.testUnlocked = true))) then
    some (p, 0xE1, commonWord o priv)
  else if s.darkPage p then some (pgIsland p.inst, 3, w32 o)
  else if test && !s.testUnlocked then some (p, 0xE5, commonWord o priv)
  else none

/-- The answer to a read: its value and STATUS (R287). -/
def State.answerRead (s : State) (a : Access) (v : Word) (status : Nat) : State :=
  s.send { port := a.port, op := .rgr, tag := a.tag.toNat, stream := a.stream.toNat, srcpos := a.srcpos.toNat,
           srcpkg := a.srcpkg.toNat, status := status, aux := v.toNat }

/-- An access to COMP, STORE or CORE_ACCESS returns the cluster's island to run (R381). -/
def State.wakeFor (s : State) (p : Page) : State :=
  match p.kind with
  | .comp | .store | .coreAccess => s.wakeIsland p.inst
  | _ => s

/-- The word that an access reads or writes stands under SEC-DED (R393, R396, R479): a page's own registers, the
steward's and the journal block's memory, the chain records of IMPOSE and the handle table of STORE. -/
def State.pageInject (s : State) (p : Page) (o : Nat) : State :=
  match p.kind with
  | .queue | .hublink | .power | .therm | .health | .secure | .group | .time | .erragg | .island | .steward
  | .journal => (s.readControl p.base o).1
  | .impose => if 0x100 ≤ o then (s.readControl p.base ((o - 0x100) / 0x30)).1 else s
  | .store =>
    if 0x400 ≤ o ∧ o < 0xC00 then (s.readControl p.base (handlePlace ((o - 0x400) / 0x20))).1 else s
  | .die | .hubport | .sec | .audit | .prot | .digest | .testctl | .comp | .coreAccess => s

/-- A register read (R287, R320). -/
def State.accessRead (s : State) (a : Access) (off : Nat) : State :=
  if !s.served a.port.val then s
  else
    match regAt off with
    | none => s.answerRead a 0 0x10
    | some (p, r) =>
      let o := off - p.base
      match s.readRefused p o a.priv.toNat with
      | some (page, cause, w) => (s.capture page cause [w]).answerRead a 0 0x11
      | none =>
        let s := (s.wakeFor p).pageInject p o
        (s.readEffect p o).answerRead a (s.readReg p r o) 0

/-! ## The meanings of the commands -/

def execRgrd (a : Access) (off : BitVec 28) (s : State) : Outcome := .next (s.accessRead a off.toNat)

def execNowLoRead (a : Access) (s : State) : Outcome := .next (s.accessRead a 0x51100)

def execEnergyLoRead (a : Access) (cluster : Fin 320) (s : State) : Outcome :=
  .next (s.accessRead a (clusterBase cluster.val + 0x2118))

def execTicketLoRead (a : Access) (t : Fin 64) (s : State) : Outcome := .next (s.accessRead a (0x48204 + 16 * t.val))

def execUnticketedLoRead (a : Access) (s : State) : Outcome := .next (s.accessRead a 0x48600)

end Sys2Proof.Machine
end

