-- ==== Sys2Proof/Machine/RegWrite.lean ====
section
/-!
DEFINITION. A register write (R287, R324, R355): who may write, the encodings that are reserved (R15), the writes that
the block's state refuses (R326), and what an accepted write does, page by page.
-/

namespace Sys2Proof.Machine

/-- What a write may need from outside the die: what the hub answers to the reads that it starts, and what the
self-tests find that it starts. -/
structure WriteAux where
  view : HubView
  test : SelfTestResult

/-- A write that starts no reads and no self-test. -/
def WriteAux.none : WriteAux := ⟨⟨[], []⟩, .pass⟩

/-! ## Reserved encodings (R15) -/

/-- Fault-injection kinds of a page (R479). -/
def PageKind.injKinds : PageKind → List Nat
  | .store | .coreAccess => [1, 2, 3]
  | .comp | .die => [3]
  | .hubport => [1, 2, 4, 5]
  | .impose | .steward | .journal | .queue | .hublink | .power | .therm | .health | .secure | .group | .time
  | .erragg | .island => [1, 2]
  | .sec | .audit | .prot | .digest | .testctl => []

/-- A cap in W outside 250 to 980. -/
def badCap (w : Nat) : Bool := decide (w < 250) || decide (980 < w)

/-- Word `o` of a handle's entry holds a reserved encoding (R226). -/
def badHandleWord (o v : Nat) : Bool :=
  match o % 32 with
  | 0 => decide (48 < fld v 6 6) || decide (9 < fld v 24 4) || fld v 28 2 == 3 || fld v 30 2 == 3
  | 4 | 8 | 12 => fld v 0 2 != 0
  | _ => false

/-- Some field of the register would take a reserved encoding. -/
def reservedValue (k : PageKind) (o v : Nat) : Bool :=
  if o = 0xF10 then !k.injKinds.contains (fld v 0 4)
  else if 0xF00 ≤ o then false
  else
    match k with
    | .die => decide (0x200 ≤ o) && o % 16 == 4 && fld v 16 4 != 15
    | .queue =>
      if o = 0x108 ∨ o = 0x128 then decide (fld v 0 5 < 4) || decide (16 < fld v 0 5)
      else if o = 0x104 ∨ o = 0x124 then fld v 16 4 != 0
      else if o = 0x140 then fld v 16 9 == 0 || decide (320 < fld v 0 9 + fld v 16 9)
      else false
    | .hubport => (o == 0x104 && fld v 1 2 == 3) || (o == 0x108 && fld v 8 16 == 0)
    | .power =>
      if o = 0x100 ∨ o = 0x104 then badCap (fld v 0 10)
      else if o = 0x108 then decide (20 < fld v 0 8) || decide (40 < fld v 8 8)
      else if o = 0x10C then decide (256 < fld v 8 8 + fld v 16 8)
      else if 0x610 ≤ o ∧ o < 0x620 then bit v 31 && badCap (fld v 16 10)
      else false
    | .therm => (o == 0x100 && (decide (fld v 0 8 < 80) || decide (105 < fld v 0 8))) || (o == 0x104 && fld v 0 4 == 0)
    | .journal => o == 0x108 && (decide (fld v 0 5 < 10) || decide (20 < fld v 0 5))
    | .audit =>
      (o == 0x108 && (decide (fld v 0 5 < 6) || decide (16 < fld v 0 5) || v / 32 != 0))
        || (o == 0x100 && fld v 0 7 != 0) || (o == 0x104 && fld v 20 12 != 0)
    | .comp =>
      o == 0x100 && (decide (47 < fld v 0 6) || decide (48 < fld v 8 6) || decide (48 < fld v 0 6 + fld v 8 6))
    | .store =>
      if o = 0x100 then fld v 0 8 == 0 || fld v 8 12 == 0
      else decide (0x400 ≤ o) && decide (o < 0xC00) && badHandleWord o v
    | .island =>
      if o = 0x108 then fld v 0 2 == 3 || fld v 8 8 == 0 || fld v 16 8 == 0
      else o == 0x10C && (decide (fld v 0 6 < 10) || decide (60 < fld v 0 6) || fld v 8 8 == 0)
    | .steward | .impose | .hublink | .health | .secure | .group | .time | .sec | .prot | .digest | .erragg
    | .testctl | .coreAccess => false

/-! ## Writes that the state refuses (R326, R355) -/

/-- Every queue is disabled. -/
def State.queuesOff (s : State) : Bool := (List.range 16).all fun q => (s.queue q).st == .disabled

/-- A write of DB_TAIL or CPL_HEAD outside what R338 allows; and of what R337 and R344 hold back. -/
def State.queueRefused (s : State) (q o : Nat) (v : Word) : Bool :=
  let k := queueKey q
  let Q := s.queue q
  if [0x100, 0x104, 0x108, 0x120, 0x124, 0x128, 0x144].contains o then Q.st != .disabled
  else if o = 0x10C then
    let head := s.reg (k 0x110)
    decide ((v - head).toNat < (s.reg (k 0x10C) - head).toNat)
      || decide (2 ^ s.regF (k 0x108) 0 5 < (v - head).toNat)
  else if o = 0x130 then
    let head := s.reg (k 0x130)
    decide ((s.reg (k 0x12C) - head).toNat < (v - head).toNat)
  else if o = 0x10 then
    let rises := bit v.toNat 0 && !bit (s.regN (k 0x10)) 0
    (rises && Q.st == .stopping) || (bit v.toNat 0 && s.admitSt == 3)
      || (s.health.failed && (rises || bit v.toNat 1))
  else false

/-- READ beyond WRITTEN, a configured ring (R457), and a ring too small for the record of its own setting (R459; log
entry 103). -/
def State.auditRefused (s : State) (o : Nat) (v : Word) : Bool :=
  if o = 0x110 then decide ((s.auditWritten - s.reg 0x55110).toNat < (s.auditWritten - v).toNat)
  else if s.audit.configured then o == 0x100 || o == 0x104 || o == 0x108
  else o == 0x108 && decide (2 ^ fld v.toNat 0 5 < s.unread + 1)

/-- The core holds work of a descriptor (R360). -/
def Core.holdsWork (c : Core) : Bool := !c.work.isEmpty || c.tile.isSome || !c.slugs.isEmpty || !c.formes.isEmpty

/-- JOURNAL's ENABLE, ring and JCB registers, whose writes R409 refuses with E6h unless they are at level 0 and every
queue is disabled. -/
def journalSetup (p : Page) (o : Nat) : Bool :=
  p.kind == .journal && [0x10, 0x100, 0x104, 0x108, 0x114, 0x118].contains o

/-- The write is refused with cause E6h. -/
def State.stateRefused (s : State) (p : Page) (o : Nat) (v : Word) : Bool :=
  let n := v.toNat
  match p.kind with
  | .steward => o == 0x200 && bit (s.regN 0x1208) 0
  | .queue => s.queueRefused p.inst o v
  | .hublink => o == 0x108 && s.admitSt != 3
  | .power =>
    o == 0x1FC && bit n 8 &&
      (let w := s.regN (ticketKey (fld n 0 6))
       bit w 31 && s.jobRuns (fld w 0 16))
  | .journal =>
    if o = 0x11C then bit n 0 && !(s.journalOn && s.queuesOff && s.admitSt == 2)
    else if 0x140 ≤ o ∧ o < 0x180 then s.retireRefused ((o - 0x140) / 4) v
    else journalSetup p o && !s.queuesOff
  | .secure => o == 0x100 && fld n 0 2 != s.regF 0x4E100 0 2 && !s.auditRoom
  | .group =>
    let g := s.regF 0x50100 0 6
    if o = 0x108 then bit n 0 && s.formRefused g
    else (o == 0x10C || o == 0x110 || (decide (0x120 ≤ o) && decide (o < 0x160))) && (s.group g).st != .empty
  | .sec => o == 0x100 && bit (s.regN 0x54104) 0
  | .audit => s.auditRefused o v
  | .testctl => o == 0x100 && bit n 0 && !s.testUnlocked && !s.auditRoom
  | .coreAccess => o == 0xF20 && bit n 31 && (s.core (s.selectedCore p.inst)).holdsWork
  | .die | .impose | .hubport | .therm | .health | .time | .prot | .digest | .erragg | .comp | .store
  | .island => false

/-- The causes of PROT's own refusals (R456). -/
def State.protRefused (s : State) (p : Page) (o : Nat) (v : Word) : Option Nat :=
  if p.kind = .prot ∧ o = 0x140 ∧ s.applyRefused v.toNat = true then some 1
  else if p.kind = .prot ∧ o = 0x148 ∧ s.taskEndRefused v.toNat = true then some 2
  else none

/-! ## Accepted writes -/

/-- The stored value of a register after a write, by the access codes of its bits (R13). -/
def RegRow.stored (r : RegRow) (cur v : Word) : Word :=
  (((cur &&& ~~~ (w32 r.rw)) ||| (v &&& w32 r.rw)) &&& ~~~ (v &&& w32 r.w1c)) ||| (v &&& w32 r.w1s)

def State.store1 (s : State) (p : Page) (r : RegRow) (o : Nat) (v : Word) : State :=
  let k := s.regKey p o
  s.setReg k (r.stored (s.reg k) v)

/-- ENABLE and RESUME of a queue (R344, R471). -/
def State.queueControl (s : State) (q : Nat) (v : Word) : State :=
  let k := queueKey q 0x10
  let was := bit (s.regN k) 0
  let on := bit v.toNat 0
  let s := s.setReg k (v &&& w32 0xF01)
  let s : State := if on then { s with recovery := false } else s
  let Q := s.queue q
  let s := if on && !was && Q.st == .disabled then s.setQueue q { Q with st := .run }
    else if !on && was && (Q.st == .run || Q.st == .halted) then
      (s.setQueue q { Q with st := .stopping, held := none, reading := false }).stopCheck q
    else s
  let Q := s.queue q
  if bit v.toNat 1 && Q.st == .halted then s.setQueue q { Q with st := .run, halt := 0 } else s

def State.writeQueue (s : State) (p : Page) (r : RegRow) (o : Nat) (v : Word) : State :=
  let k := queueKey p.inst
  let t := s.store1 p r o v
  if o = 0x10 then s.queueControl p.inst v
  else if o = 0x100 then (t.setReg (k 0x110) 0).setReg (k 0x10C) 0
  else if o = 0x120 then (t.setReg (k 0x12C) 0).setReg (k 0x130) 0
  else t

/-- MAX_WIDTH, and a retrain of a port that is UP (R274, R295). -/
def State.writePort (s : State) (p : Page) (r : RegRow) (o : Nat) (v : Word) : State :=
  if o = 0x104 then
    let k := portKey p.inst 0x104
    let s := s.setRegF k 1 2 (fld v.toNat 1 2)
    if bit v.toNat 0 && (s.port p.inst).train == .up then (s.setRegF k 0 1 1).retrain p.inst else s
  else s.store1 p r o v

def State.writePower (s : State) (p : Page) (r : RegRow) (o : Nat) (v : Word) : State :=
  let t := s.store1 p r o v
  if o = 0x194 then t.measure (fld v.toNat 0 16)
  else if o = 0x10C ∧ bit v.toNat 2 = true then t.learnClear
  else if o = 0x1FC ∧ bit v.toNat 8 = true then t.setRegF (ticketKey (fld v.toNat 0 6)) 31 1 0
  else t

def State.writeJournal (s : State) (p : Page) (r : RegRow) (o : Nat) (v : Word) (view : HubView) : State :=
  if o = 0x10 then
    let was := s.journalOn
    let t := s.store1 p r o v
    if bit v.toNat 0 && !was then t.journalStart view else t
  else if o = 0x11C then (if bit v.toNat 0 then s.replayStart view else s)
  else if 0x140 ≤ o ∧ o < 0x180 then s.retireTo ((o - 0x140) / 4) v
  else s.store1 p r o v

def State.writeGroup (s : State) (p : Page) (r : RegRow) (o : Nat) (v : Word) : State :=
  let i := s.regF 0x50100 0 6
  let g := s.group i
  if o = 0x108 then
    let s := if bit v.toNat 0 then s.form i else s
    if bit v.toNat 1 then s.dissolve i else s
  else if o = 0x10C then s.setGroup i { g with epoch := v }
  else if o = 0x110 then s.setGroup i { g with conc := v &&& w32 0x3F01FF }
  else if 0x120 ≤ o ∧ o < 0x160 then s.setGroup i { g with members := setAt g.members ((o - 0x120) / 4) (v &&& w32 0x8000FF0F) }
  else s.store1 p r o v

def State.writeAudit (s : State) (p : Page) (r : RegRow) (o : Nat) (v : Word) (priv port : Nat) : State :=
  let t := s.store1 p r o v
  if o = 0x108 then t.configureAudit priv port else t

def State.writeProt (s : State) (p : Page) (r : RegRow) (o : Nat) (v : Word) (priv port : Nat) : State :=
  if o = 0x140 then s.applyEntry v.toNat priv port
  else if o = 0x148 then s.endNamed v.toNat
  else s.store1 p r o v

/-- The test regions relock (R358): every test register returns to its reset value, and nothing stays armed. -/
def State.relock (s : State) : State :=
  let s : State := { s with regs := s.regs.filter (fun r => decide (r.1 % 0x1000 < 0xF00)), injected := [] }
  match s.sb.tap with
  | .other _ => { s with sb := { s.sb with tap := .bypass } }
  | _ => s

def State.writeUnlock (s : State) (v : Word) (priv port : Nat) : State :=
  let on := bit v.toNat 0
  if on = s.testUnlocked then s
  else
    let s := (s.audited 2 priv port (b2n on) []).setRegF 0x7F100 0 1 (b2n on)
    if on then s else s.relock

def State.writePolicy (s : State) (v : Word) (priv port : Nat) : State :=
  let n := fld v.toNat 0 2
  if n = s.regF 0x4E100 0 2 then s else (s.audited 3 priv port n []).setRegF 0x4E100 0 2 n

/-- RESCUE_LOG's CLEAR, and the other registers of a core. -/
def State.writeCore (s : State) (p : Page) (r : RegRow) (o : Nat) (v : Word) : State :=
  if o = 0x224 then (if bit v.toNat 31 then s.setReg (s.regKey p o) 0 else s) else s.store1 p r o v

/-- What an accepted write of a register that is in no common area, no test region and no RS field does. -/
def State.writeBlock (s : State) (p : Page) (r : RegRow) (o : Nat) (v : Word) (priv port : Nat) (aux : WriteAux) : State :=
  match p.kind with
  | .die =>
    if o = 0x100 then (if bit v.toNat 0 then s.dieCommit else s)
    else
      let t := s.store1 p r o v
      if o % 16 = 12 then t.vectorResend ((o - 0x20C) / 16) else t
  | .steward => if o = 0x200 then s.mailbox v.toNat aux.view else s.store1 p r o v
  | .queue => s.writeQueue p r o v
  | .hubport => s.writePort p r o v
  | .hublink => if o = 0x108 then s.takePosition v.toNat else s.store1 p r o v
  | .power => s.writePower p r o v
  | .journal => s.writeJournal p r o v aux.view
  | .secure => if o = 0x100 then s.writePolicy v priv port else s.store1 p r o v
  | .group => s.writeGroup p r o v
  | .sec => if o = 0x100 then s.secCommand v.toNat priv port aux.test else s.store1 p r o v
  | .audit => s.writeAudit p r o v priv port
  | .prot => s.writeProt p r o v priv port
  | .testctl => if o = 0x100 then s.writeUnlock v priv port else s.store1 p r o v
  | .store => if o = 0x110 then s.setTags p.inst (fld v.toNat 0 6) (bit v.toNat 8) else s.store1 p r o v
  | .coreAccess => s.writeCore p r o v
  | .impose | .therm | .health | .time | .digest | .erragg | .comp | .island => s.store1 p r o v

/-- An accepted write of the common area other than the commit registers (R325, R327, R331). -/
def State.writeCommon (s : State) (p : Page) (r : RegRow) (o : Nat) (v : Word) : State :=
  let t := s.store1 p r o v
  if o = 0x18 ∨ o = 0x1C then t.vectorTouched p
  else if o = 0x20 ∧ bit v.toNat 31 = true then t.setReg (p.base + p.kind.countOff) 0
  else t

/-- A write of the test region; one of T_INJ starts its count again. -/
def State.writeTest (s : State) (p : Page) (r : RegRow) (o : Nat) (v : Word) : State :=
  let t := s.store1 p r o v
  if o = 0xF10 then { t with injected := SMap.del t.injected (t.regKey p o) } else t

/-- An accepted write, by the part of the page that it meets. -/
def State.writeEffect (s : State) (p : Page) (r : RegRow) (o : Nat) (v : Word) (priv port : Nat) (aux : WriteAux) :
    State :=
  if 0xF00 ≤ o then s.writeTest p r o v
  else if o = 0x40 then (if p.kind.hasShadow && bit v.toNat 16 then s.requestCommit p else s)
  else if o = 0x44 then (if p.kind.hasShadow then s.shadowCtrl p v.toNat else s)
  else if r.rs ≠ 0 then s.writeShadow p (s.regKey p o) ((v &&& w32 r.rs) ||| (s.reg (s.regKey p o) &&& ~~~ (w32 r.rs)))
  else if o < 0x100 ∧ o ≠ 0x10 then s.writeCommon p r o v
  else s.writeBlock p r o v priv port aux

/-! ## Refusals -/

/-- Levels that may write a register (R323, R324, R13). -/
def levelRefused (p : Page) (r : RegRow) (o priv : Nat) : Option Nat :=
  if priv = 3 then some 0xE1
  else if priv = 2 ∧ ¬ (p.kind = .queue ∧ (o = 0x10C ∨ o = 0x130)) then some (if r.rl then 0xE0 else 0xE1)
  else none

/-- A refused write that is no state refusal: with which cause it is recorded (R13, R15, R324, R358). R409 refuses the
writes of `journalSetup` at another level than 0 for state instead (log entry 98). -/
def State.accessRefused (s : State) (p : Page) (r : RegRow) (o priv : Nat) : Option Nat :=
  match (if journalSetup p o then none else levelRefused p r o priv) with
  | some c => some c
  | none =>
    if 0xF00 ≤ o ∧ s.testUnlocked = false then some 0xE5
    else if r.rl ∧ priv ≠ 0 ∧ journalSetup p o = false then some 0xE0
    else none

/-- A commit or shadow register that a pending page or the die's mixed state refuses (R348, R352). -/
def State.commitRefused (s : State) (p : Page) (r : RegRow) (o : Nat) (v : Word) : Option Nat :=
  if o = 0x40 then (if p.kind.hasShadow && bit v.toNat 16 && s.pageCommitRefused p then some 0xE4 else none)
  else if o = 0x44 then (if p.kind.hasShadow then s.shadowCtrlRefused p v.toNat else none)
  else if r.rs ≠ 0 then (if s.pagePending p then some 0xE3 else none)
  else if p.kind = .die ∧ o = 0x100 ∧ bit v.toNat 0 = true ∧ s.mixed = true then some 0xE4
  else none

/-- The register is written; its STATUS. WIN_OPEN judges each handle by itself (R245). -/
def State.writeRegister (s : State) (p : Page) (r : RegRow) (o : Nat) (v : Word) (priv port : Nat) (aux : WriteAux) :
    State × Nat :=
  match s.accessRefused p r o priv with
  | some c => (s.captureCommon p c o priv, 0x11)
  | none =>
    if s.darkPage p then ((s.capture (pgIsland p.inst) 3 [w32 o]).noteRefusal (pgIsland p.inst), 0x11)
    else
      match s.commitRefused p r o v with
      | some c => (s.refuseWrite p c o priv, 0x11)
      | none =>
        if reservedValue p.kind o v.toNat then (s.captureCommon p 0xE2 o priv, 0x11)
        else
          match s.protRefused p o v with
          | some c => ((s.capture p c [v]).noteRefusal p, 0x11)
          | none =>
            if (journalSetup p o && priv != 0) || s.stateRefused p o v then (s.refuseWrite p 0xE6 o priv, 0x11)
            else
              let s := (s.wakeFor p).pageInject p o
              if p.kind = .store ∧ (o = 0x108 ∨ o = 0x10C) then s.openWindows p.inst ((o - 0x108) / 4) v.toNat
              else (s.writeEffect p r o v priv port aux, 0)

/-- Writes are performed while accesses are served and start-up has not failed; a doorbell is accepted only once
start-up is complete (R462, R468). -/
def State.takesWrites (s : State) (a : Access) : Bool :=
  s.served a.port.val && !s.bootFailed && !(a.msg && s.bootStep != 10)

/-- A register write (R287, R320). -/
def State.accessWrite (s : State) (a : Access) (off : Nat) (v : Word) (aux : WriteAux := WriteAux.none) : State :=
  if !s.takesWrites a then s
  else
    match regAt off with
    | none => s.respond a .rgwa 0x10
    | some (p, r) =>
      let (t, status) := s.writeRegister p r (off - p.base) v a.priv.toNat a.port.val aux
      t.respond a .rgwa status

/-! ## The meanings of the commands -/

def execRgwr (a : Access) (off : BitVec 28) (v : Word) (s : State) : Outcome := .next (s.accessWrite a off.toNat v)

def execWinOpen (a : Access) (cluster : Fin 320) (word : Fin 2) (v : Word) (s : State) : Outcome :=
  .next (s.accessWrite a (clusterBase cluster.val + 0x1108 + 4 * word.val) v)

def execTagReset (a : Access) (cluster : Fin 320) (v : Word) (s : State) : Outcome :=
  .next (s.accessWrite a (clusterBase cluster.val + 0x1110) v)

def execDbTailWrite (a : Access) (q : Fin 16) (v : Word) (s : State) : Outcome :=
  .next (s.accessWrite a (queueKey q.val 0x10C) v)

def execCplHeadWrite (a : Access) (q : Fin 16) (v : Word) (s : State) : Outcome :=
  .next (s.accessWrite a (queueKey q.val 0x130) v)

def execRingLoWrite (a : Access) (q : Fin 16) (v : Word) (s : State) : Outcome :=
  .next (s.accessWrite a (queueKey q.val 0x100) v)

def execCplLoWrite (a : Access) (q : Fin 16) (v : Word) (s : State) : Outcome :=
  .next (s.accessWrite a (queueKey q.val 0x120) v)

def execQueueEnable (a : Access) (q : Fin 16) (v : Word) (s : State) : Outcome :=
  .next (s.accessWrite a (queueKey q.val 0x10) v)

def execResume (a : Access) (q : Fin 16) (v : Word) (s : State) : Outcome :=
  .next (s.accessWrite a (queueKey q.val 0x10) v)

def execIntStatusWrite (a : Access) (page : BitVec 28) (v : Word) (s : State) : Outcome :=
  .next (s.accessWrite a (page.toNat + 0x18) v)

def execIntEnableWrite (a : Access) (page : BitVec 28) (v : Word) (s : State) : Outcome :=
  .next (s.accessWrite a (page.toNat + 0x1C) v)

def execIntvCtrlWrite (a : Access) (vec : Fin 32) (v : Word) (s : State) : Outcome :=
  .next (s.accessWrite a (0x20C + 16 * vec.val) v)

def execErrCauseClear (a : Access) (page : BitVec 28) (v : Word) (s : State) : Outcome :=
  .next (s.accessWrite a (page.toNat + 0x20) v)

def execFxStatusClear (a : Access) (cluster : Fin 320) (v : Word) (s : State) : Outcome :=
  .next (s.accessWrite a (clusterBase cluster.val + 0x3208) v)

def execRescueLogClear (a : Access) (cluster : Fin 320) (v : Word) (s : State) : Outcome :=
  .next (s.accessWrite a (clusterBase cluster.val + 0x3224) v)

def execPageCommit (a : Access) (page : BitVec 28) (v : Word) (s : State) : Outcome :=
  .next (s.accessWrite a (page.toNat + 0x40) v)

def execShadowDiscard (a : Access) (page : BitVec 28) (v : Word) (s : State) : Outcome :=
  .next (s.accessWrite a (page.toNat + 0x44) v)

def execDieCommit (a : Access) (v : Word) (s : State) : Outcome := .next (s.accessWrite a 0x100 v)

def execPortRetrainRequest (a : Access) (port : Fin 32) (v : Word) (s : State) : Outcome :=
  .next (s.accessWrite a (portKey port.val 0x104) v)

def execPositionWrite (a : Access) (v : Word) (s : State) : Outcome := .next (s.accessWrite a 0x40108 v)

def execTestctlUnlock (a : Access) (v : Word) (s : State) : Outcome := .next (s.accessWrite a 0x7F100 v)

def execTInjArm (a : Access) (page : BitVec 28) (v : Word) (s : State) : Outcome :=
  .next (s.accessWrite a (page.toNat + 0xF10) v)

def execTQuadWrite (a : Access) (cluster : Fin 320) (v : Word) (s : State) : Outcome :=
  .next (s.accessWrite a (clusterBase cluster.val + 0x3F20) v)

def execMeasSeqWrite (a : Access) (v : Word) (s : State) : Outcome := .next (s.accessWrite a 0x48194 v)

def execTicketRelease (a : Access) (v : Word) (s : State) : Outcome := .next (s.accessWrite a 0x481FC v)

def execLearnClear (a : Access) (v : Word) (s : State) : Outcome := .next (s.accessWrite a 0x4810C v)

def execJournalEnable (a : Access) (v : Word) (view : HubView) (s : State) : Outcome :=
  .next (s.accessWrite a 0x4D010 v ⟨view, .pass⟩)

def execRetireWrite (a : Access) (q : Fin 16) (v : Word) (s : State) : Outcome :=
  .next (s.accessWrite a (retireKey q.val) v)

def execReplayCmdStart (a : Access) (v : Word) (view : HubView) (s : State) : Outcome :=
  .next (s.accessWrite a 0x4D11C v ⟨view, .pass⟩)

def execGCtrlForm (a : Access) (v : Word) (s : State) : Outcome := .next (s.accessWrite a 0x50108 v)

def execGCtrlDissolve (a : Access) (v : Word) (s : State) : Outcome := .next (s.accessWrite a 0x50108 v)

def execIslandReset (a : Access) (v : Word) (s : State) : Outcome := .next (s.accessWrite a 0x1200 v)

def execBlockReset (a : Access) (v : Word) (s : State) : Outcome := .next (s.accessWrite a 0x1200 v)

def execShutdown (a : Access) (v : Word) (view : HubView) (s : State) : Outcome :=
  .next (s.accessWrite a 0x1200 v ⟨view, .pass⟩)

def execSelftest (a : Access) (v : Word) (r : SelfTestResult) (s : State) : Outcome :=
  .next (s.accessWrite a 0x54100 v ⟨⟨[], []⟩, r⟩)

def execRandom (a : Access) (v : Word) (s : State) : Outcome := .next (s.accessWrite a 0x54100 v)

def execAttest (a : Access) (v : Word) (s : State) : Outcome := .next (s.accessWrite a 0x54100 v)

def execCoChallenge (a : Access) (v : Word) (s : State) : Outcome := .next (s.accessWrite a 0x54100 v)

def execCoLogin (a : Access) (v : Word) (s : State) : Outcome := .next (s.accessWrite a 0x54100 v)

def execCoLogout (a : Access) (v : Word) (s : State) : Outcome := .next (s.accessWrite a 0x54100 v)

def execLoadKey (a : Access) (v : Word) (s : State) : Outcome := .next (s.accessWrite a 0x54100 v)

def execClearKey (a : Access) (v : Word) (s : State) : Outcome := .next (s.accessWrite a 0x54100 v)

def execZeroise (a : Access) (v : Word) (s : State) : Outcome := .next (s.accessWrite a 0x54100 v)

def execFuseOwner (a : Access) (v : Word) (s : State) : Outcome := .next (s.accessWrite a 0x54100 v)

def execRaiseSvn (a : Access) (v : Word) (s : State) : Outcome := .next (s.accessWrite a 0x54100 v)

def execKill (a : Access) (v : Word) (s : State) : Outcome := .next (s.accessWrite a 0x54100 v)

def execProtApply (a : Access) (v : Word) (s : State) : Outcome := .next (s.accessWrite a 0x56140 v)

def execTaskEnd (a : Access) (v : Word) (s : State) : Outcome := .next (s.accessWrite a 0x56148 v)

def execAuditRingSizeWrite (a : Access) (v : Word) (s : State) : Outcome := .next (s.accessWrite a 0x55108 v)

def execAuditReadWrite (a : Access) (v : Word) (s : State) : Outcome := .next (s.accessWrite a 0x55110 v)

end Sys2Proof.Machine
end

