-- ==== Sys2Proof/Machine/Dispatch.lean ====
section
/-!
DEFINITION. The dispatcher: one arm per command, each one call of that command's meaning.
-/

namespace Sys2Proof.Machine

/-- The effect of a command on everything but the queue of waiting commands. -/
def exec (i : Instr) (s : State) : Host.Outcome State Fault Refusal :=
  match i with
  | .matmul q view => Sys2Proof.Machine.execMatmul q view s
  | .conv q view => Sys2Proof.Machine.execConv q view s
  | .batched q view => Sys2Proof.Machine.execBatched q view s
  | .elementwise q view => Sys2Proof.Machine.execElementwise q view s
  | .move q view => Sys2Proof.Machine.execMove q view s
  | .windowWrite q view => Sys2Proof.Machine.execWindowWrite q view s
  | .waitCount q view => Sys2Proof.Machine.execWaitCount q view s
  | .signal q view => Sys2Proof.Machine.execSignal q view s
  | .fence q view => Sys2Proof.Machine.execFence q view s
  | .secureState q view => Sys2Proof.Machine.execSecureState q view s
  | .journalMark q view => Sys2Proof.Machine.execJournalMark q view s
  | .restoreCheck q view => Sys2Proof.Machine.execRestoreCheck q view s
  | .scrub q view => Sys2Proof.Machine.execScrub q view s
  | .descriptorRead q => Sys2Proof.Machine.execDescriptorRead q s
  | .operationCompletion op => Sys2Proof.Machine.execOperationCompletion op s
  | .feederFetch core sideB line part ecc => Sys2Proof.Machine.execFeederFetch core sideB line part ecc s
  | .passStart core => Sys2Proof.Machine.execPassStart core s
  | .blockPromotion core => Sys2Proof.Machine.execBlockPromotion core s
  | .tileComplete core => Sys2Proof.Machine.execTileComplete core s
  | .slugEnqueue core => Sys2Proof.Machine.execSlugEnqueue core s
  | .slugDrain core ecc => Sys2Proof.Machine.execSlugDrain core ecc s
  | .tileBufferFill core buf seg => Sys2Proof.Machine.execTileBufferFill core buf seg s
  | .recastWrite core => Sys2Proof.Machine.execRecastWrite core s
  | .slugCommit core => Sys2Proof.Machine.execSlugCommit core s
  | .bankAccess cluster bank idx ecc => Sys2Proof.Machine.execBankAccess cluster bank idx ecc s
  | .parkedAccessServe cluster bank => Sys2Proof.Machine.execParkedAccessServe cluster bank s
  | .tagTimeout cluster bank idx => Sys2Proof.Machine.execTagTimeout cluster bank idx s
  | .bankWakeDone cluster row => Sys2Proof.Machine.execBankWakeDone cluster row s
  | .bankKeepReturn cluster bank => Sys2Proof.Machine.execBankKeepReturn cluster bank s
  | .closeTimeout cluster bank => Sys2Proof.Machine.execCloseTimeout cluster bank s
  | .patrolScrub cluster bank row ecc => Sys2Proof.Machine.execPatrolScrub cluster bank row ecc s
  | .windowCloseComplete cluster handle => Sys2Proof.Machine.execWindowCloseComplete cluster handle s
  | .waitCountTimeout op => Sys2Proof.Machine.execWaitCountTimeout op s
  | .winOpen a cluster word v => Sys2Proof.Machine.execWinOpen a cluster word v s
  | .tagReset a cluster v => Sys2Proof.Machine.execTagReset a cluster v s
  | .wwr w => Sys2Proof.Machine.execWwr w s
  | .wwa w => Sys2Proof.Machine.execWwa w s
  | .rdr port tag status data => Sys2Proof.Machine.execRdr port tag status data s
  | .atr port tag status data => Sys2Proof.Machine.execAtr port tag status data s
  | .wack port tag status => Sys2Proof.Machine.execWack port tag status s
  | .mack port tag status => Sys2Proof.Machine.execMack port tag status s
  | .flack port tag status => Sys2Proof.Machine.execFlack port tag status s
  | .huberr port hdr => Sys2Proof.Machine.execHuberr port hdr s
  | .headerFlitReceive port lane flit crc => Sys2Proof.Machine.execHeaderFlitReceive port lane flit crc s
  | .replayRequest port ack => Sys2Proof.Machine.execReplayRequest port ack s
  | .portTrainingStart port => Sys2Proof.Machine.execPortTrainingStart port s
  | .trainingStateEnd port obs => Sys2Proof.Machine.execTrainingStateEnd port obs s
  | .tsFlitReceive port lane flit crc => Sys2Proof.Machine.execTsFlitReceive port lane flit crc s
  | .pwakeIRise edge => Sys2Proof.Machine.execPwakeIRise edge s
  | .strobeLoss port lane => Sys2Proof.Machine.execStrobeLoss port lane s
  | .rgwr a off v => Sys2Proof.Machine.execRgwr a off v s
  | .dbTailWrite a q v => Sys2Proof.Machine.execDbTailWrite a q v s
  | .cplHeadWrite a q v => Sys2Proof.Machine.execCplHeadWrite a q v s
  | .ringLoWrite a q v => Sys2Proof.Machine.execRingLoWrite a q v s
  | .cplLoWrite a q v => Sys2Proof.Machine.execCplLoWrite a q v s
  | .queueEnable a q v => Sys2Proof.Machine.execQueueEnable a q v s
  | .resume a q v => Sys2Proof.Machine.execResume a q v s
  | .intStatusWrite a page v => Sys2Proof.Machine.execIntStatusWrite a page v s
  | .intEnableWrite a page v => Sys2Proof.Machine.execIntEnableWrite a page v s
  | .intvCtrlWrite a vec v => Sys2Proof.Machine.execIntvCtrlWrite a vec v s
  | .errCauseClear a page v => Sys2Proof.Machine.execErrCauseClear a page v s
  | .fxStatusClear a cluster v => Sys2Proof.Machine.execFxStatusClear a cluster v s
  | .rescueLogClear a cluster v => Sys2Proof.Machine.execRescueLogClear a cluster v s
  | .pageCommit a page v => Sys2Proof.Machine.execPageCommit a page v s
  | .shadowDiscard a page v => Sys2Proof.Machine.execShadowDiscard a page v s
  | .dieCommit a v => Sys2Proof.Machine.execDieCommit a v s
  | .commitAdoption page => Sys2Proof.Machine.execCommitAdoption page s
  | .portRetrainRequest a port v => Sys2Proof.Machine.execPortRetrainRequest a port v s
  | .positionWrite a v => Sys2Proof.Machine.execPositionWrite a v s
  | .testctlUnlock a v => Sys2Proof.Machine.execTestctlUnlock a v s
  | .tInjArm a page v => Sys2Proof.Machine.execTInjArm a page v s
  | .tQuadWrite a cluster v => Sys2Proof.Machine.execTQuadWrite a cluster v s
  | .nowLoRead a => Sys2Proof.Machine.execNowLoRead a s
  | .energyLoRead a cluster => Sys2Proof.Machine.execEnergyLoRead a cluster s
  | .ticketLoRead a t => Sys2Proof.Machine.execTicketLoRead a t s
  | .unticketedLoRead a => Sys2Proof.Machine.execUnticketedLoRead a s
  | .measSeqWrite a v => Sys2Proof.Machine.execMeasSeqWrite a v s
  | .ticketRelease a v => Sys2Proof.Machine.execTicketRelease a v s
  | .learnClear a v => Sys2Proof.Machine.execLearnClear a v s
  | .journalEnable a v view => Sys2Proof.Machine.execJournalEnable a v view s
  | .retireWrite a q v => Sys2Proof.Machine.execRetireWrite a q v s
  | .replayCmdStart a v view => Sys2Proof.Machine.execReplayCmdStart a v view s
  | .replayEntry view => Sys2Proof.Machine.execReplayEntry view s
  | .replayInFlight view => Sys2Proof.Machine.execReplayInFlight view s
  | .secureSnapshotPoint op => Sys2Proof.Machine.execSecureSnapshotPoint op s
  | .secureDrain op cluster => Sys2Proof.Machine.execSecureDrain op cluster s
  | .secureComplete op => Sys2Proof.Machine.execSecureComplete op s
  | .gCtrlForm a v => Sys2Proof.Machine.execGCtrlForm a v s
  | .gCtrlDissolve a v => Sys2Proof.Machine.execGCtrlDissolve a v s
  | .concordRound g => Sys2Proof.Machine.execConcordRound g s
  | .concordEvaluate g => Sys2Proof.Machine.execConcordEvaluate g s
  | .peerLost a pos pkg => Sys2Proof.Machine.execPeerLost a pos pkg s
  | .peerBack a pos pkg => Sys2Proof.Machine.execPeerBack a pos pkg s
  | .peerSpare a pos pkg => Sys2Proof.Machine.execPeerSpare a pos pkg s
  | .isolate a => Sys2Proof.Machine.execIsolate a s
  | .grant a v => Sys2Proof.Machine.execGrant a v s
  | .deny a => Sys2Proof.Machine.execDeny a s
  | .softwareSideSignal a code => Sys2Proof.Machine.execSoftwareSideSignal a code s
  | .refclkLoss present => Sys2Proof.Machine.execRefclkLoss present s
  | .tbaseFrame copy f => Sys2Proof.Machine.execTbaseFrame copy f s
  | .readmit => Sys2Proof.Machine.execReadmit s
  | .readmitTrain obs => Sys2Proof.Machine.execReadmitTrain obs s
  | .sbUcodeWrite hi v => Sys2Proof.Machine.execSbUcodeWrite hi v s
  | .setdasa addr => Sys2Proof.Machine.execSetdasa addr s
  | .rstdaa => Sys2Proof.Machine.execRstdaa s
  | .enec => Sys2Proof.Machine.execEnec s
  | .disec => Sys2Proof.Machine.execDisec s
  | .getpid => Sys2Proof.Machine.execGetpid s
  | .getbcr => Sys2Proof.Machine.execGetbcr s
  | .getdcr => Sys2Proof.Machine.execGetdcr s
  | .getstatus => Sys2Proof.Machine.execGetstatus s
  | .rstact action => Sys2Proof.Machine.execRstact action s
  | .targetResetPattern => Sys2Proof.Machine.execTargetResetPattern s
  | .tapInstruction load => Sys2Proof.Machine.execTapInstruction load s
  | .coldReset cause => Sys2Proof.Machine.execColdReset cause s
  | .warmReset => Sys2Proof.Machine.execWarmReset s
  | .vokRise d => Sys2Proof.Machine.execVokRise d s
  | .supplyFault d => Sys2Proof.Machine.execSupplyFault d s
  | .vokLate d => Sys2Proof.Machine.execVokLate d s
  | .supplyFaultEnd d => Sys2Proof.Machine.execSupplyFaultEnd d s
  | .islandStepConfirm d => Sys2Proof.Machine.execIslandStepConfirm d s
  | .controlPeriod => Sys2Proof.Machine.execControlPeriod s
  | .emergencyLift => Sys2Proof.Machine.execEmergencyLift s
  | .calStale => Sys2Proof.Machine.execCalStale s
  | .droopDetect island => Sys2Proof.Machine.execDroopDetect island s
  | .droopQuiet island => Sys2Proof.Machine.execDroopQuiet island s
  | .thermalSample readings => Sys2Proof.Machine.execThermalSample readings s
  | .throttleStep sensor => Sys2Proof.Machine.execThrottleStep sensor s
  | .throttleReleaseStep sensor => Sys2Proof.Machine.execThrottleReleaseStep sensor s
  | .sensorTimeout sensor => Sys2Proof.Machine.execSensorTimeout sensor s
  | .healthEvaluation view => Sys2Proof.Machine.execHealthEvaluation view s
  | .islandStillEntry cluster => Sys2Proof.Machine.execIslandStillEntry cluster s
  | .islandKeepEntry cluster => Sys2Proof.Machine.execIslandKeepEntry cluster s
  | .islandWake cluster => Sys2Proof.Machine.execIslandWake cluster s
  | .coolstopBond => Sys2Proof.Machine.execCoolstopBond s
  | .coolstopCcc => Sys2Proof.Machine.execCoolstopCcc s
  | .islandReset a v => Sys2Proof.Machine.execIslandReset a v s
  | .blockReset a v => Sys2Proof.Machine.execBlockReset a v s
  | .shutdown a v view => Sys2Proof.Machine.execShutdown a v view s
  | .shutdownFinish => Sys2Proof.Machine.execShutdownFinish s
  | .watchdogExpiry cluster => Sys2Proof.Machine.execWatchdogExpiry cluster s
  | .fuseRead agree => Sys2Proof.Machine.execFuseRead agree s
  | .stewardBoot r => Sys2Proof.Machine.execStewardBoot r s
  | .portsStartup obs => Sys2Proof.Machine.execPortsStartup obs s
  | .microcodeFetch view => Sys2Proof.Machine.execMicrocodeFetch view s
  | .storeSelfTest obs => Sys2Proof.Machine.execStoreSelfTest obs s
  | .numericSelfTest agree => Sys2Proof.Machine.execNumericSelfTest agree s
  | .admission => Sys2Proof.Machine.execAdmission s
  | .selftest a v r => Sys2Proof.Machine.execSelftest a v r s
  | .random a v => Sys2Proof.Machine.execRandom a v s
  | .attest a v => Sys2Proof.Machine.execAttest a v s
  | .coChallenge a v => Sys2Proof.Machine.execCoChallenge a v s
  | .coLogin a v => Sys2Proof.Machine.execCoLogin a v s
  | .coLogout a v => Sys2Proof.Machine.execCoLogout a v s
  | .loadKey a v => Sys2Proof.Machine.execLoadKey a v s
  | .clearKey a v => Sys2Proof.Machine.execClearKey a v s
  | .zeroise a v => Sys2Proof.Machine.execZeroise a v s
  | .fuseOwner a v => Sys2Proof.Machine.execFuseOwner a v s
  | .raiseSvn a v => Sys2Proof.Machine.execRaiseSvn a v s
  | .kill a v => Sys2Proof.Machine.execKill a v s
  | .protApply a v => Sys2Proof.Machine.execProtApply a v s
  | .taskEnd a v => Sys2Proof.Machine.execTaskEnd a v s
  | .auditRingSizeWrite a v => Sys2Proof.Machine.execAuditRingSizeWrite a v s
  | .auditReadWrite a v => Sys2Proof.Machine.execAuditReadWrite a v s
  | .rgrd a off => Sys2Proof.Machine.execRgrd a off s
  | .timeBaseLost => Sys2Proof.Machine.execTimeBaseLost s
  | .entropyHealthTestFailure => Sys2Proof.Machine.execEntropyHealthTestFailure s

end Sys2Proof.Machine
end

