-- ==== Sys2Proof/Machine/Tick.lean ====
section
/-!
DEFINITION. What the die does on its own in one reference period with no command waiting (log entry 10):
the locked time base advances by the reference period, and the ports send.
-/

namespace Sys2Proof.Machine

/-- One period of REFCLK: 10 ns on a locked time base (R300); an unlocked or stopped one stands, and one without a
reference copy (R6). The ports send what waits for them (R275 to R280). -/
def tick (s : State) : State :=
  let s := if s.time.lock && s.time.ref != 0 && !s.stopped then { s with time := { s.time with now := (s.time.now + 10) % 2 ^ 64 } } else s
  s.pumpPorts

end Sys2Proof.Machine
end

