-- ==== Sys2Proof/Safety.lean ====
section
/-!
DEFINITION. What claims are stated in: the invariant of the block, the fuses' one-way order, and the relations
between the states before and after a command.
-/

namespace Sys2Proof.Machine

/-- The parts of the state. -/
inductive Field where
  | regs | shad | store | full | moved | banks | xbar | parked | closing | owners | endedOwners | stage
  | cores | islands | queues | ops | nextOp | ports | out | outst | vecBusy | prot | groups | time | sb
  | fuses | sec | audit | latched | securing | power | therm | health | replay | journal | jfloor | images
  | recovery | mute | stopped | shut | shutResult | commitHold | injected | turn | free | pending
  deriving DecidableEq, Repr

/-- Two states agree in one part. -/
abbrev Field.same : Field → State → State → Prop
  | .regs, s, t => t.regs = s.regs
  | .shad, s, t => t.shad = s.shad
  | .store, s, t => t.store = s.store
  | .full, s, t => t.full = s.full
  | .moved, s, t => t.moved = s.moved
  | .banks, s, t => t.banks = s.banks
  | .xbar, s, t => t.xbar = s.xbar
  | .parked, s, t => t.parked = s.parked
  | .closing, s, t => t.closing = s.closing
  | .owners, s, t => t.owners = s.owners
  | .endedOwners, s, t => t.endedOwners = s.endedOwners
  | .stage, s, t => t.stage = s.stage
  | .cores, s, t => t.cores = s.cores
  | .islands, s, t => t.islands = s.islands
  | .queues, s, t => t.queues = s.queues
  | .ops, s, t => t.ops = s.ops
  | .nextOp, s, t => t.nextOp = s.nextOp
  | .ports, s, t => t.ports = s.ports
  | .out, s, t => t.out = s.out
  | .outst, s, t => t.outst = s.outst
  | .vecBusy, s, t => t.vecBusy = s.vecBusy
  | .prot, s, t => t.prot = s.prot
  | .groups, s, t => t.groups = s.groups
  | .time, s, t => t.time = s.time
  | .sb, s, t => t.sb = s.sb
  | .fuses, s, t => t.fuses = s.fuses
  | .sec, s, t => t.sec = s.sec
  | .audit, s, t => t.audit = s.audit
  | .latched, s, t => t.latched = s.latched
  | .securing, s, t => t.securing = s.securing
  | .power, s, t => t.power = s.power
  | .therm, s, t => t.therm = s.therm
  | .health, s, t => t.health = s.health
  | .replay, s, t => t.replay = s.replay
  | .journal, s, t => t.journal = s.journal
  | .jfloor, s, t => t.jfloor = s.jfloor
  | .images, s, t => t.images = s.images
  | .recovery, s, t => t.recovery = s.recovery
  | .mute, s, t => t.mute = s.mute
  | .stopped, s, t => t.stopped = s.stopped
  | .shut, s, t => t.shut = s.shut
  | .shutResult, s, t => t.shutResult = s.shutResult
  | .commitHold, s, t => t.commitHold = s.commitHold
  | .injected, s, t => t.injected = s.injected
  | .turn, s, t => t.turn = s.turn
  | .free, s, t => t.free = s.free
  | .pending, s, t => t.pending = s.pending

/-- Every part of the state. -/
def Field.all : List Field :=
  [.regs, .shad, .store, .full, .moved, .banks, .xbar, .parked, .closing, .owners, .endedOwners, .stage, .cores,
    .islands, .queues, .ops, .nextOp, .ports, .out, .outst, .vecBusy, .prot, .groups, .time, .sb, .fuses, .sec,
    .audit, .latched, .securing, .power, .therm, .health, .replay, .journal, .jfloor, .images, .recovery, .mute,
    .stopped, .shut, .shutResult, .commitHold, .injected, .turn, .free, .pending]

/-- Every part of the state but those named. -/
def allBut (l : List Field) : List Field := Field.all.filter (!l.contains ·)

/-- The parts of the state that a command may change; every other part stays as it was. -/
def mayChange : Instr → List Field
  | .matmul _ _ | .conv _ _ | .batched _ _ | .elementwise _ _ | .move _ _ | .windowWrite _ _
  | .waitCount _ _ | .signal _ _ | .fence _ _ | .secureState _ _ | .journalMark _ _ | .restoreCheck _ _
  | .scrub _ _ | .descriptorRead _ =>
    allBut [.prot, .time, .sb, .fuses, .audit, .latched, .therm, .replay, .jfloor, .images, .recovery, .mute,
      .stopped, .shut, .shutResult, .commitHold, .pending]
  | .operationCompletion _ =>
    [.ops, .ports, .out, .outst, .groups, .power]
  | .feederFetch _ _ _ _ _ | .blockPromotion _ | .slugDrain _ _ | .bankWakeDone _ _
  | .patrolScrub _ _ _ _ =>
    [.regs, .shad, .store, .full, .banks, .xbar, .parked, .stage, .cores, .islands, .queues, .ops, .ports,
      .out, .outst, .vecBusy, .securing, .power, .health, .replay, .injected, .free]
  | .passStart _ =>
    [.regs, .cores, .ports, .out, .outst, .vecBusy, .power]
  | .tileComplete _ =>
    [.cores]
  | .slugEnqueue _ =>
    [.regs, .cores]
  | .tileBufferFill _ _ _ =>
    [.xbar, .stage, .cores, .ports, .out, .outst, .power]
  | .recastWrite _ =>
    [.xbar, .cores, .ops, .ports, .out, .outst, .power]
  | .slugCommit _ =>
    [.cores, .ops]
  | .bankAccess _ _ _ _ | .parkedAccessServe _ _ =>
    [.regs, .shad, .store, .full, .moved, .banks, .xbar, .parked, .closing, .stage, .cores, .islands, .queues,
      .ops, .ports, .out, .outst, .vecBusy, .securing, .power, .health, .replay, .injected, .free]
  | .tagTimeout _ _ _ | .closeTimeout _ _ =>
    [.regs, .shad, .store, .full, .banks, .xbar, .parked, .stage, .cores, .islands, .ops, .ports, .out,
      .outst, .vecBusy, .securing, .power]
  | .bankKeepReturn _ _ =>
    [.banks]
  | .windowCloseComplete _ _ =>
    [.regs, .shad, .store, .full, .banks, .closing, .owners, .endedOwners, .stage, .cores, .islands, .ops,
      .ports, .out, .outst, .vecBusy, .power]
  | .waitCountTimeout _ =>
    [.closing, .ops]
  | .winOpen _ _ _ _ | .tagReset _ _ _ | .rgwr _ _ _ | .dbTailWrite _ _ _ | .cplHeadWrite _ _ _
  | .ringLoWrite _ _ _ | .cplLoWrite _ _ _ | .queueEnable _ _ _ | .resume _ _ _ | .intStatusWrite _ _ _
  | .intEnableWrite _ _ _ | .intvCtrlWrite _ _ _ | .errCauseClear _ _ _ | .fxStatusClear _ _ _
  | .rescueLogClear _ _ _ | .pageCommit _ _ _ | .shadowDiscard _ _ _ | .dieCommit _ _
  | .portRetrainRequest _ _ _ | .positionWrite _ _ | .testctlUnlock _ _ | .tInjArm _ _ _ | .tQuadWrite _ _ _
  | .measSeqWrite _ _ | .ticketRelease _ _ | .learnClear _ _ | .journalEnable _ _ _ | .retireWrite _ _ _
  | .replayCmdStart _ _ _ | .gCtrlForm _ _ | .gCtrlDissolve _ _ | .islandReset _ _ | .blockReset _ _
  | .shutdown _ _ _ | .selftest _ _ _ | .random _ _ | .attest _ _ | .coChallenge _ _ | .coLogin _ _
  | .coLogout _ _ | .loadKey _ _ | .clearKey _ _ | .zeroise _ _ | .fuseOwner _ _ | .raiseSvn _ _ | .kill _ _
  | .protApply _ _ | .taskEnd _ _ | .auditRingSizeWrite _ _ | .auditReadWrite _ _ =>
    allBut [.moved, .closing, .nextOp, .time, .latched, .therm, .mute, .stopped, .turn, .pending]
  | .wwr _ | .wwa _ =>
    [.regs, .xbar, .ports, .out, .outst, .vecBusy, .power, .free]
  | .rdr _ _ _ _ =>
    [.regs, .shad, .store, .full, .banks, .xbar, .parked, .stage, .cores, .islands, .queues, .ops, .nextOp,
      .ports, .out, .outst, .vecBusy, .securing, .power, .health, .replay, .injected, .free]
  | .atr _ _ _ _ =>
    [.regs, .xbar, .parked, .cores, .ops, .ports, .out, .outst, .vecBusy, .securing, .power]
  | .wack _ _ _ =>
    [.regs, .xbar, .parked, .cores, .ops, .ports, .out, .outst, .vecBusy, .groups, .securing, .power]
  | .mack _ _ _ =>
    [.regs, .xbar, .parked, .cores, .ops, .ports, .out, .outst, .vecBusy, .securing, .power, .free]
  | .flack _ _ _ =>
    allBut [.moved, .closing, .nextOp, .prot, .time, .sb, .fuses, .sec, .audit, .latched, .therm, .images,
      .recovery, .mute, .stopped, .turn, .pending]
  | .huberr _ _ =>
    [.regs, .xbar, .parked, .cores, .queues, .ops, .ports, .out, .outst, .vecBusy, .securing, .power]
  | .headerFlitReceive _ _ _ _ =>
    allBut [.moved, .closing, .prot, .time, .fuses, .sec, .audit, .therm, .images, .recovery, .stopped, .turn,
      .pending]
  | .replayRequest _ _ | .trainingStateEnd _ _ =>
    [.regs, .shad, .store, .full, .banks, .xbar, .parked, .stage, .cores, .islands, .queues, .ops, .ports,
      .out, .outst, .vecBusy, .sb, .latched, .power, .health, .mute, .shut, .injected]
  | .portTrainingStart _ | .pwakeIRise _ | .strobeLoss _ _ =>
    [.ports]
  | .tsFlitReceive _ _ _ _ =>
    [.regs, .ports, .injected]
  | .commitAdoption _ =>
    [.regs, .shad, .store, .full, .banks, .owners, .endedOwners, .stage, .cores, .islands, .ports, .out,
      .outst, .vecBusy, .power, .commitHold]
  | .nowLoRead _ | .energyLoRead _ _ | .ticketLoRead _ _ | .unticketedLoRead _ | .rgrd _ _ =>
    [.regs, .shad, .store, .full, .banks, .xbar, .parked, .stage, .cores, .islands, .queues, .ops, .ports,
      .out, .outst, .vecBusy, .power, .health, .injected, .free]
  | .replayEntry _ =>
    allBut [.prot, .time, .sb, .fuses, .audit, .latched, .therm, .journal, .jfloor, .images, .mute, .stopped,
      .shut, .shutResult, .commitHold, .turn, .pending]
  | .replayInFlight _ =>
    [.regs, .shad, .store, .full, .banks, .xbar, .parked, .closing, .owners, .endedOwners, .stage, .cores,
      .islands, .queues, .ops, .ports, .out, .outst, .vecBusy, .groups, .securing, .power, .health, .injected,
      .free]
  | .secureSnapshotPoint _ =>
    [.regs, .ops, .ports, .out, .outst, .securing, .power]
  | .secureDrain _ _ =>
    [.regs, .store, .moved, .ops, .ports, .out, .outst, .securing, .power]
  | .secureComplete _ =>
    [.regs, .shad, .moved, .ops, .ports, .out, .outst, .vecBusy, .securing, .power, .journal, .images]
  | .concordRound _ =>
    [.ports, .out, .outst, .groups, .power]
  | .concordEvaluate _ =>
    [.regs, .ops, .ports, .out, .outst, .vecBusy, .groups, .securing, .power, .free]
  | .peerLost _ _ _ =>
    [.regs, .ops, .ports, .out, .outst, .vecBusy, .groups, .securing, .power]
  | .peerBack _ _ _ | .peerSpare _ _ _ =>
    [.regs, .ports, .out, .power]
  | .isolate _ | .deny _ =>
    [.regs, .shad, .store, .full, .banks, .xbar, .parked, .stage, .cores, .islands, .queues, .ops, .ports,
      .out, .outst, .vecBusy, .sb, .latched, .power, .mute, .shut]
  | .grant _ _ =>
    [.regs, .queues, .ops, .ports, .out, .outst, .vecBusy, .groups, .sb, .securing, .power, .health, .replay,
      .journal, .jfloor, .recovery, .free]
  | .softwareSideSignal _ _ | .calStale | .sensorTimeout _ =>
    [.regs, .ports, .out, .outst, .vecBusy, .power]
  | .refclkLoss _ | .tbaseFrame _ _ | .timeBaseLost =>
    [.regs, .shad, .store, .full, .banks, .xbar, .parked, .stage, .cores, .islands, .queues, .ops, .ports,
      .out, .outst, .vecBusy, .time, .sb, .latched, .power, .mute, .shut]
  | .readmit | .islandStillEntry _ | .islandKeepEntry _ =>
    [.regs]
  | .readmitTrain _ =>
    [.regs, .shad, .store, .full, .banks, .xbar, .parked, .stage, .cores, .islands, .queues, .ops, .ports,
      .out, .outst, .vecBusy, .time, .sb, .latched, .power, .health, .mute, .shut, .injected]
  | .sbUcodeWrite _ _ | .setdasa _ | .rstdaa | .enec | .disec | .getpid | .getbcr | .getdcr | .getstatus
  | .rstact _ | .fuseRead _ =>
    [.regs, .sb, .free]
  | .targetResetPattern | .warmReset =>
    allBut [.prot, .fuses, .pending]
  | .tapInstruction _ =>
    [.sb]
  | .coldReset _ =>
    allBut [.out, .fuses, .free, .pending]
  | .vokRise _ =>
    [.regs, .sb]
  | .supplyFault _ | .controlPeriod =>
    [.regs, .islands, .ports, .out, .outst, .vecBusy, .sb, .power]
  | .vokLate _ =>
    [.regs, .islands, .ports, .out, .outst, .vecBusy, .power]
  | .supplyFaultEnd _ =>
    [.regs, .islands, .sb]
  | .islandStepConfirm _ =>
    [.regs, .sb, .power]
  | .emergencyLift | .droopQuiet _ | .throttleStep _ | .throttleReleaseStep _ =>
    [.islands]
  | .droopDetect _ =>
    [.regs, .islands, .ports, .out, .outst, .vecBusy, .power, .health]
  | .thermalSample _ =>
    [.regs, .shad, .store, .full, .moved, .banks, .xbar, .parked, .stage, .cores, .islands, .queues, .ops,
      .ports, .out, .outst, .vecBusy, .sb, .power, .therm, .mute, .stopped, .free]
  | .healthEvaluation _ =>
    [.regs, .queues, .ports, .out, .outst, .vecBusy, .power, .health, .free]
  | .islandWake _ =>
    [.regs, .shad, .store, .full, .banks, .stage, .cores, .islands, .ports, .out, .outst, .vecBusy, .power]
  | .coolstopBond | .coolstopCcc =>
    [.regs, .shad, .store, .full, .moved, .banks, .xbar, .parked, .stage, .cores, .islands, .queues, .ops,
      .ports, .out, .outst, .vecBusy, .sb, .power, .mute, .stopped]
  | .shutdownFinish =>
    [.regs, .shad, .store, .full, .moved, .banks, .xbar, .parked, .closing, .owners, .endedOwners, .stage,
      .cores, .islands, .queues, .ops, .ports, .out, .outst, .vecBusy, .sb, .sec, .audit, .power, .mute, .shut]
  | .watchdogExpiry _ =>
    [.regs, .shad, .store, .full, .banks, .xbar, .parked, .stage, .cores, .islands, .ops, .ports, .out,
      .outst, .vecBusy, .securing, .power, .health, .replay]
  | .stewardBoot _ =>
    [.regs, .shad, .store, .full, .banks, .xbar, .parked, .stage, .cores, .islands, .queues, .ops, .ports,
      .out, .outst, .vecBusy, .sb, .sec, .audit, .power, .health, .free]
  | .portsStartup _ =>
    [.regs, .shad, .store, .full, .banks, .xbar, .parked, .stage, .cores, .islands, .queues, .ops, .ports,
      .out, .outst, .vecBusy, .sb, .latched, .power, .health, .mute, .shut, .injected, .free]
  | .microcodeFetch _ =>
    [.regs, .ports, .out, .outst, .vecBusy, .sb, .sec, .audit, .power, .free]
  | .storeSelfTest _ =>
    [.regs, .store, .full, .banks, .sb, .free]
  | .numericSelfTest _ =>
    [.regs, .cores, .sb, .free]
  | .admission =>
    [.regs, .ports, .out, .outst, .sb, .latched, .power]
  | .entropyHealthTestFailure =>
    [.regs, .shad, .store, .full, .banks, .xbar, .parked, .stage, .cores, .islands, .queues, .ops, .ports,
      .out, .outst, .vecBusy, .sec, .audit, .power, .health, .free]

/-- Fuses are only ever blown (R441, R444, R450): the identity key, the serial number and ROOT_HASH stay, the SVN_MIN count never
falls, an OWNER_HASH that has been set stays, and so does KILL. -/
structure FuseLe (a b : Fuses) : Prop where
  identity : b.identity = a.identity
  serial : b.serial = a.serial
  root   : b.rootHash = a.rootHash
  svn    : a.svnMin ≤ b.svnMin
  owner  : ∀ h, a.ownerHash = some h → b.ownerHash = some h
  killed : a.killed = true → b.killed = true

/-- The transactions issued so far stay issued, in their order. -/
def OutExtends (s t : State) : Prop := ∃ l, t.out = s.out ++ l

/-- The central stores are in their one canonical form, and at most 16 audit records are held on the die (R459). -/
structure Inv (s : State) : Prop where
  store : Memory.wf s.store = true
  held  : s.audit.held.length ≤ 16

/-- Among what the die has issued since `s` stands this transaction, first of all. -/
def IssuesFirst (s t : State) (m : Txn) : Prop := ∃ l, t.out = s.out ++ m :: l

/-- Among what the die has issued since `s` stands this transaction. -/
def Issues (s t : State) (m : Txn) : Prop := ∃ k l, t.out = s.out ++ k ++ m :: l

/-- The MACK that answers a side signal (R289): header fields echoed, STATUS 00h. -/
def mackOf (a : Access) : Txn :=
  { port := a.port, op := .mack, tag := a.tag.toNat, stream := a.stream.toNat, srcpos := a.srcpos.toNat,
    srcpkg := a.srcpkg.toNat }

/-- The die serves side signals at this port: it issues transactions, the port has trained and is not down, and
start-up has not failed (R289, R310, R468). -/
def Hears (s : State) (a : Access) : Prop := s.heard a.port.val = true ∧ s.bootFailed = false

/-- Active or spare, and in service: admitted, not stopped and not shut down (R298, R462). -/
def InService (s : State) : Prop := s.bootStep = 10 ∧ (s.admitSt = 2 ∨ s.admitSt = 3) ∧ s.stopped = false

/-- Nothing is armed for injection on the page or core at this base (R357). -/
def Unarmed (s : State) (base : Nat) : Prop := bit (s.regN (base + 0xF10)) 31 = false

/-- The instruction that the test access port takes: one that needs the unlock acts as BYPASS without it (R305). -/
def tapEffective (s : State) (i : TapInstr) : TapInstr :=
  match i with
  | .other n => if bit (s.regN 0x7F100) 0 = true then .other n else .bypass
  | i => i

/-- The side-band after an instruction of the test access port and its scan: the bypass bit, the identification code, or
the wrapper register with a capture of the bonds and its new cells. -/
def tapResult (b : SideBand) (i : TapInstr) (x : TapScan) : SideBand :=
  match i with
  | .bypass => { b with tap := i, tapOut := (false :: x.bits).dropLast }
  | .idcode =>
    let code := 2 ^ 28 * 2 + 2 ^ 12 * 0x0C80 + 2 * Config.jedecCode.toNat + 1
    { b with tap := i, tapOut := (List.range 32).map fun k => code.testBit k }
  | .extest => { b with tap := i, wrapper := x.cells, tapOut := (List.range 78144).map fun k => x.bonds.contains k }
  | .other _ => { b with tap := i, tapOut := [] }

/-- What the die observes while the ports train lets every port come UP at full health: the hub answers with training sets
that ask for no repair, no bond is found bad and nothing is armed for injection (R269 to R272). -/
structure TrainsWell (s : State) (obs : ContObs) : Prop where
  down    : obs.down = []
  unarmed : ∀ p : Fin 32, Unarmed s (portKey p 0)
  trains  : ∀ v ∈ obs.trains, (∀ st, badBonds v.obs st false = []) ∧ v.ts1 = hubTs v.port 1 ∧
    v.ts2 = hubTs v.port 2 ∧ v.aligned = true

/-- The hub does not answer the training of a port that has to train. -/
def StaysDown (s : State) (obs : ContObs) : Prop := ∃ p ∈ obs.down, (s.port p.val).train ≠ .up

/-- The die performs this register write: accesses are served at its port, start-up has not failed, and a doorbell
comes once start-up is complete (R310, R462, R468). Nothing is armed for injection on the page at `base`. -/
structure Performs (s : State) (a : Access) (base : Nat) : Prop where
  heard   : s.heard a.port.val = true
  step    : 5 ≤ s.bootStep
  admitSt   : s.admitSt ≠ 5
  started : s.bootFailed = false
  bell    : a.msg = true → s.bootStep = 10
  unarmed : Unarmed s base

/-- Level 0 or 1 (R323). -/
def Privileged (a : Access) : Prop := a.priv = 0 ∨ a.priv = 1

/-- The bits of a mask taken from `v`, the others from `cur`: what a write leaves in a register whose writable bits are
the mask (R13). -/
def written (cur v : Word) (mask : Nat) : Word := (cur &&& ~~~ w32 mask) ||| (v &&& w32 mask)

/-- The answer to a register write or doorbell: RGWA, or MACK for a doorbell, with header fields echoed (R287, R289). -/
def rgwaOf (a : Access) (status : Nat) : Txn :=
  { port := a.port, op := if a.msg then .mack else .rgwa, tag := a.tag.toNat, stream := a.stream.toNat,
    srcpos := a.srcpos.toNat, srcpkg := a.srcpkg.toNat, status := status }

/-- The answer to a register read: RGR with the value in AUX (R287). -/
def rgrOf (a : Access) (v : Word) (status : Nat) : Txn :=
  { port := a.port, op := .rgr, tag := a.tag.toNat, stream := a.stream.toNat, srcpos := a.srcpos.toNat,
    srcpkg := a.srcpkg.toNat, status := status, aux := v.toNat }

/-- The command answers a next state, and the last thing that it issued is this transaction. -/
def Answers (c : Instr) (s t : State) (m : Txn) : Prop := exec c s = .next t ∧ ∃ l, t.out = s.out ++ l ++ [m]

/-- The write is refused for state (R326, R355): STATUS 11h, REFUSALS one higher, INT_STATUS.REFUSED set, and, where the
capture was empty, the cause with VALID and the page offset and level at 024h. -/
def RefusedForState (c : Instr) (s : State) (a : Access) (p : Page) (cause o : Nat) : Prop :=
  ∃ t, Answers c s t (rgwaOf a 0x11) ∧ t.reg (p.base + 0x48) = s.reg (p.base + 0x48) + 1 ∧
    bit (t.regN (p.base + 0x18)) 31 = true ∧
    (bit (s.regN (p.base + 0x20)) 31 = false → t.reg (p.base + 0x20) = w32 (2 ^ 31 + cause) ∧
      t.reg (p.base + 0x24) = w32 (o + a.priv.toNat * 4096))

/-- Two states differ in nothing but the queue of waiting commands. -/
def SameButQueue (s t : State) : Prop := { s with pending := [] } = { t with pending := [] }

end Sys2Proof.Machine
end

