-- ==== Sys2Proof/Certificates/Slice0/Obligations.lean ====
section
/-!
DEFINITION. The statements for the provers, family by family of the command table, each under the rules of the spec
that it rests on. `∃ t, exec c s = .next t ∧ …` says that the command completes and what the next state holds.
-/

open Sys2Proof Sys2Proof.Machine

/-- Every command completes, and the frame of each: R355 answers a register access in every state, and no chapter
gives the die a way to stop. The queue `pending` stands in no list, so no command touches it. -/
def Obligations.EveryCommandCompletesInItsFrame : Prop :=
  ∀ (c : Instr) (s : State), ∃ t, exec c s = .next t ∧ ∀ f, f ∉ mayChange c → f.same s t

/-- The invariant of the block is kept by every step. -/
def Obligations.StepKeepsTheInvariant : Prop :=
  ∀ s t : State, Inv s → step s = .next t → Inv t

/-- The invariant holds at reset. -/
def Obligations.InvariantHoldsAtReset : Prop := Inv State.reset

/-- Fuses are only ever blown, and every reset keeps them (R472). -/
def Obligations.StepOnlyBlowsFuses : Prop :=
  ∀ s t : State, step s = .next t → FuseLe s.fuses t.fuses

/-- What has left the die stays sent, in its order; a coolant stop or a thermal shutdown ends with a reset only (R391,
R477). -/
def Obligations.WhatWasSentStandsAndAStopLasts : Prop :=
  (∀ s t : State, step s = .next t → OutExtends s t) ∧
  ∀ (c : Instr) (s t : State), s.stopped = true → exec c s = .next t → t.stopped = true ∨
    c = .warmReset ∨ c = .targetResetPattern ∨ ∃ cause, c = .coldReset cause

/-- First in, first out. -/
def Obligations.StepRunsTheFrontCommand : Prop :=
  ∀ (c : Instr) (rest : List Instr) (s : State),
    step { s with pending := c :: rest } = exec c { s with pending := rest }

/-- The tick of an idle block (log entry 10, DESIGN CHOICE): R300 counts 10 per reference period. -/
def Obligations.IdleStepIsOneReferencePeriod : Prop :=
  ∀ s : State, s.pending = [] → ∃ t, step s = .next t ∧
    t.time = { s.time with now := if s.time.lock && s.time.ref != 0 && !s.stopped then (s.time.now + 10) % 2 ^ 64 else s.time.now } ∧
    ∀ f : Field, f ∉ [.time, .ports, .regs, .power] → f.same s t

/-- Commands come as transactions, flits, pins and events, never as words. -/
def Obligations.NoWordSpellsACommand : Prop :=
  ∀ (s : State) (nbits w : Nat), Sys2Proof.decodeTableWord nbits w = none ∧ s.withFetchWord nbits w = s

/-- The registers after reset, from the Reset columns of R298, R335, R353, R460 and chapter 09. -/
def Obligations.ResetValuesOfRegisters : Prop :=
  (∀ key, State.reset.reg key = regReset key) ∧
  State.reset.reg 0x1100 = 1 ∧ State.reset.reg 0x1104 = 1 ∧ State.reset.reg 0x1140 = 0x64 ∧
  State.reset.reg 0x4010C = 0 ∧ State.reset.reg 0x40104 = 0 ∧ State.reset.reg 0x4910C = 0 ∧
  State.reset.reg 0x40108 = 0xFF00 ∧ State.reset.reg 0x7F100 = 0 ∧
  (∀ q : Fin 16, State.reset.reg (queueKey q 0x10) = 0 ∧ (State.reset.queue q).st = .disabled) ∧
  State.reset.ops = [] ∧ State.reset.out = []

/-- The Cold column of R472. -/
def Obligations.ColdResetKeepsOnlyFuses : Prop :=
  ∀ (s : State) (cause : ColdCause), ∃ t, exec (.coldReset cause) s = .next t ∧
    (∀ key, t.reg key = regReset key) ∧ t.bootStep = 1 ∧ t.bootFailed = false ∧ t.admitSt = 0 ∧
    t.fuses = s.fuses ∧ t.store = [] ∧ t.full = [] ∧ t.owners = [] ∧ t.closing = [] ∧ t.cores = [] ∧
    t.queues = [] ∧ t.ops = [] ∧ t.outst = [] ∧ t.prot = [] ∧ t.groups = [] ∧ t.sec.keys = [] ∧
    t.sec.kaPriv = [] ∧ t.sec.session = false ∧ t.sec.failed = 0 ∧ t.audit.held = [] ∧ t.journal = [] ∧
    t.power.energy = [] ∧ t.stopped = false ∧
    t.sb.dynAddr = none ∧ t.sb.ibi = false ∧ t.sb.wroteLo = false ∧ t.sb.wroteHi = false ∧
    t.sb.ucodeLo = 0 ∧ t.sb.ucodeHi = 0 ∧
    t.pending = s.pending ∧ t.out = s.out

/-- The Warm column of R472, and R465's step. Whether a bond that went low has risen is a free value, log entry 21. -/
def Obligations.WarmResetKeepsWhatTheTableKeeps : Prop :=
  ∀ s : State,
    (s.sb.bondLow = true → ∃ low : Bool, exec .warmReset s = if low then .next { s with free := s.free + 1 }
      else exec .warmReset { s with free := s.free + 1, sb := { s.sb with bondLow := false } }) ∧
    (s.sb.bondLow = false → s.tooHot = true → exec .warmReset s = .next s) ∧
    (s.sb.bondLow = false → s.tooHot = false → ∃ t, exec .warmReset s = .next t ∧ t.sb.bondLow = false ∧
      t.fuses = s.fuses ∧ t.sb.dynAddr = s.sb.dynAddr ∧ t.sb.ibi = s.sb.ibi ∧
      t.sb.ucodeLo = s.sb.ucodeLo ∧ t.sb.ucodeHi = s.sb.ucodeHi ∧ t.sb.bootFailed = s.sb.bootFailed ∧
      t.reg 0x40104 = s.reg 0x40104 ∧ t.reg 0x4910C = s.reg 0x4910C ∧ t.prot = s.prot ∧
      t.reg 0x56144 = s.reg 0x56144 ∧ t.power.energy = s.power.energy ∧
      t.regF 0x4C100 8 8 = s.regF 0x4C100 8 8 ∧ t.sec.failed = s.sec.failed ∧
      (s.testUnlocked = false → t.audit = s.audit ∧ ∀ k, 0x55000 ≤ k → k < 0x55F00 → t.reg k = s.reg k) ∧
      t.reg 0x1104 = 2 ∧
      (∀ k, warmKept k = false → k ≠ 0x1100 → k ≠ 0x1104 → k ≠ 0x4C100 → t.reg k = regReset k) ∧
      t.sec.keys = [] ∧ t.sec.kaPriv = [] ∧ t.sec.session = false ∧ t.store = [] ∧ t.full = [] ∧ t.owners = [] ∧
      t.cores = [] ∧ t.queues = [] ∧ t.ops = [] ∧ t.outst = [] ∧ t.groups = [] ∧ t.stopped = false ∧ t.mute = false ∧
      t.bootStep = if s.sb.wroteLo && s.sb.wroteHi then 3 else 2)

/-- R304's sentence, whole. -/
def Obligations.TargetResetPatternFollowsRstact : Prop :=
  ∀ s : State,
    (s.sb.rstact = 1 ∨ s.sb.rstact = 2 → exec .targetResetPattern s = exec .warmReset s) ∧
    (s.sb.rstact = 0 → exec .targetResetPattern s = .next s)

/-- The passing side of start-up. -/
def Obligations.StartupStepsPass : Prop :=
  ∀ s : State,
    (s.inStep 3 = true → ∃ t, exec (.fuseRead true) s = .next t ∧ t.bootStep = 4 ∧ t.bootFailed = false) ∧
    (s.inStep 4 = true → ∃ t, exec (.stewardBoot .pass) s = .next t ∧ t.bootStep = 5 ∧ t.bootFailed = false ∧
      t.sec.testOk = true) ∧
    (∀ obs : ContObs, s.inStep 5 = true → TrainsWell s obs → ∃ t, exec (.portsStartup obs) s = .next t ∧
      t.bootStep = 6 ∧ t.bootFailed = false ∧ ∀ p : Fin 32, (t.port p).train = .up ∧
        t.reg (portKey p 0x10C) = w32 (((obs.failed.find? fun x => x.1 == p).map fun x => x.2.toNat).getD 0)) ∧
    (∀ view : HubView, s.inStep 6 = true →
      let h := viewBytes view s.ucodeAddr 256
      let body := viewBytes view (s.ucodeAddr + 256) (bytesAt h 12 4)
      let meas := sha384 (h.take 160 ++ body)
      let key := (h.drop 64).take 96
      bootOk view s.ucodeAddr 256 = true → imageHeaderOk h = true →
      bootOk view (s.ucodeAddr + 256) (bytesAt h 12 4) = true → sha384 key = s.fuses.rootHash →
      ecdsaVerify key meas ((h.drop 160).take 96) = true → s.fuses.svnMin ≤ bytesAt h 8 4 →
      ∃ t, exec (.microcodeFetch view) s = .next t ∧ t.bootStep = 7 ∧ t.bootFailed = false ∧
        t.regN 0x1108 = bytesAt h 4 4 ∧ t.sec.ucodeMeas = meas ∧ t.sec.svn = bytesAt h 8 4) ∧
    (∀ obs : StoreTestObs, s.inStep 7 = true → (∀ p ∈ obs.repaired, p.2 ≤ 8) → obs.coreFail = false →
      ∃ t, exec (.storeSelfTest obs) s = .next t ∧ t.bootStep = 8 ∧ t.bootFailed = false ∧ t.store = [] ∧ t.full = [] ∧
        t.banks = s.restingBanks ∧ t.regF 0x110C 0 16 = (obs.repaired.map (·.2)).sum % 2 ^ 16) ∧
    (s.inStep 8 = true → ∃ t, exec (.numericSelfTest true) s = .next t ∧ t.bootStep = 9 ∧ t.bootFailed = false) ∧
    (s.inStep 9 = true → s.admitSt = 0 → ∃ t, exec .admission s = .next t ∧ t.admitSt = 1 ∧
      t.latched.ucode = s.reg 0x1108)

/-- The failing side of start-up: the table of R468. -/
def Obligations.StartupStepsFail : Prop :=
  ∀ s : State,
    let fails (c : Instr) (step code : Nat) : Prop := ∃ t, exec c s = .next t ∧ t.bootFailed = true ∧
      t.sb.bootFailed = true ∧ t.bootStep = step ∧ t.regF 0x1100 8 8 = code
    (s.inStep 3 = true → fails (.fuseRead false) 3 2) ∧
    (∀ n, s.inStep 4 = true → fails (.stewardBoot (.fail n)) 4 3) ∧
    (∀ obs : ContObs, s.inStep 5 = true → StaysDown s obs → fails (.portsStartup obs) 5 4) ∧
    (∀ view : HubView, s.inStep 6 = true → bootOk view s.ucodeAddr 256 = false ∨
      imageHeaderOk (viewBytes view s.ucodeAddr 256) = false → fails (.microcodeFetch view) 6 5) ∧
    (∀ obs : StoreTestObs, s.inStep 7 = true → (∃ p ∈ obs.repaired, 8 < p.2) → fails (.storeSelfTest obs) 7 6) ∧
    (∀ obs : StoreTestObs, s.inStep 7 = true → (∀ p ∈ obs.repaired, p.2 ≤ 8) → obs.coreFail = true →
      fails (.storeSelfTest obs) 7 7) ∧
    (s.inStep 8 = true → fails (.numericSelfTest false) 8 8) ∧
    (∀ present, s.bootStep < 10 → s.bootFailed = false → s.stopped = false →
      fails (.refclkLoss present) s.bootStep 4)

/-- The CCCs of R301, the private writes of R302, steps 1 and 2 of R462, and R305's instructions. -/
def Obligations.SideBandCommands : Prop :=
  ∀ s : State,
    (s.inStep 1 = false → s.inStep 2 = false →
    (∀ addr, exec (.setdasa addr) s = .next { s with sb := { s.sb with dynAddr := some addr } }) ∧
    exec .rstdaa s = .next { s with sb := { s.sb with dynAddr := none } } ∧
    exec .enec s = .next { s with sb := { s.sb with ibi := true } } ∧
    exec .disec s = .next { s with sb := { s.sb with ibi := false } } ∧
    exec .getpid s = .next { s with sb := { s.sb with replies := s.sb.replies ++
      [toBE 6 (2 ^ 33 * Config.mipiCode.toNat + 2 ^ 16 * 0x0C80 + 2 ^ 12 * 2 + 1)] } } ∧
    exec .getbcr s = .next { s with sb := { s.sb with replies := s.sb.replies ++ [[0x06]] } } ∧
    exec .getdcr s = .next { s with sb := { s.sb with replies := s.sb.replies ++ [[0x00]] } } ∧
    (∃ a b : Byte, exec .getstatus s =
      .next { s with sb := { s.sb with replies := s.sb.replies ++ [[a, b]] }, free := s.free + 2 }) ∧
    (∀ action, exec (.rstact action) s = .next { s with sb := { s.sb with rstact := action } }) ∧
    (∀ v, exec (.sbUcodeWrite false v) s = .next { s with sb := { s.sb with ucodeLo := v, wroteLo := true } }) ∧
    (∀ v, exec (.sbUcodeWrite true v) s =
      .next { s with sb := { s.sb with ucodeHi := w32 (v.toNat % 2 ^ 20), wroteHi := true } })) ∧
    (∀ addr, s.inStep 1 = true → ∃ t, exec (.setdasa addr) s = .next t ∧ t.bootStep = 2 ∧
      t.sb.dynAddr = some addr) ∧
    (∀ (hi : Bool) (v : Word), s.inStep 2 = true → ∃ t, exec (.sbUcodeWrite hi v) s = .next t ∧
      t.bootStep = if (if hi then s.sb.wroteLo else s.sb.wroteHi) then 3 else 2) ∧
    (∀ x : TapLoad, exec (.tapInstruction x) s = .next { s with sb := tapResult s.sb (tapEffective s x.instr) x.scan })

/-- R269's states; the port DOWN otherwise is stated by PortDownIsolates. What the patterns are is R270's, which the bad
bonds are judged by; that the alignment flit's CRC takes sequence number 0 is log entry 91. -/
def Obligations.PortTrainingStatesInOrder : Prop :=
  ∀ (s : State) (p : Fin 32) (obs : TrainObs),
    let x := s.port p
    let bad := (badBonds obs x.train x.retrain).foldl setIns x.bad
    let next (old new : TrainSt) (drives : List LaneSend) : Prop := x.train = old →
      ∃ t, exec (.trainingStateEnd p obs) s = .next t ∧
        t.port p = { x with
          train := new, bad := bad, pwakeI := obs.pwakeI, paliveI := obs.paliveI, wire := x.wire ++ drives } ∧
        (∀ i : Fin 32, i ≠ p → t.port i = s.port i) ∧ ∀ f : Field, f ≠ .ports → f.same s t
    let sends (t : State) (lanes : List (Nat × Nat)) (f : List Byte) : Prop := f.length = 64 ∧
      (t.port p).wire = x.wire ++ lanes.map fun l => .flit l.1 l.2 f (flitCrc 0 f)
    (x.train = .down → ∃ t, exec (.portTrainingStart p) s = .next t ∧ (t.port p).train = .detect ∧
      (t.port p).bad = [] ∧ (t.port p).gotTs1 = false ∧ (t.port p).gotTs2 = false ∧ (t.port p).pwakeO = true ∧
      (t.port p).paliveO = true ∧ (t.port p).strobes = true ∧ (t.port p).wire = x.wire ++ [.strobes] ∧
      ∀ f : Field, f ≠ .ports → f.same s t) ∧
    (x.train = .up → exec (.portTrainingStart p) s = .next s) ∧
    next .detect .lock [] ∧ next .lock .deskew [.prbs (deskewUis x.retrain)] ∧
    next .deskew .test [.prbs (testUis x.retrain)] ∧
    (x.train = .test → Unarmed s (portKey p 0) → ∃ t, exec (.trainingStateEnd p obs) s = .next t ∧
      (t.port p).train = .map ∧
      (∀ lane, lane < 33 → t.repairCode p 0x110 lane = laneCode bad lane) ∧
      t.spareIn p 0x110 = spareFor (laneCodes bad) ∧
      (t.port p).widthIn = widthOf (healthyLanes (laneCodes bad) (spareFor (laneCodes bad))).length (s.maxWidth p) ∧
      (∃ f, sends t ((List.range 33).map fun l => (l, 0x3F)) f ∧ f[4]? = some 1) ∧
      ∀ g : Field, g ∉ [.ports, .regs] → g.same s t) ∧
    (x.train = .map → x.gotTs1 = true → x.widthIn ≠ 0 → x.widthOut ≠ 0 →
      ∃ t f, exec (.trainingStateEnd p obs) s = .next t ∧ (t.port p).train = .repair ∧
        sends t ((List.range 33).map fun l => (l, 0x3F)) f ∧ f[4]? = some 2) ∧
    (x.train = .repair → x.gotTs2 = true →
      ∃ t f, exec (.trainingStateEnd p obs) s = .next t ∧ (t.port p).train = .align ∧
        sends t ((s.activeLanes p 0x140).take x.widthOut) f ∧ ofLE (f.take 1) % 4 = 2) ∧
    (x.train = .align → (∀ l ∈ (s.activeLanes p 0x110).take x.widthIn, setHas x.aligned l.1 = true) →
      ∃ t, exec (.trainingStateEnd p obs) s = .next t ∧ (t.port p).train = .up ∧
        (t.port p).fresh = false ∧ (t.port p).retrain = false ∧
        (x.retrain = true → (t.port p).txSeq = x.txSeq ∧ (t.port p).rxSeq = x.rxSeq ∧ (t.port p).skipping = true) ∧
        (x.retrain = false → (t.port p).txSeq = 0 ∧ (t.port p).rxSeq = 0 ∧ (t.port p).skipping = false))

/-- Rules 1 to 4 of R272 with the codes of R273; `bad` lists each bad bond once, as lane × 64 + bond. -/
def Obligations.LaneRepairCodes : Prop :=
  (∀ (bad : List Nat) (lane : Nat),
    ((∀ b ∈ bad, b / 64 ≠ lane) → laneCode bad lane = 0x3F) ∧
    (∀ b, bad.filter (fun x => x / 64 == lane) = [64 * lane + b] →
      (b < 32 → laneCode bad lane = b) ∧ (b = 32 → laneCode bad lane = 0x20) ∧
      (b = 33 → laneCode bad lane = 0x3F) ∧ (b = 34 → laneCode bad lane = 0x21)) ∧
    (2 ≤ (bad.filter fun x => x / 64 == lane).length → laneCode bad lane = 0x3E)) ∧
  (∀ codes : List Nat, codes.length = 33 →
    (codes[32]? = some 0x3E → spareFor codes = 0x3F) ∧
    (codes[32]? ≠ some 0x3E → (∀ l, l < 32 → codes[l]? ≠ some 0x3E) → spareFor codes = 0x3F) ∧
    (∀ l, l < 32 → codes[32]? ≠ some 0x3E → codes[l]? = some 0x3E → (∀ k, k < l → codes[k]? ≠ some 0x3E) →
      spareFor codes = l)) ∧
  (∀ n, (32 ≤ n → widthOf n 32 = 32) ∧ (16 ≤ n → n < 32 → widthOf n 32 = 16) ∧ (8 ≤ n → n < 16 → widthOf n 32 = 8) ∧
    (n < 8 → widthOf n 32 = 0))

/-- R271; bytes of the flit by their numbers. -/
def Obligations.TrainingSetIsTakenOnce : Prop :=
  ∀ (s : State) (p : Fin 32) (lane : Fin 33) (flit : List Byte) (crc : BitVec 16),
    let x := s.port p
    let b (i : Nat) : Nat := ((flit[i]?).getD 0).toNat
    let legal (c : Nat) : Prop := c ≤ 0x21 ∨ c = 0x3E ∨ c = 0x3F
    flit.length = 64 → Unarmed s (portKey p 0) → x.train ∈ [TrainSt.detect, .lock, .deskew, .test, .map, .repair] →
    (flitCrc 0 flit ≠ crc → exec (.tsFlitReceive p lane flit crc) s = .next s) ∧
    ((∃ l, l < 33 ∧ ¬ legal (b (8 + l))) → exec (.tsFlitReceive p lane flit crc) s = .next s) ∧
    (flitCrc 0 flit = crc → b 0 % 4 = 3 → (∀ l, l < 33 → legal (b (8 + l))) →
      (b 4 = 1 → x.gotTs1 = true → exec (.tsFlitReceive p lane flit crc) s = .next s) ∧
      (b 4 = 2 → x.gotTs2 = true → exec (.tsFlitReceive p lane flit crc) s = .next s) ∧
      (b 4 = 1 → x.gotTs1 = false → ∃ t, exec (.tsFlitReceive p lane flit crc) s = .next t ∧
        (t.port p) = { x with gotTs1 := true, widthOut := if b 7 = 32 ∨ b 7 = 16 ∨ b 7 = 8 then b 7 else 0 } ∧
        (∀ l, l < 33 → t.repairCode p 0x140 l = b (8 + l)) ∧ ∀ g : Field, g ∉ [.ports, .regs] → g.same s t) ∧
      (b 4 = 2 → x.gotTs2 = false → exec (.tsFlitReceive p lane flit crc) s = .next (s.setPort p { x with
        gotTs2 := true
        hubHdr := [b 44 + 256 * b 45, b 48 + 256 * b 49, b 52 + 256 * b 53, b 56 + 256 * b 57]
        hubData := [b 46 + 256 * b 47, b 50 + 256 * b 51, b 54 + 256 * b 55, b 58 + 256 * b 59] })))

/-- LANES of R309. That a port whose ALIGN does not end well is DOWN is log entry 91. -/
def Obligations.PortDownIsolates : Prop :=
  ∀ (s : State) (p : Fin 32) (obs : TrainObs), InService s →
    ((s.port p).train = .map ∧ ((s.port p).gotTs1 = false ∨ (s.port p).widthIn = 0 ∨ (s.port p).widthOut = 0)) ∨
      ((s.port p).train = .repair ∧ (s.port p).gotTs2 = false) ∨
      ((s.port p).train = .align ∧
        ∃ l ∈ (s.activeLanes p 0x110).take (s.port p).widthIn, setHas (s.port p).aligned l.1 = false) →
    ∃ t, exec (.trainingStateEnd p obs) s = .next t ∧ t.admitSt = 4 ∧ t.mute = true ∧
      t.regF 0x40104 2 1 = 1 ∧ (s.regF 0x40104 2 1 = 0 → t.regF 0x40104 8 5 = p)

/-- R275's order; `w i` is the i-th word of header slot 0 (R276). -/
def Obligations.FlitInOrderIsTaken : Prop :=
  ∀ (s : State) (p : Fin 32) (lane : Fin 33) (flit : List Byte) (crc : BitVec 16),
    let x := s.port p
    let lw := ofLE (flit.take 4)
    let w (i : Nat) : Nat := ofLE ((flit.drop (4 + 4 * i)).take 4)
    flit.length = 64 → x.train = .up → s.mute = false → Unarmed s (portKey p 0) → x.widthIn ∈ [8, 16, 32] →
    (s.activeLanes p 0x110).head?.map (·.1) = some lane.val →
    flitCrc (x.rxSeq % 4096) flit = crc → x.rxSeq % x.widthIn = 0 → lw % 4 = 0 →
    (fld lw 24 2 = 0 → ∃ t, exec (.headerFlitReceive p lane flit crc) s = .next t ∧
      (t.port p).rxSeq = (x.rxSeq + 1) % 4096 ∧ (t.port p).skipping = false ∧ (t.port p).rx = x.rx ∧
      (t.port p).hubHdr = (if bit lw 16 then x.hubHdr else addAt x.hubHdr (fld lw 14 2) (fld lw 17 7)) ∧
      (t.port p).hubData = (if bit lw 16 then addAt x.hubData (fld lw 14 2) (fld lw 17 7) else x.hubData) ∧
      ∀ f : Field, f ∉ [.ports, .power] → f.same s t) ∧
    (fld lw 24 2 = 1 → w 0 % 256 ∈ [0x30, 0x31, 0x38, 0x3A] → fld (w 0) 8 7 = 0 →
      headerReserved [w 0, w 1, w 2, w 3, w 4] = false → (x.dieHdr[3]?).getD 0 ≠ 0 →
      ∃ t, exec (.headerFlitReceive p lane flit crc) s = .next t ∧
        (t.port p).rxSeq = (x.rxSeq + 1) % 4096 ∧
        (t.port p).rx = x.rx ++ [([w32 (w 0), w32 (w 1), w32 (w 2), w32 (w 3), w32 (w 4)], [])] ∧
        (t.port p).dieHdr = subAt x.dieHdr 3 1 ∧ (t.port p).backHdr = addAt x.backHdr 3 1 ∧
        ∀ f : Field, f ∉ [.ports, .power] → f.same s t)

/-- R279 steps 1 and 2. -/
def Obligations.CrcFailureAsksForAReplay : Prop :=
  ∀ (s : State) (p : Fin 32) (lane : Fin 33) (flit : List Byte) (crc : BitVec 16),
    let x := s.port p
    let active := ((s.activeLanes p 0x110).take x.widthIn).map (·.1)
    flit.length = 64 → x.train = .up → s.mute = false → Unarmed s (portKey p 0) →
    (lane.val ∉ active → exec (.headerFlitReceive p lane flit crc) s = .next s) ∧
    (∀ k, active.findIdx? (· == lane.val) = some k → x.widthIn ∈ [8, 16, 32] →
      (∀ n, n < 4096 → n % x.widthIn = k → flitCrc n flit ≠ crc) →
      s.regF (portKey p 0x108) 0 8 = 0 → x.reqRun + 1 < 4 →
      ∃ t, exec (.headerFlitReceive p lane flit crc) s = .next t ∧ (t.port p).train = .up ∧
        (t.port p).rxSeq = x.rxSeq ∧ (t.port p).rx = x.rx ∧ (t.port p).skipping = true ∧
        t.reg (portKey p 0x170) = s.reg (portKey p 0x170) + 1 ∧
        (∀ g : Field, g ∉ [.ports, .regs, .power] → g.same s t) ∧
        (x.replay.length < 2048 → x.owing = [] ∨ x.txSeq % max x.widthOut 1 = 0 → ∃ f, f.length = 64 ∧
          (t.port p).wire = x.wire ++ [x.onLane (s.activeLanes p 0x140) x.txSeq f] ∧ ofLE (f.take 4) % 4 = 1 ∧
          fld (ofLE (f.take 4)) 2 12 = (x.rxSeq + 4095) % 4096 ∧
          t.reg (portKey p 0x174) = s.reg (portKey p 0x174) + 1))

/-- R279 steps 3 and 4 and its last sentence, with two more of R274's cases. -/
def Obligations.ReplayRequestsAndRetrains : Prop :=
  ∀ (s : State) (p : Fin 32) (lane : Fin 33) (ack : BitVec 12) (palive : Bool),
    let x := s.port p
    let y := x.acknowledge ack.toNat
    let w := max x.widthOut 1
    let run := if x.lastAck = some ack.toNat then x.ackRun + 1 else 1
    let retrains (c : Instr) : Prop := ∃ t, exec c s = .next t ∧ (t.port p).train = .detect ∧
      (t.port p).retrain = true ∧ (t.port p).replay = x.replay ∧ (t.port p).queue = x.queue ∧
      (t.port p).txSeq = x.txSeq ∧ (t.port p).rxSeq = x.rxSeq ∧ ∀ f : Field, f ≠ .ports → f.same s t
    (x.train = .up → s.mute = false → Unarmed s (portKey p 0) →
      ∃ t new, exec (.replayRequest p ack) s = .next t ∧ (new.length < w ∨ x.widthOut ∉ [8, 16, 32]) ∧
        (x.txSeq % w = 0 → new = []) ∧ (t.port p).replay = y.replay ++ new ∧
        (t.port p).wire = x.wire ++ ((new ++ (y.replay ++ new)).map fun r =>
          x.onLane (s.activeLanes p 0x140) r.1 r.2) ++ (if 4 ≤ run then [.strobes] else []) ∧
        (t.port p).train = (if 4 ≤ run then .detect else .up) ∧
        ((t.port p).retrain = if 4 ≤ run then true else x.retrain) ∧
        ∀ f : Field, f ∉ [.ports, .regs, .power] → f.same s t) ∧
    (x.train = .up → s.mute = false → retrains (.pwakeIRise ⟨p, palive⟩) ∧ retrains (.strobeLoss p lane)) ∧
    (x.train = .down → ∃ t, exec (.pwakeIRise ⟨p, palive⟩) s = .next t ∧ (t.port p).train = .detect ∧
      (t.port p).retrain = false ∧ (t.port p).pwakeI = true ∧ (t.port p).paliveI = palive) ∧
    (x.train ≠ .up → exec (.strobeLoss p lane) s = .next s)

/-- R309 and R310; the ladder register holds 0 in run and idle, 2 in still (R381). -/
def Obligations.LossOfReferenceOrTimeBaseIsolates : Prop :=
  ∀ (s : State) (a : Access) (present : BitVec 4), InService s → s.shut = .none →
    let isolated (c : Instr) (cause : Nat) : Prop := ∃ t, exec c s = .next t ∧
      t.regF 0x40104 0 8 = s.regF 0x40104 0 8 ||| 2 ^ cause ∧ t.admitSt = 4 ∧ t.mute = true ∧
      (∀ p : Fin 32, (t.port p).train = .isolated ∧ (t.port p).paliveO = false ∧ (t.port p).strobes = false ∧
        (t.port p).replay = []) ∧
      (∀ k : Fin 320, t.ladder k = if s.ladder k = 0 then 2 else s.ladder k) ∧ (t.island 320).rung = .still ∧
      t.latched = ⟨s.reg 0x1108, w32 s.numericMode, w32 s.features⟩ ∧
      t.store = s.store ∧ t.full = s.full ∧
      (s.sb.ibi = true → s.sb.dynAddr.isSome = true → t.sb.ibis = s.sb.ibis ++ [2])
    isolated (.refclkLoss present) 0 ∧ isolated .timeBaseLost 1 ∧
      (Hears s a → isolated (.isolate a) 3 ∧ ∀ t, exec (.isolate a) s = .next t → IssuesFirst s t (mackOf a))

/-- R300's rules for the two copies. -/
def Obligations.TimeBaseFrames : Prop :=
  ∀ (s : State) (f : TFrame), s.stopped = false →
    let good := f.sync = 0xF0F0 ∧ crc16 (toLE 8 f.t.toNat) = f.crc
    (good → ∃ t, exec (.tbaseFrame 0 f) s = .next t ∧ t.time.now = f.t.toNat ∧ t.time.lock = true ∧ t.time.copy = 0 ∧
      t.time.bad0 = 0 ∧ t.time.pass0 = true ∧
      (f.t.toNat = s.time.now → t.regs = s.regs) ∧
      (f.t.toNat ≠ s.time.now → t.reg 0x5110C = s.reg 0x5110C + 1 ∧
        t.reg 0x51110 = w32 (f.t.toNat + 2 ^ 32 - s.time.now % 2 ^ 32)) ∧
      ∀ g : Field, g ∉ [.time, .regs] → g.same s t) ∧
    (¬ good → s.time.bad1 < 4 → ∃ t, exec (.tbaseFrame 0 f) s = .next t ∧ t.time.now = s.time.now ∧
      t.time.bad0 = s.time.bad0 + 1 ∧ t.time.pass0 = false ∧ t.reg 0x5110C = s.reg 0x5110C + 1 ∧
      t.time.copy = (if 4 ≤ s.time.bad0 + 1 then 1 else 0) ∧ ∀ g : Field, g ∉ [.time, .regs] → g.same s t) ∧
    (good → s.time.bad0 < 4 → ∃ t, exec (.tbaseFrame 1 f) s = .next t ∧ t.time.now = s.time.now ∧
      t.time.copy = 0 ∧ t.time.bad1 = 0 ∧ t.time.pass1 = true ∧ ∀ g : Field, g ∉ [.time, .regs] → g.same s t)

/-- R314's four effects; package FFh names the own package (R289). -/
def Obligations.SideSignalsAreAnsweredAndShown : Prop :=
  ∀ (s : State) (a : Access) (pos : BitVec 4) (pkg code : Byte), Hears s a →
    let own (k : Nat) : Bool := k == 0xFF || k == s.pkg
    let shown (t : State) (v : Nat) : Prop := t.reg 0x40114 = s.reg 0x40114 + 1 ∧
      ∀ i : Fin 8, t.regF 0x40110 (2 * i.val) 2 = if i.val = pos.toNat ∧ own pkg.toNat = true then v else s.regF 0x40110 (2 * i.val) 2
    let hit (g : Group) (m : Nat) : Bool := memberValid (g.member m) && memberPos (g.member m) == pos.toNat
      && (memberPkg (g.member m) == pkg.toNat || (own pkg.toNat && own (memberPkg (g.member m))))
    let live (g : Group) : Prop := g.st ∈ [GroupSt.forming, .formed, .fencing, .degraded]
    (∃ t, exec (.peerLost a pos pkg) s = .next t ∧ IssuesFirst s t (mackOf a) ∧ shown t 3 ∧
      bit (t.regN 0x50018) 3 = true ∧
      ∀ gi : Fin 64, ((live (s.group gi) ∧ ∃ m, m < 16 ∧ hit (s.group gi) m = true) →
          (t.group gi).st = .degraded ∧
            ∀ m, m < 16 → bit (t.group gi).lost m = (bit (s.group gi).lost m || hit (s.group gi) m)) ∧
        (¬ (live (s.group gi) ∧ ∃ m, m < 16 ∧ hit (s.group gi) m = true) → t.group gi = s.group gi)) ∧
    (∃ t, exec (.peerBack a pos pkg) s = .next t ∧ IssuesFirst s t (mackOf a) ∧ shown t 1 ∧
      ∀ f : Field, f ∉ [.regs, .ports, .out, .power] → f.same s t) ∧
    (∃ t, exec (.peerSpare a pos pkg) s = .next t ∧ IssuesFirst s t (mackOf a) ∧
      t.reg 0x40114 = s.reg 0x40114 + 1 ∧ t.reg 0x40110 = s.reg 0x40110 ∧
      ∀ f : Field, f ∉ [.regs, .ports, .out, .power] → f.same s t) ∧
    (0x40 ≤ code.toNat → ∃ t, exec (.softwareSideSignal a code) s = .next t ∧ t.out = s.out ++ [mackOf a] ∧
      t.regN 0x40118 = code.toNat + a.srcpos.toNat * 2 ^ 8 + 2 ^ 16 * a.srcpkg.toNat ∧
      t.reg 0x4011C = s.reg 0x4011C + 1 ∧
      (∀ k, k ≠ 0x40118 → k ≠ 0x4011C → t.reg k = s.reg k) ∧ ∀ f : Field, f ∉ [.regs, .ports, .out, .power] → f.same s t)

/-- R470 step 4, and R311 step 1. -/
def Obligations.AdmissionByGrantOrDeny : Prop :=
  ∀ (s : State) (a : Access) (v : BitVec 64),
    (Hears s a → s.admitSt = 1 → s.bootStep = 9 →
      (∃ t, exec (.grant a v) s = .next t ∧ IssuesFirst s t (mackOf a) ∧
        t.pos = v.toNat % 16 ∧ t.pkg = v.toNat / 256 % 256 ∧ t.admitSt = (if bit v.toNat 4 then 3 else 2) ∧
        t.bootStep = 10 ∧ t.recovery = true ∧
        (s.sb.ibi = true → s.sb.dynAddr.isSome = true → t.sb.ibis = s.sb.ibis ++ [1])) ∧
      (∃ t, exec (.deny a) s = .next t ∧ IssuesFirst s t (mackOf a) ∧ t.bootFailed = true ∧
        t.regF 0x1100 8 8 = 9 ∧ t.bootStep = 9)) ∧
    (s.admitSt = 4 → s.stopped = false → ∃ t, exec .readmit s = .next t ∧ t.admitSt = 5 ∧
      ∀ f : Field, f ≠ .regs → f.same s t) ∧
    (s.admitSt ≠ 4 ∨ s.stopped = true → exec .readmit s = .next s)

/-- R311 steps 2 to 6. That the FLUSH of R292 goes before a side signal of the die is log entry 13. -/
def Obligations.ReadmissionTrainsAndAsks : Prop :=
  ∀ (s : State) (copies : BitVec 4) (obs : ContObs) (a : Access) (v : BitVec 64), s.admitSt = 5 → s.stopped = false →
    (s.mute = true → copies = 15 → s.time.lock = true → TrainsWell s obs →
      ∃ t, exec (.readmitTrain ⟨copies, obs⟩) s = .next t ∧
      t.admitSt = 5 ∧ t.mute = false ∧ (∀ p : Fin 32, (t.port p).train = .up) ∧ t.regF 0x40120 0 4 = 0xF ∧
      (t.island 320).rung = .run ∧
      (s.outst = [] → ∃ m, t.out = s.out ++ [m] ∧ m.op = .flush ∧ m.port = 15 ∧ m.stream = 15) ∧
      (s.sb.ibi = true → s.sb.dynAddr.isSome = true → t.sb.ibis = s.sb.ibis ++ [6])) ∧
    (s.mute = true → copies ≠ 15 ∨ s.time.lock = false ∨ StaysDown s obs →
      ∃ t, exec (.readmitTrain ⟨copies, obs⟩) s = .next t ∧ t.admitSt = 4 ∧ t.mute = true ∧ t.out = s.out ∧
        (copies ≠ 15 → t.regF 0x40104 0 1 = 1) ∧ (copies = 15 → s.time.lock = false → t.regF 0x40104 1 1 = 1) ∧
        (copies = 15 → s.time.lock = true → t.regF 0x40104 2 1 = 1)) ∧
    (Hears s a → ∃ t, exec (.grant a v) s = .next t ∧ IssuesFirst s t (mackOf a) ∧
      t.pos = v.toNat % 16 ∧ t.pkg = v.toNat / 256 % 256 ∧ t.admitSt = (if bit v.toNat 4 then 3 else 2) ∧
      ∀ gi : Fin 64, (t.group gi).st = if (s.group gi).st = .empty then .empty else .degraded) ∧
    (Hears s a → ∃ t, exec (.deny a) s = .next t ∧ IssuesFirst s t (mackOf a) ∧ t.admitSt = 4 ∧ t.mute = true)

/-- Checks before a write acts, in the model's order of checks (log entry 23). -/
def Obligations.RegisterAccessChecks : Prop :=
  ∀ (s : State) (a : Access) (off : BitVec 28) (v : Word) (base : Nat), Performs s a base →
    (regAt off.toNat = none → exec (.rgwr a off v) s = .next (s.respond a .rgwa 0x10)) ∧
    ∀ (p : Page) (r : RegRow), regAt off.toNat = some (p, r) → p.base = base →
      let o := off.toNat - p.base
      let refused (cause : Nat) : Prop :=
        exec (.rgwr a off v) s = .next ((s.captureCommon p cause o a.priv.toNat).respond a .rgwa 0x11)
      (a.priv = 3 → journalSetup p o = false → refused 0xE1) ∧
      (a.priv = 2 → journalSetup p o = false → ¬ (p.kind = .queue ∧ (o = 0x10C ∨ o = 0x130)) → refused (if r.rl then 0xE0 else 0xE1)) ∧
      (Privileged a → 0xF00 ≤ o → s.testUnlocked = false → refused 0xE5) ∧
      (a.priv = 1 → r.rl = true → o < 0xF00 → journalSetup p o = false → refused 0xE0) ∧
      (a.priv = 0 → o < 0xF00 → s.darkPage p = false → s.commitRefused p r o v = none →
        reservedValue p.kind o v.toNat = true → refused 0xE2) ∧
      (a.priv ≠ 0 → journalSetup p o = true → r.rs = 0 → reservedValue p.kind o v.toNat = false →
        RefusedForState (.rgwr a off v) s a p 0xE6 o)

/-- The shared capture of R325, as a refused write of a TIME register at level 3 makes it. -/
def Obligations.EventCaptureKeepsTheFirst : Prop :=
  ∀ (s : State) (p : Page) (cause o priv : Nat), cause < 256 → o < 4096 → priv < 4 → p.kind ≠ .store →
    pageAt p.base = some p →
    (bit (s.regN (p.base + 0x20)) 31 = false →
      let t := s.captureCommon p cause o priv
      t.regN (p.base + 0x20) = 2 ^ 31 + cause ∧ t.regN (p.base + 0x24) = o + 4096 * priv ∧
      (∀ i, i < 4 → t.reg (p.base + 0x28 + 4 * i) = 0) ∧ t.reg (p.base + 0x38) = 1 ∧
      bit (t.regN (p.base + 0x18)) 30 = true) ∧
    (bit (s.regN (p.base + 0x20)) 31 = true → s.captureCommon p cause o priv =
      s.setReg (p.base + 0x38) (if s.regN (p.base + 0x38) = 2 ^ 32 - 1 then s.reg (p.base + 0x38)
        else s.reg (p.base + 0x38) + 1))

/-- R338, whole, for an access of level 0, 1 or 2. -/
def Obligations.DoorbellsAndCompletionHead : Prop :=
  ∀ (s : State) (a : Access) (q : Fin 16) (v : Word), Performs s a (queueKey q 0) → a.priv ≠ 3 →
    let head := s.reg (queueKey q 0x110)
    let tail := s.reg (queueKey q 0x10C)
    let cplHead := s.reg (queueKey q 0x130)
    let cplTail := s.reg (queueKey q 0x12C)
    (tail - head ≤ v - head → (v - head).toNat ≤ 2 ^ s.regF (queueKey q 0x108) 0 5 →
      exec (.dbTailWrite a q v) s = .next ((s.setReg (queueKey q 0x10C) v).respond a .rgwa 0)) ∧
    (v - head < tail - head ∨ 2 ^ s.regF (queueKey q 0x108) 0 5 < (v - head).toNat →
      RefusedForState (.dbTailWrite a q v) s a (pgQueue q) 0xE6 0x10C ∧
      ∀ t, exec (.dbTailWrite a q v) s = .next t → t.reg (queueKey q 0x10C) = tail) ∧
    (v - cplHead ≤ cplTail - cplHead →
      exec (.cplHeadWrite a q v) s = .next ((s.setReg (queueKey q 0x130) v).respond a .rgwa 0)) ∧
    (cplTail - cplHead < v - cplHead → RefusedForState (.cplHeadWrite a q v) s a (pgQueue q) 0xE6 0x130) ∧
    ((s.queue q).st = .disabled → exec (.descriptorRead q) s = .next s)

/-- R337, whole. Legal: 20 address bits in the upper halves, sizes 4 to 16 (R334). -/
def Obligations.RingBasesOnlyWhileDisabled : Prop :=
  ∀ (s : State) (a : Access) (q : Fin 16) (v : Word), Performs s a (queueKey q 0) → a.priv = 0 →
    let k := queueKey q
    let set (o mask : Nat) : Prop := exec (.rgwr a (BitVec.ofNat 28 (k o)) v) s =
      .next ((s.setReg (k o) (written (s.reg (k o)) v mask)).respond a .rgwa 0)
    ((s.queue q).st = .disabled →
      (exec (.ringLoWrite a q v) s = .next ((((s.setReg (k 0x100)
        (written (s.reg (k 0x100)) v 0xFFFFFFC0)).setReg (k 0x110) 0).setReg (k 0x10C) 0).respond a .rgwa 0)) ∧
      (exec (.cplLoWrite a q v) s = .next ((((s.setReg (k 0x120)
        (written (s.reg (k 0x120)) v 0xFFFFFFC0)).setReg (k 0x12C) 0).setReg (k 0x130) 0).respond a .rgwa 0)) ∧
      (v.toNat < 2 ^ 16 → set 0x104 0xFFFFF ∧ set 0x124 0xFFFFF) ∧
      (4 ≤ v.toNat → v.toNat ≤ 16 → set 0x108 0x1F ∧ set 0x128 0x1F) ∧
      set 0x144 0xFFFFFFFF) ∧
    ((s.queue q).st ≠ .disabled →
      RefusedForState (.ringLoWrite a q v) s a (pgQueue q) 0xE6 0x100 ∧
      RefusedForState (.cplLoWrite a q v) s a (pgQueue q) 0xE6 0x120 ∧
      (v.toNat < 2 ^ 16 → ∀ o ∈ [0x104, 0x124],
        RefusedForState (.rgwr a (BitVec.ofNat 28 (k o)) v) s a (pgQueue q) 0xE6 o) ∧
      (4 ≤ v.toNat → v.toNat ≤ 16 → ∀ o ∈ [0x108, 0x128],
        RefusedForState (.rgwr a (BitVec.ofNat 28 (k o)) v) s a (pgQueue q) 0xE6 o) ∧
      RefusedForState (.rgwr a (BitVec.ofNat 28 (k 0x144)) v) s a (pgQueue q) 0xE6 0x144)

/-- R344's three items. -/
def Obligations.QueueStateChanges : Prop :=
  ∀ (s : State) (a : Access) (q : Fin 16) (v : Word), Performs s a (queueKey q 0) → Privileged a →
    s.health.failed = false →
    let Q := s.queue q
    let on := bit v.toNat 0
    let was := bit (s.regN (queueKey q 0x10)) 0
    (on = true → was = false → Q.st = .disabled → s.admitSt ≠ 3 → bit v.toNat 1 = false →
      ∃ t, Answers (.queueEnable a q v) s t (rgwaOf a 0) ∧ t.queue q = { Q with st := .run } ∧ t.recovery = false ∧
        t.reg (queueKey q 0x10) = v &&& w32 0xF01 ∧ ∀ i : Fin 16, i ≠ q → t.queue i = s.queue i) ∧
    ((on = true ∧ was = false ∧ Q.st = .stopping) ∨ (on = true ∧ s.admitSt = 3) →
      RefusedForState (.queueEnable a q v) s a (pgQueue q) 0xE6 0x10) ∧
    (on = false → was = true → Q.st = .run ∨ Q.st = .halted → bit v.toNat 1 = false →
      ∃ t, Answers (.queueEnable a q v) s t (rgwaOf a 0) ∧
        (t.queue q).st = (if s.inFlight q = 0 then .disabled else .stopping) ∧ (t.queue q).held = none) ∧
    (on = was → (on = true → s.admitSt ≠ 3) → bit v.toNat 1 = true → Q.st = .halted →
      ∃ t, Answers (.resume a q v) s t (rgwaOf a 0) ∧ t.queue q = { Q with st := .run, halt := 0 }) ∧
    (on = was → (on = true → s.admitSt ≠ 3) → bit v.toNat 1 = true → Q.st ≠ .halted →
      ∃ t, Answers (.resume a q v) s t (rgwaOf a 0) ∧ t.queues = s.queues)

/-- R325's VALID, R327's W1C bits, R330's MASK. -/
def Obligations.InterruptRegisterWrites : Prop :=
  ∀ (s : State) (a : Access) (page : BitVec 28) (p : Page) (v : Word), Performs s a page.toNat → Privileged a →
    pageAt page.toNat = some p → p.base = page.toNat → s.darkPage p = false →
    (0x1000000 ≤ page.toNat → (s.island (clusterOf page.toNat)).darkening = false) →
    let cleared := s.reg (p.base + 0x18) &&& ~~~ (v &&& w32 (p.kind.intBits ||| 0xC0000000))
    let enabled := written (s.reg (p.base + 0x1C)) v p.kind.enableBits
    (∃ t, Answers (.intStatusWrite a page v) s t (rgwaOf a 0) ∧ t.reg (p.base + 0x18) = cleared) ∧
    (∃ t, Answers (.intEnableWrite a page v) s t (rgwaOf a 0) ∧ t.reg (p.base + 0x1C) = enabled) ∧
    (page.toNat < 0x1000000 → (vectorPages p.vector).any (s.setReg (p.base + 0x18) cleared).line = false →
      exec (.intStatusWrite a page v) s = .next ((s.setReg (p.base + 0x18) cleared).respond a .rgwa 0)) ∧
    (page.toNat < 0x1000000 → (vectorPages p.vector).any (s.setReg (p.base + 0x1C) enabled).line = false →
      exec (.intEnableWrite a page v) s = .next ((s.setReg (p.base + 0x1C) enabled).respond a .rgwa 0)) ∧
    (bit v.toNat 31 = true → ∃ t, Answers (.errCauseClear a page v) s t (rgwaOf a 0) ∧
      t.regN (p.base + 0x20) = s.regN (p.base + 0x20) % 2 ^ 31 ∧ t.reg (p.base + p.kind.countOff) = 0) ∧
    (p.kind = .die → ∀ vec : Fin 32, bit v.toNat 0 = true ∨ bit (s.regN (0x20C + 16 * vec)) 1 = false →
      exec (.intvCtrlWrite a vec v) s = .next ((s.setReg (0x20C + 16 * vec)
        (written (s.reg (0x20C + 16 * vec)) v 1)).respond a .rgwa 0))

/-- R331's items for a page with a vector of its own, with R292's FLUSH. -/
def Obligations.InterruptVectorSends : Prop :=
  (∀ (s : State) (v : Nat), v < 32 →
    (bit (s.regN (0x20C + 16 * v)) 0 = true ∨ s.mute = true ∨ v ∈ s.vecBusy →
      s.vectorSend v = s.setReg (0x20C + 16 * v) (s.reg (0x20C + 16 * v) ||| 2)) ∧
    (bit (s.regN (0x20C + 16 * v)) 0 = false → s.mute = false → v ∉ s.vecBusy →
      s.vectorSend v = State.flush { s with vecBusy := setIns s.vecBusy v } (if v < 16 then 8 + v else 15) 15
        (.vectorFlush v)) ∧
    s.vectorMessage v = s.message (if v < 16 then 8 + v else 15)
      (2 ^ 32 * s.regN (0x204 + 16 * v) + s.regN (0x200 + 16 * v)) (s.vectorValue v) 1 0 (.vector v) ∧
    (s.vectorValue v).toNat = s.regN (0x208 + 16 * v) + 2 ^ 32 * v + 2 ^ 40 * s.pos + 2 ^ 44 * s.pkg) ∧
  (∀ (s : State) (p : Page) (bits : Nat), p.kind.viaErragg = false → p.kind ≠ .erragg → bits < 2 ^ 32 →
    let t := s.setReg (p.base + 0x18) (s.reg (p.base + 0x18) ||| w32 bits)
    s.raise p bits = if t.baseLine p.base = true ∧ s.baseLine p.base = false then t.vectorSend p.vector else t)

/-- R347 and R348; DIE.EPOCH is DieWideCommit's. -/
def Obligations.ShadowRegistersAndCommits : Prop :=
  ∀ (s : State) (a : Access) (page : BitVec 28) (p : Page) (v : Word), Performs s a page.toNat → a.priv = 0 →
    pageAt page.toNat = some p → p.base = page.toNat → p.kind.hasShadow = true → page.toNat < 0x1000000 →
    (s.pagePending p = false →
      (∀ (o : Nat) (r : RegRow), p.kind.rowAt o = some r → 0x100 ≤ o → o % 4 = 0 → r.rs ≠ 0 → o < 0x1000 →
        reservedValue p.kind o v.toNat = false → s.stateRefused p o v = false →
        ∃ t, Answers (.rgwr a (BitVec.ofNat 28 (page.toNat + o)) v) s t (rgwaOf a 0) ∧
          t.shadow (page.toNat + o) = (v &&& w32 r.rs) ||| (s.reg (page.toNat + o) &&& ~~~ w32 r.rs) ∧
          t.reg (page.toNat + o) = s.reg (page.toNat + o) ∧ bit (t.regN (page.toNat + 0x44)) 0 = true) ∧
      (bit v.toNat 16 = true → bit (s.regN (page.toNat + 0x44)) 2 = false →
        ∃ t, Answers (.pageCommit a page v) s t (rgwaOf a 0) ∧ bit (t.regN (page.toNat + 0x40)) 16 = true ∧
          t.shad = s.shad) ∧
      (bit v.toNat 1 = true → ∃ t, Answers (.shadowDiscard a page v) s t (rgwaOf a 0) ∧
        bit (t.regN (page.toNat + 0x44)) 0 = false ∧ bit (t.regN (page.toNat + 0x44)) 2 = bit v.toNat 2 ∧
        ∀ k, page.toNat ≤ k → k < page.toNat + 0x1000 → k ≠ page.toNat + 0x44 → t.shadow k = s.reg k) ∧
      exec (.commitAdoption page) s = .next s) ∧
    (bit (s.regN (page.toNat + 0x44)) 2 = true ∨ s.pagePending p = true → bit v.toNat 16 = true →
      RefusedForState (.pageCommit a page v) s a p 0xE4 0x40) ∧
    (s.pagePending p = true →
      (∀ (o : Nat) (r : RegRow), p.kind.rowAt o = some r → 0x100 ≤ o → o % 4 = 0 → r.rs ≠ 0 → o < 0x1000 →
        RefusedForState (.rgwr a (BitVec.ofNat 28 (page.toNat + o)) v) s a p 0xE3 o) ∧
      (bit v.toNat 1 = true → RefusedForState (.shadowDiscard a page v) s a p 0xE3 0x44) ∧
      (bit v.toNat 1 = false → bit v.toNat 2 ≠ bit (s.regN (page.toNat + 0x44)) 2 →
        RefusedForState (.shadowDiscard a page v) s a p 0xE6 0x44) ∧
      (SMap.getD s.commitHold page.toNat [] = [] → s.stopped = false → ∃ t, exec (.commitAdoption page) s = .next t ∧
        (∀ k, page.toNat + 0x100 ≤ k → k < page.toNat + 0x1000 → t.reg k = s.shadow k ∧ t.shadow k = s.shadow k) ∧
        t.regF (page.toNat + 0x40) 0 16 = (s.regF (page.toNat + 0x40) 0 16 + 1) % 2 ^ 16 ∧
        bit (t.regN (page.toNat + 0x40)) 16 = false ∧ bit (t.regN (page.toNat + 0x44)) 3 = false ∧
        bit (t.regN (page.toNat + 0x44)) 0 = false))

/-- R352; the pages are named by the bases of their SHADOW_CTRL registers. -/
def Obligations.DieWideCommit : Prop :=
  ∀ (s : State) (a : Access) (v : Word), Performs s a 0 → Privileged a → bit v.toNat 0 = true →
    (bit (s.regN 0x104) 16 = true → RefusedForState (.dieCommit a v) s a pgDie 0xE4 0x100) ∧
    (bit (s.regN 0x104) 16 = false → ∃ t, Answers (.dieCommit a v) s t (rgwaOf a 0) ∧
      t.regF 0x104 0 16 = (s.regF 0x104 0 16 + 1) % 2 ^ 16 ∧ t.regF 0x104 20 12 = s.joined.length % 2 ^ 12 ∧
      bit (t.regN 0x104) 16 = decide (0 < s.joined.length) ∧
      ∀ b ∈ s.joined, bit (t.regN (b + 0x44)) 2 = false ∧ bit (t.regN (b + 0x44)) 3 = true)

/-- The latching reads; energies are held in 1/256 µJ (log entry 7). -/
def Obligations.LatchingReads : Prop :=
  ∀ (s : State) (a : Access), s.heard a.port.val = true → 5 ≤ s.bootStep → s.admitSt ≠ 5 → a.msg = false → Privileged a →
    let rd (u : State) (v : Word) : State := u.send (rgrOf a v 0)
    (Unarmed s 0x51000 → exec (.nowLoRead a) s =
      .next (rd (s.setRegN 0x51104 (s.time.now / 2 ^ 32)) (w32 s.time.now))) ∧
    (∀ c : Fin 320, Unarmed s (clusterBase c + 0x2000) → exec (.energyLoRead a c) s =
      .next (rd (s.setRegN (clusterBase c + 0x211C) (s.islandEnergy c / 2 ^ 32)) (w32 (s.islandEnergy c)))) ∧
    (∀ t : Fin 64, Unarmed s 0x48000 → exec (.ticketLoRead a t) s =
      .next (rd (s.setRegN (0x48208 + 16 * t) (s.ticketEnergy t / 2 ^ 32)) (w32 (s.ticketEnergy t)))) ∧
    (Unarmed s 0x48000 → exec (.unticketedLoRead a) s =
      .next (rd (s.setRegN 0x48604 (s.looseEnergy / 2 ^ 32)) (w32 s.looseEnergy))) ∧
    (∀ off : BitVec 28, regAt off.toNat = none → exec (.rgrd a off) s = .next (s.send (rgrOf a 0 0x10))) ∧
    (Unarmed s 0x1000 → exec (.rgrd a 0x110C) s = .next (rd s (s.reg 0x110C))) ∧
    (∀ b : Access, b.port = a.port → b.priv = 3 → b.msg = false →
      exec (.rgrd b 0x110C) s = .next ((s.captureCommon pgSteward 0xE1 0x10C 3).send (rgrOf b 0 0x11)))

/-- R307's handshake and R379's supply fault; domain d powers clusters 16d to 16d + 15 (R38). -/
def Obligations.VoltageHandshake : Prop :=
  ∀ (s : State) (d : Fin 20),
    let others (t : State) : Prop := ∀ c, c < 16 * d.val ∨ 16 * d.val + 16 ≤ c → t.island c = s.island c
    let faulted (c : Instr) (cause bits : Nat) : Prop := ∃ t, exec c s = .next t ∧ others t ∧
      (∀ i, i < 16 → (t.island (16 * d + i)).supply = s.runStep (16 * d + i)) ∧
      bit (t.regN 0x48120) d = true ∧ (t.regN 0x48018) &&& bits = bits ∧
      (bit (s.regN 0x48020) 31 = false → t.regN 0x48020 = 2 ^ 31 + cause ∧ t.regN 0x48024 = d)
    s.sb.vok.length = 20 → s.sb.vreq.length = 20 →
    (s.stopped = false → s.shut ≠ .done → exec (.vokRise d) s = .next { s.setDomainStep d ((s.sb.vreq[d.val]?).getD 9) with
      sb := { s.sb with vok := setAt s.sb.vok d true } }) ∧
    (s.stopped = true ∨ s.shut = .done → ∃ t, exec (.vokRise d) s = .next t ∧ t.sb.vreq[d.val]? = some 0 ∧
      t.domainStep d = (s.sb.vreq[d.val]?).getD 9 % 16 ∧
      t.sb.vok[d.val]? = some (decide (s.sb.vreq[d.val]? = some 0))) ∧
    (SMap.find s.power.lowering d = none → exec (.islandStepConfirm d) s = .next s) ∧
    (∀ n, n < 16 → SMap.find s.power.lowering d = some n → s.sb.vok[d.val]? = some true →
      bit (s.regN 0x48120) d = false → s.stopped = false → ∃ t, exec (.islandStepConfirm d) s = .next t ∧
        t.domainStep d = n ∧ t.sb.vreq[d.val]? = some n ∧ t.sb.vok[d.val]? = some false ∧
        SMap.find t.power.lowering d = none ∧ t.islands = s.islands) ∧
    faulted (.supplyFault d) 3 4 ∧ faulted (.vokLate d) 4 36 ∧
    (∃ t, exec (.supplyFault d) s = .next t ∧ t.sb.vok[d.val]? = some false) ∧
    (s.stopped = false → ∃ t, exec (.supplyFaultEnd d) s = .next t ∧ others t ∧ (∀ i, i < 16 → (t.island (16 * d + i)).supply = 15) ∧
      bit (t.regN 0x48120) d = false ∧ t.sb.vok[d.val]? = some true)

/-- R378. `x` is the island's number: 320 is the mesh, 321 the control island. -/
def Obligations.DroopResponse : Prop :=
  ∀ (s : State) (i : IslandId),
    let x := islandIndex i
    (∃ t, exec (.droopDetect i) s = .next t ∧ t.health.droop = s.health.droop + 1 ∧
      (x < 320 → t.reg (clusterBase x + 0x2110) = s.reg (clusterBase x + 0x2110) + 1) ∧
      (t.island x = if s.droopOn x = true ∧ (s.island x).droop < 3 then
        { s.island x with droop := (s.island x).droop + 1 } else s.island x) ∧
      (x < 320 → s.droopOn x = true → (s.island x).droop = 2 → bit (t.regN (clusterBase x + 0x2018)) 0 = true) ∧
      ∀ y, y ≠ x → t.island y = s.island y) ∧
    exec (.droopQuiet i) s = .next (s.setIsland x { s.island x with droop := (s.island x).droop - 1 })

/-- R371's period: R364's energies, R369's effective cap, R372's bound by LIMIT, R370's bound of the mesh; R373's lift; R368's
staleness. -/
def Obligations.ControllerStaysWithinLimits : Prop :=
  ∀ s : State,
    (s.stopped = true ∨ s.bootStep < 4 ∨ s.bootStep = 11 → exec .controlPeriod s = .next s) ∧
    (s.stopped = false → 4 ≤ s.bootStep → s.bootStep ≠ 11 → ∃ t, exec .controlPeriod s = .next t ∧
      (∀ c, c < 320 → SMap.getD t.power.energy c 0 =
        SMap.getD s.power.energy c 0 + s.calib (domainOf c) (s.estimates.cluster c)) ∧
      t.regN 0x48134 = s.capEff ∧
      (∀ c, c < 320 → (t.island c).want ≤ t.limitOf c) ∧ (t.island 320).want ≤ 9) ∧
    (∃ t, exec .emergencyLift s = .next t ∧
      (∀ c, c < 320 → t.island c = if (s.island c).emergency < 15 then
        { s.island c with emergency := (s.island c).emergency + 1 } else s.island c) ∧
      (∀ c, 320 ≤ c → t.island c = s.island c) ∧ ∀ f : Field, f ≠ .islands → f.same s t) ∧
    (∃ t, exec .calStale s = .next t ∧ bit (t.regN 0x481F8) 0 = true ∧ bit (t.regN 0x48018) 0 = true)

/-- R366 to R368, R375, R374. -/
def Obligations.CalibrationAndTickets : Prop :=
  ∀ (s : State) (a : Access) (v : Word), Performs s a 0x48000 → a.priv = 0 →
    let cur := s.time.now / 1000000
    let found := s.completed.find? fun i => i.number % 65536 == v.toNat % 65536
    s.completed.map (·.number) = (List.range (min 4 cur)).map (fun k => cur - 1 - k) ∧
    (∀ i ∈ s.completed, ∀ j, s.power.held.find? (fun x => x.number == i.number) = some j → i = j) ∧
    (∀ i, found = some i → ∃ t, Answers (.measSeqWrite a v) s t (rgwaOf a 0) ∧ bit (t.regN 0x481F8) 0 = false ∧
      ∀ d, d < 21 →
        let raw := SMap.getD i.raw d 0
        let meas := s.regN (0x48140 + 4 * d) * 256
        t.gain d = if 256000 ≤ raw ∧ raw ≤ 2 * meas ∧ meas < 2 * raw then
          eighthStep (s.gain d) (meas * 2 ^ 14 / raw) % 65536 else s.gain d) ∧
    (found = none → ∃ t, Answers (.measSeqWrite a v) s t (rgwaOf a 0) ∧ (∀ d, d < 21 → t.gain d = s.gain d) ∧
      t.regF 0x481F8 8 8 = min 255 (s.regF 0x481F8 8 8 + 1)) ∧
    (bit v.toNat 8 = true →
      let w := s.regN (ticketKey (v.toNat % 64))
      (bit w 31 = true ∧ s.jobRuns (w % 2 ^ 16) = true →
        RefusedForState (.ticketRelease a v) s a pgPower 0xE6 0x1FC) ∧
      (¬ (bit w 31 = true ∧ s.jobRuns (w % 2 ^ 16) = true) → ∃ t, Answers (.ticketRelease a v) s t (rgwaOf a 0) ∧
        bit (t.regN (ticketKey (v.toNat % 64))) 31 = false)) ∧
    (bit v.toNat 2 = true → fld v.toNat 8 8 + fld v.toNat 16 8 ≤ 256 →
      ∃ t, Answers (.learnClear a v) s t (rgwaOf a 0) ∧ (∀ i, i < 64 → t.reg (0x48700 + 4 * i) = 0) ∧
        t.reg 0x4810C = written (s.reg 0x4810C) v 0xFFFF03)

/-- Codes 01h to 03h of R450. -/
def Obligations.ServicesForUsers : Prop :=
  ∀ (s : State) (a : Access) (v : Word), Performs s a 0x54000 → bit (s.regN 0x54104) 0 = false →
    s.sec.error = false →
    let ends (c : Instr) (result n : Nat) (P : State → Prop) : Prop := ∃ t, Answers c s t (rgwaOf a 0) ∧
      t.regN 0x54104 = result * 256 + n * 65536 ∧ bit (t.regN 0x54018) 0 = true ∧ P t
    (v.toNat % 256 = 1 → Privileged a → ends (.selftest a v .pass) 0 0 fun t => t.sec.testOk = true) ∧
    (v.toNat % 256 = 2 → a.priv = 1 →
      (1 ≤ s.mbox 0 ∧ s.mbox 0 ≤ 512 → ends (.random a v) 0 (s.mbox 0) fun t =>
        t.sec = (s.draw (s.mbox 0)).2.sec) ∧
      (s.mbox 0 = 0 ∨ 512 < s.mbox 0 → ends (.random a v) 4 0 fun t => t.sec = s.sec)) ∧
    (v.toNat % 256 = 3 → a.priv = 1 →
      (s.fuses.killed = false → ends (.attest a v) 0 496 fun t => t.reg 0x5411C = s.reg 0x5411C + 1) ∧
      (s.fuses.killed = true → ends (.attest a v) 3 0 fun t => t.sec = s.sec))

/-- Codes 04h to 06h of R450. -/
def Obligations.CryptoOfficerSession : Prop :=
  ∀ (s : State) (a : Access) (v : Word), Performs s a 0x54000 → bit (s.regN 0x54104) 0 = false →
    s.sec.error = false → a.priv = 0 → s.auditRoom = true →
    let ends (c : Instr) (result n : Nat) (P : State → Prop) : Prop := ∃ t, Answers c s t (rgwaOf a 0) ∧
      t.regN 0x54104 = result * 256 + n * 65536 ∧ bit (t.regN 0x54018) 0 = true ∧ P t
    (v.toNat % 256 = 4 → ends (.coChallenge a v) 0 48 fun t => ∃ ch, t.sec.challenge = some ch ∧ ch.length = 48) ∧
    (v.toNat % 256 = 5 → s.sec.failed < 8 →
      (s.loginOk = true → ends (.coLogin a v) 0 0 fun t => t.sec = { s.sec with challenge := none, session := true } ∧
        t.auditWritten = s.auditWritten + 1) ∧
      (s.loginOk = false → ends (.coLogin a v) 5 0 fun t =>
        t.sec = { s.sec with challenge := none, failed := s.sec.failed + 1 } ∧ t.auditWritten = s.auditWritten + 1)) ∧
    (v.toNat % 256 = 5 → 8 ≤ s.sec.failed → ends (.coLogin a v) 3 0 fun t => t.sec = s.sec) ∧
    (v.toNat % 256 = 6 → ends (.coLogout a v) 0 0 fun t => t.sec = { s.sec with session := false } ∧
      t.auditWritten = s.auditWritten + 1)

/-- Codes 07h to 0Ch of R450. -/
def Obligations.KeysAndFuses : Prop :=
  ∀ (s : State) (a : Access) (v : Word), Performs s a 0x54000 → bit (s.regN 0x54104) 0 = false →
    s.sec.error = false → a.priv = 0 → s.auditRoom = true → s.sec.session = true →
    let slot := s.mbox 0
    let key := unwrapKey s.sec.kaPriv (s.mboxBytes 4 96) slot s.fuses.serial.toNat (s.mboxBytes 100 40)
    let d := Drbg.zero.seed (fitBytes 96 (Config.entropy s.sec.seeds))
    let ends (c : Instr) (result : Nat) (P : State → Prop) : Prop := ∃ t, Answers c s t (rgwaOf a 0) ∧
      t.regN 0x54104 = result * 256 ∧ bit (t.regN 0x54018) 0 = true ∧ P t
    (v.toNat % 256 = 7 →
      (15 < slot → ends (.loadKey a v) 4 fun t => t.sec = s.sec) ∧
      (slot ≤ 15 → key = none → ends (.loadKey a v) 7 fun t => t.sec = s.sec) ∧
      (∀ k, slot ≤ 15 → key = some k → ends (.loadKey a v) 0 fun t =>
        SMap.find t.sec.keys slot = some (fitBytes 32 k) ∧
        ∀ i, i ≠ slot → SMap.find t.sec.keys i = SMap.find s.sec.keys i)) ∧
    (v.toNat % 256 = 8 →
      (15 < slot → ends (.clearKey a v) 4 fun t => t.sec = s.sec) ∧
      (slot ≤ 15 → ends (.clearKey a v) 0 fun t => SMap.find t.sec.keys slot = none ∧
        ∀ i, i ≠ slot → SMap.find t.sec.keys i = SMap.find s.sec.keys i)) ∧
    (v.toNat % 256 = 9 → ends (.zeroise a v) 0 fun t => t.sec.keys = [] ∧ t.sec.challenge = none ∧
      t.sec.session = false ∧ t.sec.kaPriv = (d.generate 48).1 ∧ t.sec.drbg = (d.generate 48).2) ∧
    (v.toNat % 256 = 10 →
      (s.fuses.ownerHash = none → ends (.fuseOwner a v) 0 fun t =>
        t.fuses = { s.fuses with ownerHash := some (s.mboxBytes 0 48) }) ∧
      (s.fuses.ownerHash ≠ none → ends (.fuseOwner a v) 8 fun t => t.fuses = s.fuses)) ∧
    (v.toNat % 256 = 11 → ends (.raiseSvn a v) 0 fun t =>
      t.fuses = { s.fuses with svnFuses := t.fuses.svnFuses } ∧
        ∀ k, k < 64 → t.fuses.svnFuses.getLsbD k = (s.fuses.svnFuses.getLsbD k || decide (k < s.sec.svn))) ∧
    (v.toNat % 256 = 12 →
      (slot = 0x4B494C4C → ends (.kill a v) 0 fun t => t.fuses = { s.fuses with killed := true }) ∧
      (slot ≠ 0x4B494C4C → ends (.kill a v) 4 fun t => t.fuses = s.fuses))

/-- R450's levels and R451's RESULT codes. -/
def Obligations.ServiceRefusals : Prop :=
  ∀ (s : State) (a : Access) (v : Word), Performs s a 0x54000 → Privileged a →
    let code := v.toNat % 256
    let ends (result : Nat) : Prop := ∃ t, Answers (.rgwr a 0x54100 v) s t (rgwaOf a 0) ∧
      t.regN 0x54104 = result * 256 ∧ bit (t.regN 0x54018) 0 = true ∧ t.sec = s.sec ∧ t.fuses = s.fuses
    (bit (s.regN 0x54104) 0 = true → RefusedForState (.rgwr a 0x54100 v) s a pgSec 0xE6 0x100) ∧
    (bit (s.regN 0x54104) 0 = false →
      (code = 0 ∨ 12 < code → ends 4) ∧
      ((code = 2 ∨ code = 3) ∧ a.priv = 0 → ends 1) ∧
      (4 ≤ code ∧ code ≤ 12 ∧ code ≠ 9 ∧ a.priv = 1 → ends 1) ∧
      (1 ≤ code ∧ code ≤ 12 → serviceLevel code a.priv.toNat = true → s.sec.error = true → ends 3) ∧
      ((code = 7 ∨ code = 11 ∨ code = 12) ∧ a.priv = 0 → s.sec.error = false → s.sec.session = false → ends 2))

/-- R453 and R455. -/
def Obligations.ProtectionEntryIsApplied : Prop :=
  ∀ (s : State) (a : Access) (v : Word), Performs s a 0x56000 → a.priv = 0 →
    let i := v.toNat % 256
    let refused (c : Instr) (cause : Nat) : Prop := ∃ t, Answers c s t (rgwaOf a 0x11) ∧ t.prot = s.prot ∧
      t.reg 0x56048 = s.reg 0x56048 + 1 ∧
      (bit (s.regN 0x56020) 31 = false → t.regN 0x56020 = 2 ^ 31 + cause ∧ t.reg 0x56024 = v)
    (v.toNat / 2 ^ 16 = s.regF 0x56144 0 16 → s.auditRoom = true → ∃ t, Answers (.protApply a v) s t (rgwaOf a 0) ∧
      t.protEntry i = ⟨s.reg 0x56120, s.reg 0x56124, s.reg 0x56128, s.reg 0x5612C, s.reg 0x56130, s.reg 0x56134⟩ ∧
      (∀ k, k ≠ i → t.protEntry k = s.protEntry k) ∧ t.reg 0x56144 = s.reg 0x56144 + 1 ∧
      t.auditWritten = s.auditWritten + 1 ∧ bit (t.regN 0x56018) 0 = true) ∧
    (v.toNat / 2 ^ 16 ≠ s.regF 0x56144 0 16 ∨ s.auditRoom = false → refused (.protApply a v) 1) ∧
    (s.taskRuns (v.toNat % 16) (v.toNat / 2 ^ 16) = true → refused (.taskEnd a v) 2) ∧
    (s.taskRuns (v.toNat % 16) (v.toNat / 2 ^ 16) = false → ∃ t, Answers (.taskEnd a v) s t (rgwaOf a 0) ∧
      ∀ x ∈ (t.queue (v.toNat % 16)).tasks, x.job ≠ v.toNat / 2 ^ 16)

/-- R457, R459, and R446's continuous test. -/
def Obligations.AuditRingAndHeldRecords : Prop :=
  ∀ (s : State) (a : Access) (v : Word), Performs s a 0x55000 →
    (a.priv = 0 → 6 ≤ v.toNat → v.toNat ≤ 16 →
      (s.audit.configured = false → 2 ^ v.toNat < s.unread + 1 →
        RefusedForState (.auditRingSizeWrite a v) s a ⟨.audit, 0, 0x55000⟩ 0xE6 0x108) ∧
      (s.audit.configured = false → s.unread + 1 ≤ 2 ^ v.toNat → ∃ t, Answers (.auditRingSizeWrite a v) s t (rgwaOf a 0) ∧
        t.audit.configured = true ∧ t.audit.held = [] ∧ t.regF 0x55108 0 5 = v.toNat ∧
        t.auditWritten = s.auditWritten + 1) ∧
      (s.audit.configured = true → RefusedForState (.auditRingSizeWrite a v) s a ⟨.audit, 0, 0x55000⟩ 0xE6 0x108)) ∧
    (Privileged a →
      (s.auditWritten - v ≤ s.auditWritten - s.reg 0x55110 →
        exec (.auditReadWrite a v) s = .next ((s.setReg 0x55110 v).respond a .rgwa 0)) ∧
      (s.auditWritten - s.reg 0x55110 < s.auditWritten - v →
        RefusedForState (.auditReadWrite a v) s a ⟨.audit, 0, 0x55000⟩ 0xE6 0x110)) ∧
    (∃ t, exec .entropyHealthTestFailure s = .next t ∧ t.sec.error = true ∧ t.sec.testOk = false ∧
      t.health.failed = true ∧ t.auditWritten = s.auditWritten + 1)

/-- Accepted writes are stated with the whole next state where they touch one register. -/
def Obligations.ClusterAndTestRegisters : Prop :=
  ∀ (s : State) (a : Access) (c : Fin 320) (v : Word), Privileged a →
    let core := s.selectedCore c
    let h := v.toNat % 64
    let e := s.handle c h
    (s.ladder c = 0 → Performs s a (clusterBase c + 0x3000) →
      exec (.fxStatusClear a c v) s = .next ((s.setReg (coreKey core 0x208)
        (s.reg (coreKey core 0x208) &&& ~~~ (v &&& w32 0x80000000))).respond a .rgwa 0) ∧
      exec (.rescueLogClear a c v) s = .next ((if bit v.toNat 31 then s.setReg (coreKey core 0x224) 0 else s).respond
        a .rgwa 0) ∧
      (s.testUnlocked = true →
        (bit v.toNat 31 = false ∨ (s.core core).holdsWork = false → exec (.tQuadWrite a c v) s =
          .next ((s.setReg (coreKey core 0xF20) (written (s.reg (coreKey core 0xF20)) v 0x8000000F)).respond a .rgwa 0)) ∧
        (bit v.toNat 31 = true → (s.core core).holdsWork = true →
          RefusedForState (.tQuadWrite a c v) s a (pgCore c) 0xE6 0xF20))) ∧
    (s.ladder c = 0 → Performs s a (clusterBase c + 0x1000) →
      (∃ t, Answers (.tagReset a c v) s t (rgwaOf a 0) ∧ genOf t c h = genOf s c h + 1 ∧ t.store = s.store ∧
        (∀ sd i, (sd = true → e.twin = true) → i < e.slots →
          t.isFull (slotKey c (e.place sd (64 * i)).1 (e.place sd (64 * i)).2.1) = bit v.toNat 8) ∧
        ∀ k, (∀ sd i, (sd = true → e.twin = true) → i < e.slots →
          k ≠ slotKey c (e.place sd (64 * i)).1 (e.place sd (64 * i)).2.1) → t.isFull k = s.isFull k) ∧
      ∀ w : Fin 2, ∃ t st, Answers (.winOpen a c w v) s t (rgwaOf a st) ∧ (st = 0 ∨ st = 0x11) ∧
        (st = 0x11 ↔ ∃ i, i < 32 ∧ bit v.toNat i = true ∧ s.openRefused c (32 * w.val + i) = true) ∧
        ∀ i, i < 32 →
          let g := 32 * w.val + i
          (t.windowOpen c g = (s.windowOpen c g || (bit v.toNat i && !s.openRefused c g))) ∧
          (bit v.toNat i = true → s.windowOpen c g = false → s.openRefused c g = false →
            genOf t c g = genOf s c g + 1 ∧ t.ownerOf c g = none ∧ t.reg (winCountKey c (s.handle c g).winCtr) = 0)) ∧
    (∀ (page : BitVec 28) (p : Page), Performs s a page.toNat → pageAt page.toNat = some p → p.base = page.toNat →
      (0x1000000 ≤ page.toNat → s.ladder p.inst = 0) → s.testUnlocked = true → fld v.toNat 0 4 ∈ p.kind.injKinds →
      let k := s.regKey p 0xF10
      exec (.tInjArm a page v) s = .next (({ s.setReg k (written (s.reg k) v 0x80FFFF0F) with
        injected := SMap.del s.injected k } : State).respond a .rgwa 0)) ∧
    (Performs s a 0x7F000 → a.priv = 0 →
      let on := bit v.toNat 0
      (on = s.testUnlocked → exec (.testctlUnlock a v) s = .next (s.respond a .rgwa 0)) ∧
      (on = true → s.testUnlocked = false → s.auditRoom = true → ∃ t, Answers (.testctlUnlock a v) s t (rgwaOf a 0) ∧
        t.testUnlocked = true ∧ t.auditWritten = s.auditWritten + 1) ∧
      (on = true → s.testUnlocked = false → s.auditRoom = false →
        RefusedForState (.testctlUnlock a v) s a pgTestctl 0xE6 0x100) ∧
      (on = false → s.testUnlocked = true → ∃ t, Answers (.testctlUnlock a v) s t (rgwaOf a 0) ∧
        t.testUnlocked = false ∧ t.injected = [] ∧ t.auditWritten = s.auditWritten + 1 ∧
        ∀ k, 0xF00 ≤ k % 0x1000 → t.reg k = regReset k))

/-- R295's register and R299's takeover. -/
def Obligations.PortRetrainAndPosition : Prop :=
  ∀ (s : State) (a : Access) (p : Fin 32) (v : Word), Privileged a →
    let k := portKey p 0x104
    (Performs s a (portKey p 0) → fld v.toNat 1 2 ≠ 3 →
      (bit v.toNat 0 = true → (s.port p).train = .up → ∃ t, Answers (.portRetrainRequest a p v) s t (rgwaOf a 0) ∧
        (t.port p).train = .detect ∧ (t.port p).retrain = true ∧ (t.port p).replay = (s.port p).replay ∧
        (t.port p).txSeq = (s.port p).txSeq ∧ (t.port p).rxSeq = (s.port p).rxSeq ∧
        bit (t.regN k) 0 = true ∧ t.regF k 1 2 = fld v.toNat 1 2 ∧ ∀ f : Field, f ∉ [.regs, .ports, .out, .power] → f.same s t) ∧
      (bit v.toNat 0 = false ∨ (s.port p).train ≠ .up →
        exec (.portRetrainRequest a p v) s = .next ((s.setRegF k 1 2 (fld v.toNat 1 2)).respond a .rgwa 0))) ∧
    (Performs s a 0x40000 → a.priv = 0 →
      (s.admitSt = 3 → exec (.positionWrite a v) s = .next
        ((((s.setRegF 0x40108 0 4 v.toNat).setRegN 0x4010C 2).flush 15 15
          (.sideFlush 0x14 (BitVec.ofNat 64 (v.toNat % 16)))).respond a .rgwa 0)) ∧
      (s.admitSt ≠ 3 → RefusedForState (.positionWrite a v) s a pgHublink 0xE6 0x108))

/-- R407, R409, R411 to R416 by cases. `part q` is queue q's part of the control block (R408). -/
def Obligations.JournalCommands : Prop :=
  ∀ (s : State) (a : Access) (v : Word) (q : Fin 16) (view : HubView),
    let jcb := viewBytes view s.jcb 1088
    let part (q o n : Nat) : Nat := bytesAt ((jcb.drop (64 + 64 * q)).take 64) o n
    let entry (i : Word) : List Byte := viewBytes view (s.entryAddr i) 128
    let holds (i : Word) : Prop := viewRange view (s.entryAddr i) 128 = .ok ∧ entryValid (entry i) i = true
    let retire := s.reg (retireKey q)
    let held : Prop := 2 ^ 31 < (v - retire).toNat ∨
      (∃ o ∈ s.accepted, o.q = q ∧ 1 ≤ (v - o.seq).toNat ∧ (v - o.seq).toNat ≤ 2 ^ 31) ∨
      (∃ n, s.replay = .journal n) ∨ ∃ n k, s.replay = .failing n k
    let u := s.setReg (retireKey q) v
    let left := s.journal.dropWhile (·.retired u)
    let steps := exec (.replayEntry view) s
    let flies := exec (.replayInFlight view) s
    (Performs s a 0x4D000 → a.priv = 0 →
      (s.queuesOff = true → bit v.toNat 0 = true → s.journalOn = false → viewRange view s.jcb 1088 = .ok →
        let floor := w32 (bytesAt jcb 0 4)
        ∃ t n, Answers (.journalEnable a v view) s t (rgwaOf a 0) ∧ t.journalOn = true ∧ t.floor = floor ∧
          t.jfloor = floor ∧ t.written = floor + w32 n ∧ t.journal.length = n ∧ n ≤ s.journalSize ∧
          (∀ k, k < n → holds (floor + w32 k)) ∧ (n < s.journalSize → ¬ holds (floor + w32 n)) ∧
          ∀ i, i < 16 → t.regN (retireKey i) = part i 0 4) ∧
      (s.queuesOff = true → bit v.toNat 0 = false → exec (.journalEnable a v view) s =
        .next ((s.setReg 0x4D010 (written (s.reg 0x4D010) v 1)).respond a .rgwa 0)) ∧
      (s.queuesOff = false → RefusedForState (.journalEnable a v view) s a pgJournal 0xE6 0x10) ∧
      (bit v.toNat 0 = false → exec (.replayCmdStart a v view) s = .next (s.respond a .rgwa 0)) ∧
      (bit v.toNat 0 = true → ¬ (s.journalOn = true ∧ s.queuesOff = true ∧ s.admitSt = 2) →
        RefusedForState (.replayCmdStart a v view) s a pgJournal 0xE6 0x11C) ∧
      (bit v.toNat 0 = true → s.journalOn = true → s.queuesOff = true → s.admitSt = 2 →
        (∀ i, i < 16 → bit (part i 24 4) 0 = false) →
        ∃ t, Answers (.replayCmdStart a v view) s t (rgwaOf a 0) ∧ t.replay = .journal s.floor ∧
          t.regF 0x4D120 0 2 = 2 ∧
          (s.written = s.floor → ∀ i, i < 16 → t.regN (queueKey i 0x110) = part i 8 4 ∧
            t.regN (queueKey i 0x10C) = part i 8 4 ∧ t.regN (queueKey i 0x144) = part i 4 4 ∧
            t.regN (queueKey i 0x12C) = part i 12 4 ∧ t.regN (queueKey i 0x130) = part i 12 4))) ∧
    (Performs s a 0x4D000 → Privileged a →
      (held → RefusedForState (.retireWrite a q v) s a pgJournal 0xE6 (0x140 + 4 * q)) ∧
      (¬ held → v = retire → exec (.retireWrite a q v) s = .next (s.respond a .rgwa 0)) ∧
      (¬ held → v ≠ retire → ∃ t, Answers (.retireWrite a q v) s t (rgwaOf a 0) ∧ t.reg (retireKey q) = v ∧
        t.journal = left ∧ t.floor = (left.head?.map (·.index)).getD s.written ∧
        ∃ x ∈ t.outst, x.op = .wr ∧ x.addr = s.jcb + 64 + 64 * q)) ∧
    (s.mute = false → s.admitSt ≠ 5 →
      (∀ i st, s.replay = .failing i st → st < 256 → ∃ t, steps = .next t ∧ t.replay = .stopped ∧ t.recovery = false ∧
        t.reg 0x4D124 = i ∧ t.regN 0x4D120 = 3 + 256 * st ∧ bit (t.regN 0x4D018) 2 = true ∧
        ∀ k, k < (s.written - i).toNat → entryValid (entry (i + w32 k)) (i + w32 k) = true →
          entryStatus (entry (i + w32 k)) = 0xFF → (∀ o ∈ s.ops, o.jindex ≠ some (i + w32 k)) →
          (t.queue (bytesAt (entry (i + w32 k)) 10 1 % 16)).st = .halted ∧
          ∃ o ∈ t.ops, o.jindex = some (i + w32 k) ∧ o.status = 0x31 ∧ o.phase = .finished) ∧
      (∀ i, s.replay = .journal i → (∀ o ∈ s.ops, o.fromJournal = false) →
        (i = s.written → ∃ t, steps = .next t ∧ t.replay = .idle ∧ t.recovery = false ∧ t.reg 0x4D120 = 0 ∧
          bit (t.regN 0x4D018) 1 = true) ∧
        (∀ e, i ≠ s.written → s.journal.find? (·.index == i) = some e →
          (s.entryDone e = true → steps = .next { s with replay := .journal (i + 1) }) ∧
          (s.entryDone e = false → ¬ holds i → ∃ t, steps = .next t ∧ t.replay = .failing i 0x31 ∧
            t.reg 0x4C130 = s.reg 0x4C130 + 1 ∧ t.reg 0x4C134 = s.reg 0x4C134 + 1) ∧
          (let r := s.countReplay.reread i view
            let u := r.st.enterEntry r.sample
            let o := u.passed r.sample r.st.nextOp (r.st.darkNext r.sample.q r.sample.desc) r.recs r.list view
            s.entryDone e = false → r.ok = true → u.checkDesc r.sample r.recs r.list = none →
            fromJournalOk o (bit (bytesAt r.entry 10 1) 5) = true → (∀ p ∈ u.ops, p.id ≠ r.st.nextOp) →
            ∃ t p, steps = .next t ∧ p ∈ t.ops ∧ p.id = r.st.nextOp ∧ p.desc = r.sample.desc ∧ p.jindex = some i ∧
              p.fromJournal = true ∧ p.stopped = false ∧
              (o.kind = .mark → p.status = 0x30 ∧ p.phase = .finished)))) ∧
      (∀ id rest o, s.replay = .flight (id :: rest) → s.op id = some o → o.phase = .interrupted →
        (∀ i ∈ rest, ∀ p, s.op i = some p → p.phase = .interrupted) →
        (o.kind ≠ .secure → o.jindex = none ∨ (∃ i, o.jindex = some i ∧ ¬ holds i) → ∃ t p, flies = .next t ∧
          t.op id = some p ∧ p.status = 0x31 ∧ p.phase = .finished ∧ t.reg 0x4C130 = s.reg 0x4C130 + 1 ∧
          t.reg 0x4C134 = s.reg 0x4C134 + 1) ∧
        (∀ i, o.jindex = some i → o.kind = .compute ∨ o.kind = .mark → o.noReplay = false →
          let r := s.countReplay.reread i view
          r.ok = true → r.st.sameInputs o r.entry = true → ∃ t p, flies = .next t ∧ t.op id = some p ∧
            p.replays = o.replays + 1 ∧ (o.kind = .mark → p.status = 0x30 ∧ p.phase = .finished) ∧
            (o.kind = .compute → p.phase ≠ .interrupted))))

/-- `i` is the entry of SEL for the register commands; R432's comparisons are on the records in the window. -/
def Obligations.GroupsFormExchangeAndDissolve : Prop :=
  (∀ (s : State) (a : Access) (v : Word), Performs s a 0x50000 → Privileged a →
    let i := s.regF 0x50100 0 6
    let g := s.group i
    let valid := (List.range 16).filter fun m => bit (g.member m) 31
    let own := valid.filter fun m => fld (g.member m) 0 4 == s.pos && fld (g.member m) 8 8 == 0xFF
    let e := s.handle g.cluster g.handle
    let ok : Prop := g.st = .empty ∧ s.admitSt ≠ 3 ∧ 2 ≤ valid.length ∧ own.length = 1 ∧ g.cluster < 320 ∧
      s.windowOpen g.cluster g.handle = true ∧ e.fmt = 9 ∧ e.tagMode = 0 ∧ 2048 ≤ e.extent
    (bit v.toNat 0 = true → ¬ ok → RefusedForState (.gCtrlForm a v) s a pgGroup 0xE6 0x108) ∧
    (bit v.toNat 0 = true → bit v.toNat 1 = false → ok → ∃ t, Answers (.gCtrlForm a v) s t (rgwaOf a 0) ∧
      (t.group i).st = .forming ∧ (t.group i).exchange = 0 ∧ (t.group i).mask = 0 ∧
      own = [(t.group i).self] ∧
      (t.group i).mine = [s.regN 0x1108, s.numericMode, s.features, g.epoch.toNat] ∧
      ∀ m ∈ valid, m ≠ (t.group i).self → ∃ x ∈ t.outst, x.purpose = .concord i m 0 ∧ x.op = .wwr ∧
        x.addr = 8 * 2 ^ 48 + 2 ^ 40 * fld (g.member m) 8 8 + 2 ^ 36 * fld (g.member m) 0 4 + 2 ^ 27 * g.cluster
          + 2 ^ 21 * g.handle + 128 * (t.group i).self) ∧
    (bit v.toNat 0 = false → bit v.toNat 1 = true → ∃ t, Answers (.gCtrlDissolve a v) s t (rgwaOf a 0) ∧
      (t.group i).st = .empty ∧ (t.group i).members = g.members ∧ (t.group i).epoch = g.epoch ∧
      (t.group i).conc = g.conc ∧
      (g.st = .empty ∨ s.groupFence i = none → (t.group i).mask = 0 ∧ t.ops = s.ops) ∧
      (∀ id o w x, g.st ≠ .empty → s.groupFence i = some id → s.op id = some o → o.kind = .fence 2 i w x →
        o.ended = false → (t.group i).mask = 128 ∧ ∃ p, t.op id = some p ∧ p.status = 0x23 ∧ p.phase = .finished))) ∧
  (∀ (s : State) (i : Fin 64),
    let g := s.group i
    let running : Prop := (g.st = .forming ∨ g.st = .fencing) ∧ g.sent ≠ []
    let there (l : List Nat) (r : Nat) : Prop := ∀ m ∈ l, s.concordHas i g m r = true
    (¬ (running ∧ g.round2 = false ∧ there g.others 0) → exec (.concordRound i) s = .next s) ∧
    (running → g.round2 = false → there g.others 0 → s.mute = false → ∃ t, exec (.concordRound i) s = .next t ∧
      (t.group i).round2 = true ∧ ∀ m ∈ g.peers, ∃ x ∈ t.outst, x.purpose = .concord i m (2 * g.exchange + 1) ∧
        x.op = .wwr) ∧
    (¬ (running ∧ g.round2 = true ∧ there g.peers 1) → exec (.concordEvaluate i) s = .next s) ∧
    (running → g.round2 = true → there g.peers 1 → g.mask = 0 →
      let word (m j : Nat) : Nat := s.concordWord g m 0 j
      let bad (j : Nat) : Prop :=
        if j < 4 then ∃ m ∈ g.others, word m (2 + j) ≠ (g.mine[j]?).getD 0
        else if j = 4 then ∃ m ∈ g.peers, 200 < s.skewTwice g m
        else j = 5 ∧ ∃ m ∈ g.others, toLE 4 (word m 0) ++ toLE 4 (word m 1) ≠
          concordDigest (word m 2) (word m 3) (word m 4) (word m 5)
      ∃ t, exec (.concordEvaluate i) s = .next t ∧ (∀ j, bit (t.group i).mask j = true ↔ bad j) ∧
        ((∀ j, ¬ bad j) → (t.group i).st = .formed) ∧
        ((∃ j, bad j) → (t.group i).st = .discord ∧ bit (t.regN 0x50018) 1 = true)))

/-- `code n` says that the value written names command n. -/
def Obligations.MailboxAndWatchdog : Prop :=
  (∀ (s : State) (a : Access) (v : Word) (view : HubView), Performs s a 0x1000 → Privileged a →
    let arg := s.regN 0x1204
    let code (n : Nat) : Prop := bit (s.regN 0x1208) 0 = false ∧ v.toNat % 256 = n
    let result (c : Instr) (r : Nat) : Prop := ∃ t, Answers c s t (rgwaOf a 0) ∧ t.regN 0x1208 = 256 * r
    let barred : Prop := s.ladder arg = 4 ∨ (s.island arg).darkening = true ∨ s.shut ≠ .none ∨ s.bootStep ≠ 10
    (bit (s.regN 0x1208) 0 = true → RefusedForState (.islandReset a v) s a pgSteward 0xE6 0x200 ∧
      RefusedForState (.blockReset a v) s a pgSteward 0xE6 0x200 ∧
      RefusedForState (.shutdown a v view) s a pgSteward 0xE6 0x200) ∧
    (code 1 → (320 ≤ arg → result (.islandReset a v) 2) ∧ (arg < 320 → barred → result (.islandReset a v) 1) ∧
      (arg < 320 → ¬ barred → ∃ t, Answers (.islandReset a v) s t (rgwaOf a 0) ∧ t.regN 0x1208 = 0 ∧
        t.regN 0x1104 = 3 + 256 * arg ∧ t.regN 0x1018 &&& 3 = 3 ∧ (∀ x ∈ t.waiting arg, 256 < x.lane) ∧
        ∀ k, k / 256 = arg → ∃ m, t.core k = { Core.idle with marks := m })) ∧
    (code 2 →
      (∀ i, i < 81920 → arg = i → ∃ t, Answers (.blockReset a v) s t (rgwaOf a 0) ∧ t.regN 0x1208 = 0 ∧
        t.regN 0x1104 = 4 + 256 * i ∧ ∃ m w, t.core i = { Core.idle with marks := m, work := w }) ∧
      (∀ q, q < 16 → arg = 2 ^ 30 + q →
        ((s.queue q).st ≠ .disabled → result (.blockReset a v) 1) ∧
        ((s.queue q).st = .disabled → ∃ t, Answers (.blockReset a v) s t (rgwaOf a 0) ∧ t.regN 0x1208 = 0 ∧
          t.regN 0x1104 = 4 + 256 * q ∧ t.reg (queueKey q 0x144) = s.reg (queueKey q 0x144) ∧
          ∀ o ∈ [0x10C, 0x110, 0x12C, 0x130], t.reg (queueKey q o) = 0)) ∧
      (∀ p, p < 32 → arg = 2 ^ 31 + p →
        ((s.port p).train ≠ .up → result (.blockReset a v) 1) ∧
        ((s.port p).train = .up → ∃ t, Answers (.blockReset a v) s t (rgwaOf a 0) ∧ t.regN 0x1208 = 0 ∧
          t.regN 0x1104 = 4 + 256 * p ∧ (t.port p).train = .detect ∧ (t.port p).retrain = true))) ∧
    (code 3 → (2 ≤ arg → result (.shutdown a v view) 2) ∧
      (arg < 2 → s.bootStep ≠ 10 ∨ s.admitSt = 4 ∨ s.admitSt = 5 → result (.shutdown a v view) 1) ∧
      (s.bootStep = 10 → s.admitSt ≠ 4 → s.admitSt ≠ 5 →
        (arg = 0 → exec (.shutdown a v view) s = .next (({ s.setRegN 0x1208 1 with
          shut := .stopping, shutResult := 0 } : State).respond a .rgwa 0)) ∧
        (arg = 1 →
          let q := s.regF 0x4C114 4 4
          let addr := s.regN 0x4C118 + 2 ^ 32 * s.regN 0x4C11C
          let d : Desc := BitVec.ofNat 512 (ofLE (viewBytes view addr 64))
          viewRange view addr 64 = .ok → d.opcode = 10 → s.securing = none → (s.queue q).st = .run →
          ∃ t, Answers (.shutdown a v view) s t (rgwaOf a 0) ∧ t.shut = .securing ∧ (t.queue q).ahead = some d ∧
            t.regN 0x1208 = 1)))) ∧
  (∀ s : State,
    let ready : Prop := s.shut = .stopping ∧ s.ops = [] ∧ (∀ w ∈ s.openList, s.windowBusy w.1 w.2 = false) ∧
      (s.replay = .idle ∨ s.replay = .stopped)
    (¬ ready → exec .shutdownFinish s = .next s) ∧
    (ready → s.shutResult < 2 ^ 16 → ∃ t, exec .shutdownFinish s = .next t ∧ t.bootStep = 11 ∧ t.shut = .done ∧
      t.mute = true ∧ t.store = [] ∧ t.sec.keys = [] ∧ t.auditWritten = s.auditWritten + 1 ∧
      t.regN 0x1208 = 256 * s.shutResult ∧ t.power.lowering = [] ∧ (∀ c, c < 320 → t.ladder c = 4) ∧
      ∀ q, q < 16 → (t.queue q).st = .disabled ∧ bit (t.regN (queueKey q 0x10)) 0 = false)) ∧
  (∀ (s : State) (c : Fin 320),
    (s.regF 0x1140 0 16 = 0 → exec (.watchdogExpiry c) s = .next s) ∧
    (s.regF 0x1140 0 16 ≠ 0 → s.mute = false → (∃ o ∈ s.ops, c.val ∈ o.holds) → s.ladder c ≠ 4 → (s.island c).darkening = false → s.shut = .none →
      s.bootStep = 10 → ∃ t, exec (.watchdogExpiry c) s = .next t ∧ t.regN 0x1104 = 11 + 256 * c ∧
        (bit (s.regN 0x1020) 31 = false → t.regN 0x1020 = 2 ^ 31 + 2 ∧ t.regN 0x1024 = c) ∧
        ∀ k, k / 256 = c.val → ∃ m, t.core k = { Core.idle with marks := m }))

/-- Readings are in 0.25 °C (R385); `T` is THROTTLE in that unit. -/
def Obligations.HeatLadderAndHealth : Prop :=
  (∀ (s : State) (rs : List (Option Int)), ∃ t, exec (.thermalSample rs) s = .next t ∧ ∀ n, n < 64 →
    let T : Int := 4 * (s.regF 0x49100 0 8 : Int)
    (∀ x, rs[n]? = some (some x) → -160 ≤ x → x ≤ 600 →
      t.regN (0x49200 + 4 * n) = (if 0 ≤ x then x else x + 2048).toNat ∧ t.sensorFailed n = false ∧
      t.throttled n = decide (T ≤ x) ∧ (480 ≤ x → bit (t.regN 0x49018) 2 = true) ∧
      (n ∈ t.therm.hot ↔ 500 ≤ x) ∧ (500 ≤ x → n ∈ s.therm.hot → t.stopped = true)) ∧
    (∀ x, rs[n]? = some (some x) → x < -160 ∨ 600 < x → t.sensorFailed n = true ∧ n ∉ t.therm.hot ∧
      (s.sensorFailed n = false → t.throttled n = false)) ∧
    (rs[n]? = none ∨ rs[n]? = some none → t.reg (0x49200 + 4 * n) = s.reg (0x49200 + 4 * n) ∧
      t.sensorFailed n = s.sensorFailed n ∧ t.throttled n = s.throttled n)) ∧
  (∀ (s : State) (n : Fin 64),
    let moved (c : Instr) (f : Island → Island) : Prop := ∃ t, exec c s = .next t ∧
      (∀ i, t.island i = if i < 320 ∧ sensorOf i = n then f (s.island i) else s.island i) ∧
      ∀ g : Field, g ≠ .islands → g.same s t
    let cool : Prop := s.sensorFailed n = false ∧
      s.tempOf n ≤ 4 * ((s.regF 0x49100 0 8 : Int) - (s.regF 0x49104 0 4 : Int))
    (s.throttled n = true → moved (.throttleStep n) fun x => { x with thermal := x.thermal - 1 }) ∧
    (s.throttled n = false → exec (.throttleStep n) s = .next s) ∧
    (cool → moved (.throttleReleaseStep n) fun x => { x with thermal := min 15 (x.thermal + 1) }) ∧
    (¬ cool → exec (.throttleReleaseStep n) s = .next s) ∧
    (s.sensorFailed n = true → exec (.sensorTimeout n) s = .next s) ∧
    (s.sensorFailed n = false → ∃ t, exec (.sensorTimeout n) s = .next t ∧ t.sensorFailed n = true ∧
      t.throttled n = false ∧ bit (t.regN 0x49018) 1 = true ∧
      (bit (s.regN 0x49020) 31 = false → t.regN 0x49020 = 2 ^ 31 + 1 ∧ t.regN 0x49024 = n))) ∧
  (∀ (s : State) (c : Fin 320),
    let k := clusterBase c + 0x2104
    let deepest := s.regF (clusterBase c + 0x2108) 0 2
    let still : Prop := s.ladder c = 0 ∧ s.islandIdle c = true ∧ s.waiting c = [] ∧ deepest ≠ 0
    (still → exec (.islandStillEntry c) s = .next (s.setRegF k 0 3 2)) ∧
    (¬ still → exec (.islandStillEntry c) s = .next s) ∧
    (s.ladder c = 2 → deepest = 2 → exec (.islandKeepEntry c) s = .next (s.setRegF k 0 3 3)) ∧
    (s.ladder c ≠ 2 ∨ deepest ≠ 2 → exec (.islandKeepEntry c) s = .next s) ∧
    (s.ladder c = 2 → s.mute = false → exec (.islandWake c) s = .next (s.setRegF k 0 3 0)) ∧
    (s.ladder c = 3 → s.mute = false → (s.island c).darkening = false → ∃ t, exec (.islandWake c) s = .next t ∧
      t.ladder c = 0 ∧ ∀ b, b < 48 → s.bank (bankKey c b) = .on ∨ s.bank (bankKey c b) = .keep →
        (s.wanted c b = 0 → t.bank (bankKey c b) = .on) ∧ (s.wanted c b = 1 → t.bank (bankKey c b) = .keep)) ∧
    (s.ladder c ≠ 2 ∧ s.ladder c ≠ 3 ∨ s.mute = true → exec (.islandWake c) s = .next s)) ∧
  (∀ s : State,
    let stops (c : Instr) (cause : Nat) : Prop := ∃ t, exec c s = .next t ∧ t.stopped = true ∧
      bit (t.regN 0x4910C) cause = true ∧ (s.stopped = false → t.mute = true ∧ t.store = [] ∧ t.full = [] ∧
        ∀ k, k < 320 → t.ladder k = 4)
    stops .coolstopBond 0 ∧ stops .coolstopCcc 1) ∧
  ∀ (s : State) (view : HubView),
    let w (i : Nat) : Nat := (s.scores[i]?).getD 0 * s.regF 0x4C104 (4 * i) 4
    let thr (i : Nat) : Nat := s.regF 0x4C110 (8 * i) 8
    let old := s.regF 0x4C100 0 8
    let risk := max (min 255 ((w 0 + w 1 + w 2 + w 3 + w 4 + w 5 + w 6) / 8)) (old - thr 3)
    let crosses (i : Nat) : Prop := old < thr i ∧ thr i ≤ risk
    let q := s.regF 0x4C114 4 4
    let addr := s.regN 0x4C118 + 2 ^ 32 * s.regN 0x4C11C
    let d : Desc := BitVec.ofNat 512 (ofLE (viewBytes view addr 64))
    (s.stopped = true → exec (.healthEvaluation view) s = .next s) ∧
    (s.stopped = false → ∃ t, exec (.healthEvaluation view) s = .next t ∧
      t.regF 0x4C100 0 8 = risk ∧ t.regF 0x4C100 8 8 = max risk (s.regF 0x4C100 8 8) ∧
      t.health.ce = 0 ∧ t.health.retrain = 0 ∧ t.health.droop = 0 ∧
      (s.health.alertArmed = true → crosses 0 → bit (t.regN 0x4C018) 0 = true) ∧
      (s.health.secureArmed = true → crosses 1 → bit (t.regN 0x4C018) 1 = true ∧
        (bit (s.regN 0x4C114) 0 = true → s.shut = .none → s.mute = false → s.admitSt ≠ 5 → viewRange view addr 64 = .ok → d.opcode = 10 →
          s.securing = none → (s.queue q).st = .run → (t.queue q).ahead = some d)))

/-- Acceptance as one event (R339); the rows give each command with its opcode, and `enterNext` the state and the
operation after the reads, the checks of R137 and the claims. -/
def Obligations.DescriptorsAreAccepted : Prop :=
  ∀ (s : State) (q : Fin 16) (view : HubView),
    let Q := s.queue q
    let k := queueKey q
    let rows : List (Instr × Nat) := [(.matmul q view, 1), (.conv q view, 2), (.batched q view, 3),
      (.elementwise q view, 4), (.move q view, 5), (.windowWrite q view, 6), (.waitCount q view, 7),
      (.signal q view, 8), (.fence q view, 9), (.secureState q view, 10), (.journalMark q view, 11),
      (.restoreCheck q view, 12), (.scrub q view, 13)]
    let becomes (c : Instr) (d : Desc) (f : State → OpRec → Prop) : Prop := ∃ t o, exec c s = .next t ∧
      t.nextOp = s.nextOp + 1 ∧ t.turn = (q + 1) % 16 ∧ t.reg (k 0x144) = s.reg (k 0x144) + 1 ∧
      t.reg (k 0x110) = (if Q.ahead.isSome then s.reg (k 0x110) else s.reg (k 0x110) + 1) ∧
      o ∈ t.ops ∧ o.id = s.nextOp ∧ o.q = q ∧ o.seq = s.reg (k 0x144) ∧ o.desc = d ∧ f t o
    let accepted (c : Instr) (d : Desc) (f : OpRec → Prop) : Prop := becomes c d fun _ o => f o
    let passes (code : Nat) (d : Desc) (u : State) (o : OpRec) : Prop := s.nextDesc q = some d ∧ d.opcode = code ∧
      s.turnOf = some q.val ∧ s.enterNext q d view = (u, o) ∧ o.kind ≠ .failed ∧ ∀ p ∈ u.ops, p.id ≠ s.nextOp
    (∀ p ∈ rows, (∀ d, s.nextDesc q = some d → d.opcode = p.2 → s.turnOf = some q.val →
        accepted p.1 d fun _ => True) ∧
      ((∀ d, s.nextDesc q = some d → d.opcode ≠ p.2) ∨ s.turnOf ≠ some q.val → exec p.1 s = .next s) ∧
      (∀ d off, s.nextDesc q = some d → d.opcode = p.2 → s.turnOf = some q.val → 7 ≤ p.2 →
        reservedBit d p.2 = some off →
        (accepted p.1 d fun o => o.status = 0x12 ∧ o.phase = .finished) ∧
        (bit (s.regN 0x2020) 31 = false → ∀ t, exec p.1 s = .next t → t.regN 0x2020 = 2 ^ 31 + 1 ∧
          t.reg 0x2024 = s.reg (k 0x144) ∧ t.regN 0x202C = 1 + 256 * off))) ∧
    (∀ p ∈ rows.take 5, ∀ d u o, passes p.2 d u o →
      (o.slivers = [] → accepted p.1 d fun x => x.status = 0 ∧ x.phase = .finished) ∧
      (o.slivers ≠ [] → (∀ c, ∀ m ∈ (u.core c).marks, m.op ≠ s.nextOp) → becomes p.1 d fun t x =>
        x.stopped = false ∧ x.status = 0 ∧ x.entries = o.entries ∧ x.slivers = o.slivers ∧ x.named = o.named ∧
        ∀ v ∈ o.slivers, ∀ i, i < 256 → (v.share i).1 < (v.share i).2 →
          { op := s.nextOp, sliver := v, base := (v.share i).1, next := (v.share i).1, stop := (v.share i).2 } ∈
            (t.core (v.cluster * 256 + i)).work)) ∧
    (∀ d u o todo e, passes 6 d u o → o.kind = .window todo [] [] → o.entries.head? = some e →
      ((∃ h l, e.a = .handle h l) ∨ ∃ b pl pi x hw nc, e.a = .record b pl pi x hw nc) →
      (todo = [] → accepted (.windowWrite q view) d fun x => x.status = 0 ∧ x.phase = .finished) ∧
      (todo ≠ [] → becomes (.windowWrite q view) d fun t x => x.stopped = false ∧ x.kind = o.kind ∧
        (x.phase = .journaling ∨ x.phase = .running ∧ ∀ v ∈ o.slivers, ∀ off,
          todo.find? (·.1 == v.cluster) = some (v.cluster, off) →
          (∃ a ∈ t.waiting v.cluster, a.dest = .winSource s.nextOp off) ∨
            ∃ y ∈ t.outst, y.purpose = .winSource s.nextOp v.cluster off))) ∧
    (∀ d u o c n target limit close, passes 7 d u o → o.kind = .wait c n target limit close none false →
      let count := u.regN (winCountKey c n)
      (target.toNat ≤ count → close = false ∨ u.windowOf c n = none →
        accepted (.waitCount q view) d fun x => x.status = 0 ∧ x.phase = .finished ∧ x.result = count) ∧
      (∀ h, target.toNat ≤ count → close = true → u.windowOf c n = some h →
        becomes (.waitCount q view) d fun t x => x.phase ≠ .finished ∧ x.holds = [c] ∧
          x.kind = .wait c n target limit close (some h) false ∧ c * 64 + h ∈ t.closing) ∧
      (count < target.toNat → accepted (.waitCount q view) d fun x => x.phase ≠ .finished ∧ x.kind = o.kind)) ∧
    (∀ d u o, passes 8 d u o → becomes (.signal q view) d fun t x => x.stopped = false ∧
      x.kind = .signal false false ∧ (x.phase = .journaling ∨ x.phase = .running ∧ ∃ y ∈ t.outst,
        y.purpose = .signalFlush s.nextOp ∧ y.op = .flush ∧ y.port = 8 + q ∧ y.stream = 15)) ∧
    (∀ d u o scope g l, passes 9 d u o → o.kind = .fence scope g l false →
      (scope ≠ 2 → l = [] → accepted (.fence q view) d fun x => x.status = 0 ∧ x.phase = .finished) ∧
      (scope = 2 → (u.group g).st = .degraded →
        accepted (.fence q view) d fun x => x.status = 0x22 ∧ x.phase = .finished) ∧
      ((∃ w ∈ l, (u.op w).isSome = true) → scope = 2 → (u.group g).st = .formed →
        becomes (.fence q view) d fun t x => x.phase ≠ .finished ∧ x.kind = o.kind ∧
          t.group g = { u.group g with st := .fencing, exchange := ((u.group g).exchange + 1) % 65536, mask := 0,
                                       sent := [], round2 := false }) ∧
      ((∃ w ∈ l, (u.op w).isSome = true) → scope ≠ 2 →
        accepted (.fence q view) d fun x => x.phase ≠ .finished ∧ x.kind = o.kind)) ∧
    (∀ d u o, passes 10 d u o → becomes (.secureState q view) d fun t x => x.stopped = false ∧ x.kind = .secure ∧
      t.regN 0x4E104 = 3 + 16 * q ∧ ∃ y, t.securing = some y ∧ y.op = s.nextOp ∧ y.drained = 0 ∧ y.failed = none ∧
        y.clusters = positions o.first o.count ∧ y.handles = maskHandles (d.pair 4)) ∧
    (∀ d u o, passes 12 d u o →
      let w := u.journaled o
      let r := (u.enlist w).restoreWork w view
      becomes (.restoreCheck q view) d fun t x => x.phase = .finished ∧ x.status = r.2 ∧
        (r.2 = 0 → t.reg 0x4E108 = (ImageHead.ofBytes (viewBytes view (d.pair 2) 256)).id)) ∧
    (∀ d u o mask first n dark, passes 13 d u o → o.kind = .scrub mask first n dark →
      becomes (.scrub q view) d fun t x => x.stopped = false ∧ x.kind = o.kind ∧
        ∀ c ∈ setClusters first n, ∀ h ∈ maskHandles mask.toNat,
          (∀ y ∈ t.store, y.1 / 64 / 512 / 48 = c →
            (u.handle c h).slotAt (y.1 / 64 / 512 % 48) (y.1 / 64 % 512) = none) ∧
          (∀ y ∈ t.full, y / 512 / 48 = c → (u.handle c h).slotAt (y / 512 % 48) (y % 512) = none) ∧
          (dark = false → t.reg (handleKey c h 7) = u.reg (handleKey c h 7) + 1) ∧
          (dark = true → (t.handle c h).power = 2)) ∧
    (∀ d, s.nextDesc q = some d → d.opcode = 11 → s.turnOf = some q.val → reservedBit d 11 = none →
      s.darkClusters = [] → Q.tasks = [] →
      accepted (.journalMark q view) d fun o => o.status = 0 ∧ o.phase = .finished ∧ o.result = s.written) ∧
    (∀ d, s.nextDesc q = some d → d.opcode = 0 ∨ 13 < d.opcode → s.turnOf = some q.val →
      accepted (.descriptorRead q) d fun o => o.status = 0x12 ∧ o.phase = .finished) ∧
    (s.nextDesc q = none →
      (Q.st = .run → Q.held = none → Q.reading = false → s.mute = false → s.admitSt ≠ 5 → s.bootStep = 10 →
        s.shut = .none → s.reg (k 0x10C) ≠ s.reg (k 0x110) → exec (.descriptorRead q) s =
          .next (((s.forgetReads q).setQueue q { Q with reading := true }).readMem (8 + q) 15 (s.regN (k 0x100)
            + 2 ^ 32 * s.regN (k 0x104) + 64 * ((s.reg (k 0x110)).toNat % 2 ^ s.regF (k 0x108) 0 5)) 64
            (.descRead q false))) ∧
      (Q.st ≠ .run ∨ s.reg (k 0x10C) = s.reg (k 0x110) → exec (.descriptorRead q) s = .next s))

/-- `got vc x` says that `x` is what the response answers and that nothing waits for a tag. -/
def Obligations.ResponsesEndTheirTransactions : Prop :=
  ∀ (s : State) (p : Fin 32) (tag : BitVec 12) (x : Outst), s.mute = false → (∀ y ∈ s.outst, y.held = none) →
    let got (vc : Nat) (op : TxnOp) : Prop := s.findOutst p vc tag.toNat = some x ∧ x.op = op
    let opGoes (c : Instr) (id : Nat) (f : OpRec → Prop) : Prop := ∃ t o, exec c s = .next t ∧ t.op id = some o ∧ f o
    (∀ (data : List Byte), got 0 .rd →
      (∀ q again, q < 16 → x.purpose = .descRead q again → x.words = 16 → (s.queue q).st = .run →
        (s.queue q).reading = true → (∀ y ∈ s.outst, y ≠ x → ∀ b, y.purpose ≠ .descRead q b) →
        (∃ t, exec (.rdr p tag 0 data) s = .next t ∧ t.queue q = { s.queue q with
          reading := false, held := some (BitVec.ofNat 512 (ofLE (fitBytes 64 data))) }) ∧
        (again = false → ∃ t, exec (.rdr p tag 0xF0 data) s = .next t ∧
          ∃ y ∈ t.outst, y.purpose = .descRead q true ∧ y.addr = x.addr) ∧
        (∀ st : Byte, st ≠ 0 → st ≠ 0xF0 → ∃ t, exec (.rdr p tag st data) s = .next t ∧
          t.reg (queueKey q 0x110) = s.reg (queueKey q 0x110) + 1 ∧
          t.reg (queueKey q 0x144) = s.reg (queueKey q 0x144) + 1 ∧ (t.queue q).st = .halted ∧ (t.queue q).halt = 0x10 ∧
          (∃ o ∈ t.ops, o.id = s.nextOp ∧ o.kind = .slot ∧ o.status = 0x10 ∧ o.detail = 0xFFFE ∧
            o.seq = s.reg (queueKey q 0x144)) ∧
          (st ≠ 0x10 → bit (t.regN (portKey p 0x18)) 4 = true))) ∧
      (∀ id c, x.purpose = .stage id c → s.wants id = true → Unarmed s 0 → ∃ t, exec (.rdr p tag 0 data) s = .next t ∧
        ∀ i, i < 4 * x.words → t.stagedByte c id (x.addr + i) = some ((data[i]?).getD 0))) ∧
    (∀ (data : List Byte) id, got 0 .atom → x.purpose = .atomic id →
      (s.op id = none → exec (.atr p tag 0 data) s = .next (s.dropOutst x)) ∧
      (∀ o, s.op id = some o → o.kind = .compute → o.phase = .running → s.coresBusy id = false →
        s.accessesOf id = false → (s.dropOutst x).waitsFor id = false →
        opGoes (.atr p tag 0 data) id fun u => u.phase = .finished ∧
          u.status = if o.stopped then o.status else o.goodStatus) ∧
      (∀ o, s.op id = some o → o.stopped = false →
        opGoes (.atr p tag 0x10 data) id fun u => u.stopped = true ∧ u.status = 0x10)) ∧
    (got 2 .wwr ∨ got 2 .wwa →
      (∀ id c off o todo sent acked, x.purpose = .windowWrite id c off → s.op id = some o →
        o.kind = .window todo sent acked →
        (opGoes (.wack p tag 0) id fun u =>
          u.kind = .window todo (sent.filter (· ≠ (c, off))) (acked ++ [(c, off)])) ∧
        (o.stopped = false → ∀ st ∈ [0x10#8, 0x11#8, 0x12#8, 0x13#8, 0x20#8, 0x21#8, 0x22#8],
          opGoes (.wack p tag st) id fun u => u.status = st.toNat ∧ u.stopped = true ∧
            u.kind = .window [] (sent.filter (· ≠ (c, off))) acked)) ∧
      (∀ g m round, x.purpose = .concord g m round → (s.group g).st = .forming ∨ (s.group g).st = .fencing →
        round / 2 = (s.group g).exchange → ∃ t, exec (.wack p tag 0x21) s = .next t ∧ (t.group g).st = .discord ∧
          (t.group g).mask = (s.group g).mask ||| 64)) ∧
    (got 3 .msg →
      (∀ v, v < 32 → x.purpose = .vector v →
        (bit (s.regN (0x20C + 16 * v)) 1 = false → ∃ t, exec (.mack p tag 0) s = .next t ∧
          t.vecBusy = setDel s.vecBusy v ∧ t.regs = s.regs) ∧
        (bit (s.regN (0x20C + 16 * v)) 1 = true → bit (s.regN (0x20C + 16 * v)) 0 = false →
          ∃ t, exec (.mack p tag 0) s = .next t ∧ v ∈ t.vecBusy ∧ bit (t.regN (0x20C + 16 * v)) 1 = false ∧
            ∃ y ∈ t.outst, y.purpose = .vectorFlush v)) ∧
      (∀ id o b w, x.purpose = .signal id → s.op id = some o → o.kind = .signal b w → o.ended = false → o.stopped = false →
        (opGoes (.mack p tag 0) id fun u => u.phase = .finished ∧ u.status = o.goodStatus) ∧
        ∀ st ∈ [0x10#8, 0x22#8], opGoes (.mack p tag st) id fun u => u.phase = .finished ∧ u.status = st.toNat)) ∧
    (got 0 .flush →
      (∀ v, x.purpose = .vectorFlush v → ∃ t, exec (.flack p tag 0) s = .next t ∧
        ∃ y ∈ t.outst, y.purpose = .vector v ∧ y.op = .msg ∧ y.port = vectorPort v) ∧
      (∀ f, x.purpose = .jcbFlush f → ∃ t, exec (.flack p tag 0) s = .next t ∧ t.jfloor = w32 f ∧
        t.outst = (coveredOut x s.outst).filter (· ≠ x)) ∧
      (∀ id o, x.purpose = .signalFlush id → s.op id = some o → ∃ t, exec (.flack p tag 0) s = .next t ∧
        ∃ y ∈ t.outst, y.purpose = .signal id ∧ y.op = .msg ∧ y.port = 8 + o.q ∧ y.addr = o.desc.pair 2) ∧
      (∀ code v, x.purpose = .sideFlush code v → ∃ t, exec (.flack p tag 0) s = .next t ∧
        ∃ y ∈ t.outst, y.purpose = .sideSignal code ∧ y.op = .msg ∧ y.port = 15) ∧
      (∀ id o n, x.purpose = .doneFlush id → s.op id = some o → o.phase = .flushing (n + 2) →
        opGoes (.flack p tag 0) id fun u => u = { o with phase := .flushing (n + 1) })) ∧
    (∀ h : HdrWords,
      let y := s.findPosted p (fld h.w0.toNat 16 12) (fld h.w0.toNat 28 4)
        (h.w1.toNat + fld h.w2.toNat 0 20 * 2 ^ 32)
      (y = none → exec (.huberr p h) s =
        .next ((s.capture (pgPort p) 1 [h.w0, h.w1, h.w2, h.w3, h.w4]).raise (pgPort p) 8)) ∧
      (∀ z id core row col o, y = some z → z.purpose = .opWrite id core row col → s.op id = some o →
        o.stopped = false → opGoes (.huberr p h) id fun u => u.status = 0x10 ∧ u.stopped = true) ∧
      ∀ z q seq, q < 16 → y = some z → z.purpose = .record q seq → (s.queue q).st = .run →
        ∃ t, exec (.huberr p h) s = .next t ∧ (t.queue q).st = .halted ∧ (t.queue q).halt = 0x10 ∧
          bit (t.regN (portKey p 0x18)) 3 = true ∧ bit (t.regN (queueKey q 0x18)) 1 = true)

/-- R342 to R346 by steps; `clear` says that OPERATION_COMPLETION may act. -/
def Obligations.OperationsComplete : Prop :=
  ∀ (s : State) (id : Nat) (o : OpRec), s.op id = some o → o.q < 16 →
    let flushing (x : OpRec) : Prop := ∃ n, x.phase = .flushing n
    let busy : Prop := (∃ x ∈ s.ops, x.q = o.q ∧ flushing x) ∨ ∃ x ∈ s.outst, x.purpose = .journalFlush id
    let clear : Prop := ¬ busy ∧ s.mute = false ∧ s.admitSt ≠ 5 ∧ (o.kind ≠ .slot ∨ s.cplRoom o.q = true)
    let flushed (t : State) (u : OpRec) : Prop := t.op id = some { u with phase := .flushing u.flushStreams.length } ∧
      ∀ f ∈ u.flushStreams, ∃ x ∈ t.outst, x.op = .flush ∧ x.port = f.1 ∧ x.stream = f.2 ∧ x.purpose = .doneFlush id
    let k := queueKey o.q
    (o.phase = .finished → clear → ∃ t, exec (.operationCompletion id) s = .next t ∧ flushed t o) ∧
    (o.phase = .finished → busy → exec (.operationCompletion id) s = .next s) ∧
    (o.phase ≠ .finished → o.kind = .compute → exec (.operationCompletion id) s = .next s) ∧
    (∀ scope g w b, o.kind = .fence scope g w b → scope ≠ 2 → o.phase = .running → o.stopped = false →
      (∀ i ∈ w, s.op i = none) → clear → ∃ t, exec (.operationCompletion id) s = .next t ∧
        flushed t { o with phase := .finished, status := o.goodStatus }) ∧
    (∀ (p : Fin 32) (tag : BitVec 12) x n, s.mute = false → s.findOutst p 0 tag.toNat = some x → x.op = .flush →
      o.phase = .flushing n → o.writeRecord = true →
      (x.purpose = .doneFlush id ∧ n ≤ 1 ∧ o.jindex = none) ∨ x.purpose = .journalFlush id → ∃ t, exec (.flack p tag 0) s = .next t ∧ t.op id = none ∧
        t.reg (k 0x12C) = s.reg (k 0x12C) + 1 ∧ t.reg (k 0x148) = o.seq ∧
        (o.desc.irq = true → bit (t.regN (k 0x18)) 0 = true) ∧ (0x10 ≤ o.status → bit (t.regN (k 0x18)) 1 = true) ∧
        (halting s o.status = true → (s.queue o.q).st = .run → (t.queue o.q).st = .halted ∧
          (t.queue o.q).halt = o.status) ∧
        (∃ y ∈ t.outst, y.op = .wr ∧ y.purpose = .record o.q o.seq ∧ y.port = 8 + o.q ∧
          y.addr = s.regN (k 0x120) + 2 ^ 32 * s.regN (k 0x124)
            + 16 * ((s.reg (k 0x12C)).toNat % 2 ^ s.regF (k 0x128) 0 5)) ∧
        (o.kind = .compute → (s.queue o.q).tasks = [] → o.wrote.Nodup → ∀ h, h < 320 * 64 →
          genOf t (h / 64) (h % 64) = if h ∈ o.wrote then genOf s (h / 64) (h % 64) + 1
            else genOf s (h / 64) (h % 64))) ∧
    (∀ (p : Fin 32) (tag : BitVec 12) x n i, s.mute = false → s.findOutst p 0 tag.toNat = some x → x.op = .flush →
      x.purpose = .doneFlush id → o.phase = .flushing n → n ≤ 1 → o.jindex = some i → o.writeRecord = true →
      Unarmed s 0x4D000 →
      ∃ t, exec (.flack p tag 0) s = .next t ∧ t.op id = some { o with phase := .flushing 1 } ∧
        (∃ y ∈ t.outst, y.op = .wr ∧ y.port = 15 ∧ y.stream = 15 ∧ y.addr = s.entryAddr i + 104) ∧
        ∃ y ∈ t.outst, y.op = .flush ∧ y.purpose = .journalFlush id ∧ y.port = 15 ∧ y.stream = 15) ∧
    (∀ c n target timeout close late, o.kind = .wait c n target timeout close none late →
      (timeout = 0 → exec (.waitCountTimeout id) s = .next s) ∧
      (timeout ≠ 0 → o.phase = .running ∨ o.phase = .journaling →
        (close = false ∨ s.windowOf c n = none → o.stopped = false → ∃ t u, exec (.waitCountTimeout id) s = .next t ∧
          t.op id = some u ∧ u.phase = .finished ∧ u.status = 0x13 ∧ u.result = s.reg (winCountKey c n)) ∧
        (∀ h, close = true → s.windowOf c n = some h → ∃ t u, exec (.waitCountTimeout id) s = .next t ∧
          t.op id = some u ∧ u.kind = .wait c n target timeout true (some h) true ∧ c * 64 + h ∈ t.closing)))

/-- The events of the array; `c`, `t`, `o`, `e` are the core, its tile, its operation and its entry. -/
def Obligations.CoresComputeTheirTiles : Prop :=
  (∀ (s : State) (k : Fin 81920) (sideB : Bool) (line : Nat) (part : FeedPart) (ecc : Ecc), (s.core k).tile = none →
    (s.core k).work = [] →
    ∀ i ∈ [Instr.feederFetch k sideB line part ecc, .passStart k, .blockPromotion k, .tileComplete k, .slugEnqueue k],
      exec i s = .next s) ∧
  (∀ (s : State) (k : Fin 81920) (r : Run), s.running k = some r → s.asleep (k / 256) = false →
    r.op.desc.isProduct = true →
    let c := s.core k
    let t := r.tile
    let o := r.op
    let e := r.entry
    let p := r.pass
    let fed (i : Instr) (f : State → Core → Prop) : Prop := ∃ u, exec i s = .next u ∧ f u (u.core k)
    let stalls (i : Instr) : Prop := fed i fun _ d => d.fullStalls = (c.fullStalls + 1) % 65536 ∧ d.slugs = c.slugs
    (∀ (sideB scale : Bool) (line idx n round : Nat) (ahead : Bool),
      let d := r.side sideB
      let fetch (ecc : Ecc) : Instr := .feederFetch k sideB line (if scale then .scale idx else .element idx) ecc
      let turn := if s.streamed d then round else 0
      let rect := d.fetchRect s n scale line idx
      let slot := d.slotRect scale line idx
      let cl := d.v.cluster
      Unarmed s (coreKey k 0) → d.isFed = true → (scale = true → d.hasScale s = true) →
      (d.at s scale line idx).isSome = true → c.findLine d scale line idx = none →
      d.target c t scale line idx = some (n, round, ahead) →
      (∀ codes, s.fetched d scale k 0 rect line idx turn = some codes →
        let bytes := packCodes (d.width scale) codes
        (∀ pos ls, makeRoom o sideB (!ahead) bytes.length (c.feeder.length + 1) c.feeder = some (pos, ls) →
          fed (fetch .clean) fun _ x =>
            x.feeder = ls ++ [{ op := o.id, entry := e.index, sideB := sideB, scale := scale, line0 := rect.line0,
                                lines := rect.lines, k0 := rect.k0, count := rect.count, pos := pos }] ∧
            ∀ i, i < bytes.length → SMap.getD x.fs (pos + i) 0 = (bytes[i]?).getD 0) ∧
        (fed (fetch .uncorrectable) fun u _ => u.reg 0x4C12C = s.reg 0x4C12C + 1 ∧ u.regN 0x1104 = 20 + 256 * k) ∧
        fed (fetch .control) fun u _ => u.health.failed = true) ∧
      ((∃ b pl pi ex hw nc, d.operand = .record b pl pi ex hw nc) → s.findSlot d scale slot turn = none →
        (∀ a ∈ d.bytesOf s scale slot, s.mute = false → s.stagedByte cl o.id a = none → s.staging? o.id cl a = false →
          fed (fetch .clean) fun u _ => ∃ y ∈ u.outst, y.op = .rd ∧ y.purpose = .stage o.id cl ∧ y.addr ≤ a ∧
            a < y.addr + 4 * y.words) ∧
        ((∀ a ∈ d.bytesOf s scale slot, (s.stagedByte cl o.id a).isSome = true) → s.stageCapacity cl ≠ 0 → cl < 320 →
          (∀ a ∈ s.pendingAccesses cl, a.handle.isSome = true) →
          fed (fetch .clean) fun u _ => ∃ a ∈ u.waiting cl, a.kind = .write ∧ a.dest = .staging (s.nextSlot cl))) ∧
      (∀ h l a, h < 64 → d.operand = .handle h l → a ∈ d.bytesOf s scale rect → s.arrivedByte k 0 h a = none →
        s.arriving k (arrivedKey 0 h a) = false → s.readsInFlight k < 8 →
        fed (fetch .clean) fun u _ => ∃ y z, u.waiting (k / 256) = s.waiting (k / 256) ++ y :: z ∧ y.kind = .read ∧
          y.handle = some h ∧ y.op = some o.id)) ∧
    (t.walked = true → t.busy = false → exec (.passStart k) s = .next s) ∧
    (∀ regs refs cells,
      let d := { c with working := regs }
      t.walked = false → t.busy = false → t.vec = 0 → t.behind t.clock = false →
      (t.loaded = true → regs = c.shadow) →
      (t.loaded = false → p.load s c r.stat (r.stat.span t.t).1 = some regs) →
      r.refs s c = some refs → r.vector s d = some cells →
      fed (.passStart k) fun _ x => x.working = regs ∧ x.feeder = c.feeder ∧ ∃ t', x.tile = some t' ∧ t'.accs = t.accs ∧
        ∀ row ∈ p.rows, ∀ col ∈ p.cols, (if p.galley then col else row) = 0 → ∀ b ∈ p.blocks, ∀ ea eb : Nat → Elem,
          (∀ kk, p.k1 ≤ kk → kk < p.stop → r.elem s d false row kk = some (ea kk) ∧
            r.elem s d true col kk = some (eb kk)) →
          (∀ y ∈ t.parts, ¬ (y.group = t.g ∧ y.vec = 0 ∧ y.block = b)) →
          ∃ y ∈ t'.parts, y.group = t.g ∧ y.vec = 0 ∧ y.block = b ∧
            y.eref = ((refs.find? (·.1 == b)).map (·.2)).getD 0 ∧ ∃ q ∈ y.elems, q.idx = row * t.sliver.nt + col ∧
            q.q = (((List.range 16).filter fun i => decide (p.k1 ≤ 16 * b + i) && decide (16 * b + i < p.stop)).map
              fun i => (product y.eref (ea (16 * b + i)) (eb (16 * b + i))).q).sum) ∧
    (takeReady t.parts = none → fed (.blockPromotion k) fun _ d =>
      d.tile.map (·.accs) = some t.accs ∧ d.slugs = c.slugs) ∧
    (∀ x rest, takeReady t.parts = some (x, rest) → (x.elems.map (·.idx)).Nodup → Unarmed s (coreKey k 0) →
      (∀ n, t.now = some n → x.due < n) →
      let takes := x.lastOfFirst e.k && !t.mayRerun o && !t.entry
      (takes = true → 4 ≤ c.entries → stalls (.blockPromotion k)) ∧
      (takes = false ∨ c.entries < 4 → fed (.blockPromotion k) fun _ d => ∃ t', d.tile = some t' ∧
        t'.entry = (t.entry || takes) ∧ (t.walked = true → t.busy = false → t'.parts = rest) ∧ ∀ q ∈ x.elems,
        let a := SMap.getD t.accs q.idx { code := 0, nan := false, pinf := false, ninf := false, sat := false }
        let sum := twos 32 a.code.toNat + q.q
        ∃ b, SMap.find t'.accs q.idx = some b ∧ b.nan = (a.nan || q.nan) ∧ b.pinf = (a.pinf || q.pinf) ∧
          b.ninf = (a.ninf || q.ninf) ∧ (a.sat = true → b.code = a.code ∧ b.sat = true) ∧
          (o.desc.accInt = true → a.sat = false →
            b.code = BitVec.ofInt 32 (max (-2147483648) (min 2147483647 sum)) ∧
            b.sat = decide (sum < -2147483648 ∨ 2147483647 < sum)))) ∧
    (t.walked = true → t.parts = [] → t.complete = false →
      let due : Prop := o.rescue = true ∧ (∃ a ∈ t.accs, a.2.sat = true) ∧ (∀ a ∈ t.accs, a.2.isNan = false) ∧
        o.desc.accInt = false ∧ (o.desc.accInit && t.first) = false
      let ends (st : Bool) : Prop :=
        (t.entry = true ∨ c.entries < 4 → exec (.tileComplete k) s = .next (s.setCore k { c with
          tile := some { t with complete := true, stop := st, entry := true } })) ∧
        (t.entry = false → 4 ≤ c.entries → stalls (.tileComplete k))
      let again (ecA ecB op : Nat) : Prop := exec (.tileComplete k) s = .next (s.setCore k { c with
        tile := some { t with
          accs := [], k0 := 0, g := 0, k1 := 0, walked := decide (e.k = 0), clock := 0, busy := false, vec := 0
          loaded := false, erefs := [], parts := [], fx := [], exc := 0, ecA := ecA, ecB := ecB
          reruns := t.reruns + 1, lastOp := op } })
      (¬ due → ends false) ∧ (due → 3 ≤ t.reruns → ends true) ∧
      (due → t.reruns < 3 → (t.ecB ≤ t.ecA → 5 ≤ t.ecA → again (t.ecA - 4) t.ecB 0) ∧
        (t.ecA < t.ecB → 5 ≤ t.ecB → again t.ecA (t.ecB - 4) 1) ∧ (t.ecA < 5 → t.ecB < 5 → ends true))) ∧
    ((∀ b, e.a ≠ .accFile b) →
      (t.complete = false → exec (.slugEnqueue k) s = .next s) ∧
      (t.complete = true → t.entry = true ∨ c.entries < 4 → fed (.slugEnqueue k) fun _ d =>
        d.slugs = c.slugs ++ [t.slug o] ∧ d.tile = none) ∧
      (t.complete = true → t.entry = false → 4 ≤ c.entries → stalls (.slugEnqueue k)))) ∧
  ∀ (eref : Int) (x y : Bool) (n m : Nat) (e f : Int) (v : Elem),
    let j := e + f - eref + 15
    let mag : Int := ((n * m * 2 ^ j.toNat / 2 ^ (-j).toNat : Nat) : Int)
    (product eref (.fin x n e) (.fin y m f)).q = (if x = y then mag else -mag) ∧
    (product eref .nan v).nan = true ∧ (product eref v .nan).nan = true ∧
    ((product eref (.inf x) (.fin y 0 f)).inv = true ∧ (product eref (.inf x) (.fin y 0 f)).nan = true) ∧
    (0 < m → (product eref (.inf x) (.fin y m f)).pinf = (x == y) ∧ (product eref (.inf x) (.fin y m f)).ninf = (x != y)) ∧
    (product eref (.inf x) (.inf y)).pinf = (x == y) ∧ (product eref (.inf x) (.inf y)).ninf = (x != y)

/-- R177 to R209 by events; `c` is the core. -/
def Obligations.TheDrainWritesSlugs : Prop :=
  ∀ (s : State) (k : Fin 81920) (o : OpRec), s.asleep (k / 256) = false →
    let c := s.core k
    let cl := k.val / 256
    let goes (i : Instr) (f : State → Core → Prop) : Prop := ∃ u, exec i s = .next u ∧ f u (u.core k)
    (c.slugs = [] → c.chain = none → ∀ b seg ecc,
      exec (.tileBufferFill k b seg) s = .next s ∧ exec (.slugDrain k ecc) s = .next s) ∧
    (∀ g, c.current = some g → s.op g.op = some o → ∀ b seg : Fin 4,
      let due := o.fills c.chainAt.1 c.chainAt.2
      ((b.val, seg.val) ∈ c.filled ∨ (b.val, seg.val) ∉ due → exec (.tileBufferFill k b seg) s = .next s) ∧
      ((b.val, seg.val) ∉ c.filled → (b.val, seg.val) ∈ due → o.tileSource b = false →
        let h := chainHandle o.chain b
        let f := (s.handle cl h).fmt
        let places := chainPlaces s o g.sliver g.t b seg
        let at_ (a : Nat) := s.arrivedByte k useBuf h a
        (places.map (·.1)).Nodup → (∀ a ∈ placesNeeds places, (at_ a).isSome = true) →
        goes (.tileBufferFill k b seg) fun _ d => d.filled = c.filled ++ [(b.val, seg.val)] ∧ d.slugs = c.slugs ∧
          ∀ p ∈ places, SMap.find d.bufs (bufKey b p.1) = some (toQs32 (decodeNum f (codeOf
            ((List.range p.2.2.2).map fun i => (at_ (p.2.1 + i)).getD 0) p.2.2.1 (fmtWidth f)))).1)) ∧
    (∀ g rest e, c.slugs = g :: rest → c.chain = none → s.op g.op = some o → o.entryOf g.sliver = some e →
      Unarmed s (coreKey k 0) →
      let ready : Prop := ∀ x ∈ o.fills false 0, x ∈ c.filled
      let inChain (d : Core) (seg : Nat) : Prop := d.slugs = c.slugs ∧ d.formes = c.formes ∧
        ∃ x, d.chain = some x ∧ x.slug = g ∧ x.again = false ∧ x.seg = seg
      (s.formeFree k o = false → exec (.slugDrain k .clean) s = .next s) ∧
      (s.formeFree k o = true → ¬ ready → goes (.slugDrain k .clean) fun _ d => inChain d 0 ∧ d.filled = c.filled) ∧
      (s.formeFree k o = true → ready → 1 < o.segments g.sliver → goes (.slugDrain k .clean) fun _ d => inChain d 1) ∧
      (s.formeFree k o = true → ready → o.segments g.sliver ≤ 1 → o.rred = none → goes (.slugDrain k .clean) fun _ d =>
        d.slugs = rest ∧ d.chain = none ∧ d.filled = [] ∧ ∃ f, d.formes = c.formes ++ [f] ∧ f.op = o.id ∧
          f.sliver = g.sliver ∧ f.t = g.t ∧ f.waiting = 0 ∧ (o.desc.bitCopy = true → f.status = g.status ∧
            f.writes = s.slugWrites o e g (copyEncoded o e g)))) ∧
    (∀ f more w ws e, c.heldFormes = f :: more → f.writes = w :: ws → s.op f.op = some o → o.entryOf f.sliver = some e →
      s.mute = false → w.mask = List.replicate w.data.length 0xFF →
      let moved (d : Core) (n : Nat) : Prop := ∀ y ∈ c.formes, y = f → ∃ z ∈ d.formes, z.op = f.op ∧ z.sliver = f.sliver ∧
        z.t = f.t ∧ z.writes = ws ∧ z.waiting = f.waiting + n
      let lead := w.addr % 4
      let trail := (4 - (lead + w.data.length) % 4) % 4
      (∀ h lc, e.c = .handle h lc → s.laneStalled k = false →
        let at_ := (s.handle cl h).place (s.writeSide cl h (some o.id)) (w.addr - lead)
        goes (.recastWrite k) fun u d => moved d 1 ∧ ∃ a, u.waiting cl = s.waiting cl ++ [a] ∧
          a.lane = k.val % 256 ∧ a.op = some o.id ∧ a.data = zeros lead ++ w.data ++ zeros trail ∧ a.lead = lead ∧
          a.trail = trail ∧ a.handle = some h ∧ a.kind = (if o.desc.cAcc then .acc else .write) ∧
          a.bank = Fin.ofNat 48 at_.1 ∧ a.row = Fin.ofNat 512 at_.2.1 ∧ a.byte = (w.addr - lead) % 64) ∧
      (∀ base, e.c = .accFile base → s.fileBusy o (base + w.addr / 1024) = false → goes (.recastWrite k) fun u d =>
        moved d 0 ∧ SMap.getD (u.core (base + w.addr / 1024)).file (w.addr / 4 % 256) 0 = w32 (ofLE w.data)) ∧
      (∀ b pl pi ex hw nc, e.c = .record b pl pi ex hw nc →
        (o.phase = .journaling → exec (.recastWrite k) s = .next s) ∧
        (o.phase ≠ .journaling → w.data ≠ [] → s.backPressed k e.c = false → goes (.recastWrite k) fun u d =>
          moved d 0 ∧ ∃ y ∈ u.outst, y.op = (if o.desc.cAcc then .wra else .wr) ∧ y.port = homePort cl ∧
            y.stream = clusterStream cl ∧ y.addr = if o.desc.cAcc then w.addr - lead else w.addr))) ∧
    (∀ f rest, c.formes = f :: rest → s.op f.op = some o →
      (f.writes ≠ [] ∨ f.waiting ≠ 0 ∨ o.phase = .journaling → exec (.slugCommit k) s = .next s) ∧
      (f.writes = [] → f.waiting = 0 → o.phase ≠ .journaling → goes (.slugCommit k) fun u d => d.formes = rest ∧
        (d.mark o.id).slugs = (c.mark o.id).slugs + 1 ∧ (d.mark o.id).status = (c.mark o.id).status ||| f.status ∧
        ∃ p, u.op o.id = some p ∧ p.committed = o.committed + 1 ∧ p.flags = o.flags ||| flagsOfStatus f.status))

/-- `mem` compares one byte of the stores, numbered as cluster, bank, row and byte give it (R214). -/
def Obligations.BanksTagsAndWindows : Prop :=
  (∀ (s : State) (c : Fin 320) (bank : Fin 48),
    let b := bankKey c bank
    let at_ (t : State) (k : Nat) : Byte := Memory.read t.store k
    let base := clusterBase c + 0x1000
    let goes (i : Instr) (f : State → Prop) : Prop := ∃ u, exec i s = .next u ∧ f u
    let stores (u : State) (a : BankAcc) (d : List Byte) : Prop :=
      let lo := byteKey c bank a.row a.byte
      ∀ k, at_ u k = if lo ≤ k ∧ k < lo + d.length then (d[k - lo]?).getD 0 else at_ s k
    let wacked (u : State) (a : BankAcc) (st : Nat) : Prop := ∀ p tag str pos pkg ctr,
      a.dest = .window p tag str pos pkg ctr → Issues s u
        { port := p, op := .wack, tag := tag, stream := str, srcpos := pos, srcpkg := pkg, status := st }
    (∀ idx ecc, nthFor bank (s.waiting c) 0 idx = none → exec (.bankAccess c bank idx ecc) s = .next s) ∧
    (∀ idx i a, nthFor bank (s.waiting c) 0 idx = some (i, a) → s.asleep c = false → s.parkedAt b = [] → s.mute = false →
      (∀ x ∈ (s.waiting c).take i, x.bank = bank → x.lane ≠ a.lane) → Unarmed s base → Unarmed s (clusterBase c) →
      Unarmed s 0 →
      (∀ h, a.handle = some h → h < 64) → s.securing = none →
      let acts := goes (.bankAccess c bank idx .clean)
      let slot := slotKey c bank a.row
      let left (u : State) : Prop := u.waiting c = dropAt (s.waiting c) i
      (s.bank b = .on →
        (a.kind = .write → s.tagAllows c a = true → acts fun u => stores u a a.data ∧ left u ∧ wacked u a 0 ∧
          (a.tagMode ≠ 0 → a.byte + a.data.length = 64 → u.isFull slot = true) ∧
          (a.tagMode = 0 → u.full = s.full)) ∧
        (a.kind = .acc → s.tagAllows c a = true → acts fun u => left u ∧
          stores u a (accRun a.fmt a.lead a.trail (s.readStore c bank a.row a.byte a.data.length) a.data).1) ∧
        (a.kind = .read → s.tagAllows c a = true → ∀ core key, a.dest = .arrived core key → acts fun u => left u ∧
          u.store = s.store ∧
          (∀ j, j < a.len → SMap.find (u.core core).arrived (key + j) = some (at_ s (byteKey c bank a.row a.byte + j))) ∧
          (a.tagMode = 1 → a.byte + a.len = 64 → u.isFull slot = false) ∧ (a.tagMode ≠ 1 → u.full = s.full)) ∧
        (s.tagAllows c a = false → acts fun u => left u ∧ u.parkedAt b = [a] ∧ u.store = s.store) ∧
        (s.tagAllows c a = true →
          (goes (.bankAccess c bank idx .corrected) fun u => u.reg 0x4C128 = s.reg 0x4C128 + 1) ∧
          (goes (.bankAccess c bank idx .uncorrectable) fun u => u.reg 0x4C12C = s.reg 0x4C12C + 1) ∧
          ∀ h, a.handle = some h → goes (.bankAccess c bank idx .uncorrectable) fun u =>
            genOf u c h = genOf s c h + 1)) ∧
      (s.bank b = .dark → acts fun u => u.store = s.store ∧ wacked u a 0x20 ∧
        (a.kind ≠ .read → u.reg (base + 0x140) = s.reg (base + 0x140) + 1)) ∧
      (s.bank b = .keep → exec (.bankAccess c bank idx .clean) s = .next (s.setBank b (.waking false))) ∧
      (∀ fd, s.bank b = .waking fd → exec (.bankAccess c bank idx .clean) s = .next s)) ∧
    (s.parkedReady c (s.parkedAt b) [] 0 = none → exec (.parkedAccessServe c bank) s = .next s) ∧
    (∀ a rest, s.parkedAt b = a :: rest → a.bank = bank → s.bank b = .on → s.asleep c = false → s.securing = none →
      Unarmed s base → Unarmed s (clusterBase c) → Unarmed s 0 → a.kind = .write → s.tagAllows c a = true → goes (.parkedAccessServe c bank) fun u => u.parkedAt b = rest ∧
        stores u a a.data ∧ (a.tagMode ≠ 0 → a.byte + a.data.length = 64 → u.isFull (slotKey c bank a.row) = true)) ∧
    (∀ idx, (∀ a, (s.parkedAt b)[idx]? = some a → a.timeout = 0) → exec (.tagTimeout c bank idx) s = .next s) ∧
    (∀ idx a p tag str pos pkg ctr, (s.parkedAt b)[idx]? = some a → a.timeout ≠ 0 → s.mute = false →
      (∀ d, s.bank b ≠ .closing d) → a.dest = .window p tag str pos pkg ctr → goes (.tagTimeout c bank idx) fun u =>
        u.parkedAt b = dropAt (s.parkedAt b) idx ∧ wacked u a 0x13 ∧ u.reg (base + 0x144) = s.reg (base + 0x144) + 1) ∧
    (∀ (row : Fin 512) (ecc : Ecc), (∀ fd, s.bank b ≠ .waking fd) →
      exec (.bankWakeDone c ⟨bank, row, ecc⟩) s = .next s) ∧
    (∀ (row : Fin 512), s.bank b = .waking false → s.wanted c bank ≠ 2 → Unarmed s base →
      exec (.bankWakeDone c ⟨bank, row, .clean⟩) s = .next (s.setBank b .on) ∧
      goes (.bankWakeDone c ⟨bank, row, .uncorrectable⟩) fun u => u.bank b = .on ∧
        u.reg 0x4C12C = s.reg 0x4C12C + 1) ∧
    (∀ (row : Fin 512) (ecc : Ecc), s.bank b = .waking true →
      (s.wanted c bank ≠ 2 → goes (.bankWakeDone c ⟨bank, row, ecc⟩) fun u =>
        u.bank b = (if s.wanted c bank = 1 then .keep else .on) ∧
        ∀ r y, r < 512 → y < 64 → at_ u (byteKey c bank r y) = 0 ∧ u.isFull (slotKey c bank r) = false)) ∧
    (∀ (row : Fin 512) (ecc : Ecc) fd, s.bank b = .waking fd → s.wanted c bank = 2 →
      goes (.bankWakeDone c ⟨bank, row, ecc⟩) fun u => u.bank b = .closing true ∨ u.bank b = .dark) ∧
    (let idle : Prop := s.bank b = .on ∧ s.wanted c bank = 1 ∧ s.outstanding c bank = 0 ∧
        ∀ a ∈ s.waiting c, a.bank ≠ bank
     (idle → exec (.bankKeepReturn c bank) s = .next (s.setBank b .keep)) ∧
     (¬ idle → exec (.bankKeepReturn c bank) s = .next s)) ∧
    ((∀ d, s.bank b ≠ .closing d) → exec (.closeTimeout c bank) s = .next s) ∧
    (s.bank b = .closing false → exec (.closeTimeout c bank) s = .next (s.setBank b .keep)) ∧
    (s.bank b = .closing true → goes (.closeTimeout c bank) fun u => u.bank b = .dark ∧
      ((s.xbar.map (·.1)).Nodup → ∀ a ∈ u.waiting c, a.bank = bank → a.kind = .read) ∧
      ∀ row byte, row < 512 → byte < 64 → at_ u (byteKey c bank row byte) = 0) ∧
    (∀ row : Fin 512, Unarmed s base → Unarmed s 0x1000 →
      exec (.patrolScrub c bank row .clean) s = .next s ∧
      (s.bank b = .on → s.asleep c = false → (∀ a ∈ s.waiting c, a.bank ≠ bank) →
        exec (.patrolScrub c bank row .corrected) s = .next s.correctedError ∧
        (goes (.patrolScrub c bank row .uncorrectable) fun u => u.reg 0x4C12C = s.reg 0x4C12C + 1) ∧
        ∀ h, ((List.range 64).find? fun i => ((s.handle c i).slotAt bank row).isSome) = some h →
          goes (.patrolScrub c bank row .uncorrectable) fun u => genOf u c h = genOf s c h + 1))) ∧
  (∀ (s : State) (c : Fin 320) (h : Fin 64),
    let id := c.val * 64 + h.val
    let ctr := (s.handle c h).winCtr
    (id ∉ s.closing ∨ s.windowBusy c h = true → exec (.windowCloseComplete c h) s = .next s) ∧
    (id ∈ s.closing → s.windowBusy c h = false → SMap.find s.endedOwners id = none →
      ∃ u, exec (.windowCloseComplete c h) s = .next u ∧ u.windowOpen c h = false ∧ id ∉ u.closing ∧
        genOf u c h = genOf s c h + 1 ∧
        ∀ o target timeout close, o ∈ s.ops → (∀ x ∈ s.ops, x.id = o.id → x = o) → o.stopped = false →
          o.phase = .running → o.kind = .wait c ctr target timeout close (some h) false →
          ∃ p, u.op o.id = some p ∧ p.phase = .finished ∧ p.result = s.reg (winCountKey c ctr) ∧
            p.status = if 0 < o.replays then 0x30 else 0)) ∧
  ∀ (s : State) (w : WinWrite) (acc : Bool), s.mute = false →
    let i : Instr := if acc then .wwa w else .wwr w
    let c := w.offset.toNat / 2 ^ 27
    let h := w.offset.toNat / 2 ^ 21 % 64
    let off := w.offset.toNat % 2 ^ 21 / 64 * 64
    let e := s.handle c h
    let mine : Prop := c < 320 ∧ homePort c = w.port.val
    let live : Prop := s.windowOpen c h = true ∧ c * 64 + h ∉ s.closing
    let fits : Prop := off + 64 ≤ e.extent
    let form : Prop := w.fmt.toNat = e.fmt ∧ (acc = true → 7 ≤ e.fmt ∧ e.fmt ≤ 9 ∧ e.tagMode = 0)
    let refused (st : Nat) : Prop := ∃ u, exec i s = .next u ∧ u.xbar = s.xbar ∧ Issues s u
      { port := w.port, op := .wack, tag := w.tag.toNat, stream := w.stream.toNat, srcpos := w.srcpos.toNat,
        srcpkg := w.srcpkg.toNat, status := st }
    (¬ mine → refused 0x10) ∧ (mine → s.admitSt = 3 → refused 0x11) ∧ (mine → s.admitSt ≠ 3 → ¬ live → refused 0x21) ∧
    (mine → s.admitSt ≠ 3 → live → ¬ fits → refused 0x10) ∧ (mine → s.admitSt ≠ 3 → live → fits → ¬ form → refused 0x12) ∧
    (mine → s.admitSt ≠ 3 → live → fits → form → s.concordWindow c h = false → ∃ u a, exec i s = .next u ∧
      u.waiting c = s.waiting c ++ [a] ∧ (∀ f : Field, f ∉ [.xbar, .free] → f.same s u) ∧ 257 ≤ a.lane ∧ a.lane ≤ 262 ∧
      a.kind = (if acc then .acc else .write) ∧ a.data = fitBytes 64 w.data ∧ a.handle = some h ∧
      a.bank = Fin.ofNat 48 (e.place (s.writeSide c h none) off).1 ∧
      a.row = Fin.ofNat 512 (e.place (s.writeSide c h none) off).2.1 ∧
      a.dest = .window w.port w.tag.toNat w.stream.toNat w.srcpos.toNat w.srcpkg.toNat e.winCtr)

/-- R418, R419 and R421; `x` is the securing, `o` its operation. -/
def Obligations.SecuringDrainsAndCompletes : Prop :=
  ∀ (s : State) (id : Nat) (x : Securing), s.securing = some x →
    (x.op ≠ id → ∀ c : Fin 320, exec (.secureSnapshotPoint id) s = .next s ∧ exec (.secureDrain id c) s = .next s ∧
      exec (.secureComplete id) s = .next s) ∧
    ∀ o, x.op = id → s.op id = some o → o.phase = .running → s.mute = false →
      let goes (i : Instr) (f : State → Prop) : Prop := ∃ u, exec i s = .next u ∧ f u
      let waits : Prop := ∃ p ∈ s.ops, p.id < id ∧ (p.q = o.q ∨ ∃ k ∈ p.written, (SMap.find x.side k).isSome = true)
      let writes (u : State) (addr : Nat) : Prop := ∃ y ∈ u.outst, y.op = .wr ∧ y.addr = addr
      (x.snapshot = false → waits → exec (.secureSnapshotPoint id) s = .next s) ∧
      (x.snapshot = false → ¬ waits → x.failed = none → goes (.secureSnapshotPoint id) fun u =>
        (∃ y, u.securing = some y ∧ y.op = id ∧ y.snapshot = true ∧ y.side = x.side) ∧ bit (u.regN 0x4E104) 1 = false ∧
        writes u (o.desc.pair 2) ∧ writes u (o.desc.pair 2 + 256)) ∧
      (∀ c : Fin 320, x.snapshot = false ∨ s.drainPos x c = none → exec (.secureDrain id c) s = .next s) ∧
      (∀ (c : Fin 320) r t, x.snapshot = true → c.val ∈ x.clusters → s.drainPos x c = some (r, t) → x.failed = none →
        x.written = false →
        let h := (x.handles[r]?).getD 0
        let e := s.handle c h
        let sd := SMap.getD x.side (c * 64 + h) false
        let moved := movedKey c h t
        SMap.find x.side (c * 64 + h) = some sd → goes (.secureDrain id c) fun u =>
          (∃ y, u.securing = some y ∧ y.op = id ∧ y.drained = x.drained + 1 ∧ y.side = x.side) ∧ moved ∈ u.moved ∧
          (moved ∈ s.moved → u.store = s.store) ∧
          (moved ∉ s.moved → u.reg 0x4E10C = s.reg 0x4E10C + 1 ∧
            u.readStore c (e.place (!sd) (64 * t)).1 (e.place (!sd) (64 * t)).2.1 0 64 =
              s.readStore c (e.place sd (64 * t)).1 (e.place sd (64 * t)).2.1 0 64) ∧
          writes u (o.desc.pair 2 + s.sectionOff (imageSections x.clusters x.handles) (bit (o.desc.word 1) 0)
            (1 + (x.clusters.findIdx fun k => k == c.val) * x.handles.length + r) + 64 * t)) ∧
      (x.written = false ∨ (∃ y ∈ s.outst, y.purpose = .secureFlush id) → exec (.secureComplete id) s = .next s) ∧
      (x.written = true → (∀ y ∈ s.outst, y.purpose ≠ .secureFlush id) → o.q < 16 → (x.side.map (·.1)).Nodup →
        (∀ p ∈ x.side, p.1 < 320 * 64) →
        let swapped (u : State) : Prop := u.securing = none ∧ u.reg 0x4E104 = 0 ∧
          ∀ p ∈ x.side, (u.handle (p.1 / 64) (p.1 % 64)).cur = !p.2 ∧
            genOf u (p.1 / 64) (p.1 % 64) = genOf s (p.1 / 64) (p.1 % 64) + 1
        (x.failed = none → o.stopped = false → goes (.secureComplete id) fun u => swapped u ∧
          SMap.find u.images o.q = some { seq := o.seq, id := x.imageId, save := o.desc.pair 2, dig := o.desc.pair 6 } ∧
          u.reg (retireKey o.q) = o.seq ∧ u.reg 0x4E108 = x.imageId ∧ bit (u.regN 0x4E018) 0 = true ∧
          ∃ p, u.op id = some p ∧ p.phase = .finished ∧ p.status = o.goodStatus ∧ p.result = x.imageId) ∧
        (∀ st, x.failed = some st → goes (.secureComplete id) fun u => swapped u ∧ bit (u.regN 0x4E018) 1 = true ∧
          ∃ p, u.op id = some p ∧ p.phase = .finished ∧ p.status = if o.stopped then o.status else st))
end

