-- ==== Sys2Proof/Laws/Memory.lean ====
section
/-!
SUPPORT. Laws of sparse maps and of the central stores' contents: a read after a write, and that every operation on
memory keeps the canonical form.
-/

namespace Sys2Proof.Machine

set_option Elab.async false

/-! ## Sparse maps -/

@[simp] theorem SMap.find_put_same {α : Type} (m : SMap α) (k : Nat) (v : α) : SMap.find (SMap.put m k v) k = some v := by
  induction m with
  | nil => simp [SMap.put, SMap.find]
  | cons p t ih =>
    obtain ⟨j, w⟩ := p
    simp only [SMap.put]
    split
    · simp [SMap.find]
    · split
      · simp [SMap.find]
      · next h1 h2 => simp [SMap.find, ih, Ne.symm h2]

theorem SMap.find_put_other {α : Type} (m : SMap α) {k a : Nat} (v : α) (h : a ≠ k) :
    SMap.find (SMap.put m k v) a = SMap.find m a := by
  induction m with
  | nil => simp [SMap.put, SMap.find, Ne.symm h]
  | cons p t ih =>
    obtain ⟨j, w⟩ := p
    simp only [SMap.put]
    split
    · simp [SMap.find, Ne.symm h]
    · split
      · next h1 h2 => subst h2; simp [SMap.find, Ne.symm h]
      · simp [SMap.find, ih]

theorem SMap.find_del_other {α : Type} (m : SMap α) {k a : Nat} (h : a ≠ k) :
    SMap.find (SMap.del m k) a = SMap.find m a := by
  induction m with
  | nil => rfl
  | cons p t ih =>
    obtain ⟨j, w⟩ := p
    simp only [SMap.del]
    split
    · next h1 => subst h1; simp [SMap.find, Ne.symm h, ih]
    · simp [SMap.find, ih]

/-- A map whose keys strictly rise. -/
def SMap.Rising {α : Type} (m : SMap α) : Prop := m.Pairwise fun p q => p.1 < q.1

@[simp] theorem SMap.find_del_same {α : Type} (m : SMap α) (k : Nat) : SMap.find (SMap.del m k) k = none := by
  induction m with
  | nil => rfl
  | cons p t ih =>
    simp only [SMap.del]
    split
    · exact ih
    · next h1 => simp [SMap.find, h1, ih]

/-- A map with a default reads back what was put. -/
@[simp] theorem SMap.getD_putD_same {α : Type} [DecidableEq α] (m : SMap α) (k : Nat) (v d : α) :
    SMap.getD (SMap.putD m k v d) k d = v := by
  simp only [SMap.putD, SMap.getD]
  split
  · next h => simp [h]
  · simp

/-- Every other key reads as before. -/
theorem SMap.getD_putD_other {α : Type} [DecidableEq α] (m : SMap α) {k a : Nat} (v d e : α) (h : a ≠ k) :
    SMap.getD (SMap.putD m k v d) a e = SMap.getD m a e := by
  simp only [SMap.putD, SMap.getD]
  split
  · rw [SMap.find_del_other m h]
  · rw [SMap.find_put_other m v h]

theorem SMap.mem_put {α : Type} {m : SMap α} {k : Nat} {v : α} {p : Nat × α} (h : p ∈ SMap.put m k v) :
    p = (k, v) ∨ p ∈ m := by
  induction m with
  | nil => simpa [SMap.put] using h
  | cons q t ih =>
    simp only [SMap.put] at h
    split at h
    · simpa using h
    · split at h
      · rcases List.mem_cons.1 h with h | h
        · exact .inl h
        · exact .inr (by simp [h])
      · rcases List.mem_cons.1 h with h | h
        · exact .inr (by simp [h])
        · rcases ih h with h | h
          · exact .inl h
          · exact .inr (by simp [h])

theorem SMap.mem_del {α : Type} {m : SMap α} {k : Nat} {p : Nat × α} (h : p ∈ SMap.del m k) : p ∈ m := by
  induction m with
  | nil => simp [SMap.del] at h
  | cons q t ih =>
    simp only [SMap.del] at h
    split at h
    · simp [ih h]
    · rcases List.mem_cons.1 h with h | h
      · simp [h]
      · simp [ih h]

theorem SMap.rising_put {α : Type} {m : SMap α} (h : SMap.Rising m) (k : Nat) (v : α) : SMap.Rising (SMap.put m k v) := by
  induction m with
  | nil => simp [SMap.put, SMap.Rising]
  | cons q t ih =>
    obtain ⟨j, w⟩ := q
    have h' := List.pairwise_cons.1 h
    simp only [SMap.put]
    split
    · next hk =>
      refine List.pairwise_cons.2 ⟨fun p hp => ?_, h⟩
      rcases List.mem_cons.1 hp with hp | hp
      · subst hp; exact hk
      · exact Nat.lt_trans hk (h'.1 p hp)
    · split
      · next hk => exact List.pairwise_cons.2 ⟨fun p hp => hk ▸ h'.1 p hp, h'.2⟩
      · next h1 h2 =>
        refine List.pairwise_cons.2 ⟨fun p hp => ?_, ih h'.2⟩
        rcases SMap.mem_put hp with hp | hp
        · subst hp; show j < k; omega
        · exact h'.1 p hp

theorem SMap.rising_del {α : Type} {m : SMap α} (h : SMap.Rising m) (k : Nat) : SMap.Rising (SMap.del m k) := by
  induction m with
  | nil => exact h
  | cons q t ih =>
    have h' := List.pairwise_cons.1 h
    simp only [SMap.del]
    split
    · exact ih h'.2
    · exact List.pairwise_cons.2 ⟨fun p hp => h'.1 p (SMap.mem_del hp), ih h'.2⟩

/-! ## The canonical form -/

theorem Memory.wf_iff (m : List Host.Cell) :
    Memory.wf m = true ↔ SMap.Rising m ∧ ∀ p ∈ m, p.2 ≠ storeDefault := by
  induction m with
  | nil => simp [Memory.wf, SMap.Rising]
  | cons p t ih =>
    obtain ⟨a, v⟩ := p
    cases t with
    | nil => simp [Memory.wf, SMap.Rising]
    | cons q t =>
      obtain ⟨b, w⟩ := q
      simp only [Memory.wf, Bool.and_eq_true, decide_eq_true_eq, ih, SMap.Rising, List.pairwise_cons, bne_iff_ne, ne_eq]
      constructor
      · rintro ⟨⟨hab, hv⟩, ⟨hb, hr⟩, hd⟩
        refine ⟨⟨?_, hb, hr⟩, ?_⟩
        · intro x hx
          rcases List.mem_cons.1 hx with hx | hx
          · subst hx; exact hab
          · exact Nat.lt_trans hab (hb x hx)
        · intro x hx
          rcases List.mem_cons.1 hx with hx | hx
          · subst hx; exact hv
          · exact hd x hx
      · rintro ⟨⟨ha, hb, hr⟩, hd⟩
        exact ⟨⟨ha (b, w) (by simp), hd (a, v) (by simp)⟩, ⟨hb, hr⟩, fun x hx => hd x (by simp [hx])⟩

theorem Memory.wf_write {m : List Host.Cell} (h : Memory.wf m = true) (a : Nat) (v : Byte) :
    Memory.wf (Memory.write m a v) = true := by
  obtain ⟨hr, hd⟩ := (Memory.wf_iff m).1 h
  simp only [Memory.write, SMap.putD]
  split
  · exact (Memory.wf_iff _).2 ⟨SMap.rising_del hr a, fun p hp => hd p (SMap.mem_del hp)⟩
  · next hv =>
    refine (Memory.wf_iff _).2 ⟨SMap.rising_put hr a v, fun p hp => ?_⟩
    rcases SMap.mem_put hp with hp | hp
    · subst hp; exact hv
    · exact hd p hp

theorem Memory.wf_writeRun {m : List Host.Cell} (h : Memory.wf m = true) (a : Nat) (d : List Byte) :
    Memory.wf (Memory.writeRun m a d) = true := by
  induction d generalizing m a with
  | nil => exact h
  | cons v t ih => exact ih (Memory.wf_write h a v) (a + 1)

theorem Memory.wf_filter {m : List Host.Cell} (h : Memory.wf m = true) (p : Host.Cell → Bool) :
    Memory.wf (m.filter p) = true := by
  obtain ⟨hr, hd⟩ := (Memory.wf_iff m).1 h
  exact (Memory.wf_iff _).2 ⟨List.Pairwise.filter p hr, fun q hq => hd q (List.mem_filter.1 hq).1⟩

theorem Memory.wf_clear {m : List Host.Cell} (h : Memory.wf m = true) (lo hi : Nat) :
    Memory.wf (Memory.clear m lo hi) = true := Memory.wf_filter h _

/-! ## Reads after writes -/

@[simp] theorem Memory.read_write_same (m : List Host.Cell) (a : Nat) (v : Byte) :
    Memory.read (Memory.write m a v) a = v := SMap.getD_putD_same m a v storeDefault

theorem Memory.read_write_other (m : List Host.Cell) {a b : Nat} (v : Byte) (h : b ≠ a) :
    Memory.read (Memory.write m a v) b = Memory.read m b := SMap.getD_putD_other m v _ _ h

theorem Memory.read_writeRun_other (d : List Byte) (m : List Host.Cell) {a b : Nat} (h : b < a ∨ a + d.length ≤ b) :
    Memory.read (Memory.writeRun m a d) b = Memory.read m b := by
  induction d generalizing m a with
  | nil => rfl
  | cons v t ih =>
    simp only [Memory.writeRun]
    rw [ih]
    · exact Memory.read_write_other m v (by simp only [List.length_cons] at h; omega)
    · simp only [List.length_cons] at h; omega

end Sys2Proof.Machine
end

