-- ==== Sys2Proof/Laws/Keep.lean ====
section
/-!
SUPPORT. `Keep s t` says what every operation of the block does to the queue, the transactions issued, the fuses, the
central stores and the held audit records; the files Laws/Keep*.lean hold one lemma of it for each shared operation.
-/

namespace Sys2Proof.Machine

set_option Elab.async false

/-- One set of parts lies in another. -/
structure Sub (a b : List Field) : Prop where
  mem : ∀ f ∈ a, f ∈ b

theorem Sub.trans {a b c : List Field} (h : Sub b c) (g : a.all (b.contains ·) = true) : Sub a c :=
  ⟨fun f hf => h.mem f (by simpa using List.all_eq_true.1 g f hf)⟩

/-- Blowing SVN_MIN fuses never lowers their count. -/
theorem Fuses.svnMin_le_raise (f : Fuses) (n : Nat) : f.svnMin ≤ (f.raiseSvn n).svnMin := by
  simp only [Fuses.svnMin, ← List.countP_eq_length_filter]
  exact List.countP_mono_left fun i _ h => by simp [Fuses.raiseSvn, h]

/-- Two states agree outside a set of parts. -/
structure Differ (l : List Field) (s t : State) : Prop where
  same : ∀ f, f ∉ l → f.same s t

/-- What an operation of the block does: it leaves the queue and the parts outside `l` as they were, takes back no
transaction that has been issued, and keeps the fuses' order, the stores' form and the bound on held audit records. -/
structure Keep (l : List Field) (s t : State) : Prop where
  same    : Differ l s t
  pending : t.pending = s.pending
  out     : OutExtends s t
  fuses   : FuseLe s.fuses t.fuses
  store   : Memory.wf s.store = true → Memory.wf t.store = true
  held    : s.audit.held.length ≤ 16 → t.audit.held.length ≤ 16

theorem Field.same_refl (f : Field) (s : State) : f.same s s := by cases f <;> exact rfl

theorem Field.same_trans {f : Field} {s t u : State} (h : f.same s t) (g : f.same t u) : f.same s u := by
  cases f <;> exact Eq.trans g h

theorem FuseLe.refl (a : Fuses) : FuseLe a a := ⟨rfl, rfl, rfl, Nat.le_refl _, fun _ h => h, fun h => h⟩

theorem FuseLe.trans {a b c : Fuses} (h : FuseLe a b) (g : FuseLe b c) : FuseLe a c :=
  ⟨g.identity.trans h.identity, g.serial.trans h.serial, g.root.trans h.root, h.svn.trans g.svn, fun x hx => g.owner x (h.owner x hx),
    fun hx => g.killed (h.killed hx)⟩

theorem Differ.trans {l : List Field} {s t u : State} (h : Differ l s t) (g : Differ l t u) : Differ l s u :=
  ⟨fun f hf => Field.same_trans (h.same f hf) (g.same f hf)⟩

theorem Keep.refl (l : List Field) (s : State) : Keep l s s :=
  ⟨⟨fun f _ => f.same_refl s⟩, rfl, ⟨[], by simp⟩, FuseLe.refl _, fun h => h, fun h => h⟩

theorem Keep.trans {l : List Field} {s t u : State} (h : Keep l s t) (g : Keep l t u) : Keep l s u := by
  obtain ⟨a, ha⟩ := h.out
  obtain ⟨b, hb⟩ := g.out
  exact ⟨h.same.trans g.same, g.pending.trans h.pending, ⟨a ++ b, by rw [hb, ha, List.append_assoc]⟩,
    h.fuses.trans g.fuses, fun x => g.store (h.store x), fun x => g.held (h.held x)⟩

/-- A larger set of parts. -/
theorem Keep.mono {l m : List Field} {s t : State} (h : Keep l s t) (hl : Sub l m) : Keep m s t :=
  ⟨⟨fun f hf => h.same.same f fun g => hf (hl.mem f g)⟩, h.pending, h.out, h.fuses, h.store, h.held⟩

/-- A state with a store that is canonical if the old one is. -/
theorem Keep.withStore {l : List Field} {s t u : State} (h : Keep l s t) (h1 : u.pending = t.pending)
    (h2 : u.out = t.out) (h3 : u.fuses = t.fuses) (h4 : Memory.wf t.store = true → Memory.wf u.store = true)
    (h5 : u.audit = t.audit)
    (hd : Differ l t u := by exact ⟨fun f hf => by cases f <;> first | with_reducible exact rfl |
      exact absurd (Sub.mem (by assumption) _ (by decide)) hf⟩) : Keep l s u :=
  ⟨h.same.trans hd, h1.trans h.pending, by obtain ⟨a, ha⟩ := h.out; exact ⟨a, h2.trans ha⟩, h3 ▸ h.fuses,
    fun x => h4 (h.store x), h5 ▸ h.held⟩

/-- A state that agrees in the queue, the transactions issued, the fuses, the stores and the audit log. -/
theorem Keep.congr {l : List Field} {s t u : State} (h : Keep l s t) (h1 : u.pending = t.pending)
    (h2 : u.out = t.out) (h3 : u.fuses = t.fuses) (h4 : u.store = t.store) (h5 : u.audit = t.audit)
    (hd : Differ l t u := by exact ⟨fun f hf => by cases f <;> first | with_reducible exact rfl |
      exact absurd (Sub.mem (by assumption) _ (by decide)) hf⟩) : Keep l s u :=
  h.withStore h1 h2 h3 (fun x => h4 ▸ x) h5 hd

/-- An update of other parts. -/
theorem Keep.upd {l : List Field} {s t : State} {v0 v1 v3 v4 v5 v6 v7 v8 v9 v10 v11 v12 v13 v14 v15 v16 v17 v19
    v20 v21 v22 v23 v24 v26 v28 v29 v30 v31 v32 v33 v34 v35 v36 v37 v38 v39 v40 v41 v42 v43 v44 v45}
    (hd : Differ l t ⟨v0, v1, t.store, v3, v4, v5, v6, v7, v8, v9, v10, v11, v12, v13, v14, v15, v16, v17,
      t.out, v19, v20, v21, v22, v23, v24, t.fuses, v26, t.audit, v28, v29, v30, v31, v32, v33, v34, v35, v36,
      v37, v38, v39, v40, v41, v42, v43, v44, v45, t.pending⟩) (h : Keep l s t) : Keep l s ⟨v0, v1, t.store, v3,
      v4, v5, v6, v7, v8, v9, v10, v11, v12, v13, v14, v15, v16, v17, t.out, v19, v20, v21, v22, v23, v24,
      t.fuses, v26, t.audit, v28, v29, v30, v31, v32, v33, v34, v35, v36, v37, v38, v39, v40, v41, v42, v43,
      v44, v45, t.pending⟩ :=
  h.congr rfl rfl rfl rfl rfl hd

theorem Keep.foldl {α : Type} {l : List Field} {s : State} {g : State → α → State} {as : List α} {t : State}
    (h : Keep l s t) (hg : ∀ u x, Keep l s u → Keep l s (g u x)) : Keep l s (as.foldl g t) := by
  induction as generalizing t with
  | nil => exact h
  | cons a as ih => exact ih (hg t a h)

theorem Keep.of_fst {α : Type} {l : List Field} {s t : State} {x : α} {p : State × α} (e : p = (t, x))
    (h : Keep l s p.1) : Keep l s t := by
  rw [e] at h; exact h

theorem Keep.of_snd {α : Type} {l : List Field} {s t : State} {x : α} {p : α × State} (e : p = (x, t))
    (h : Keep l s p.2) : Keep l s t := by
  rw [e] at h; exact h

theorem Keep.of_read {α : Type} {l : List Field} {s : State} {r : Restore} {x : α} {p : Restore × α} (e : p = (r, x))
    (h : Keep l s p.1.st) : Keep l s r.st := by
  rw [e] at h; exact h

/-- One more held record, the oldest of sixteen given up. -/
theorem Keep.heldOnto {l : List Field} {s t : State} (h : Keep l s t) (r : List Byte) (u : State)
    (hu : u = { t with audit := { t.audit with held :=
      (if t.audit.held.length < 16 then t.audit.held else t.audit.held.drop 1) ++ [r] } })
    (hl : .audit ∈ l) : Keep l s u := by
  subst hu
  refine ⟨h.same.trans ⟨fun f hf => by cases f <;> first | with_reducible exact rfl | exact absurd hl hf⟩, h.pending,
    h.out, h.fuses, h.store, fun hs => ?_⟩
  have hb := h.held hs
  show (_ ++ [r]).length ≤ 16
  split
  · simp only [List.length_append, List.length_cons, List.length_nil]; omega
  · simp only [List.length_append, List.length_drop, List.length_cons, List.length_nil]; omega

/-- A fold whose accumulator holds a state. -/
theorem Keep.foldl' {α β : Type} {l : List Field} {s : State} {g : β → α → β} {as : List α} {b : β} (π : β → State)
    (h : Keep l s (π b)) (hg : ∀ b x, Keep l s (π b) → Keep l s (π (g b x))) : Keep l s (π (as.foldl g b)) := by
  induction as generalizing b with
  | nil => exact h
  | cons a as ih => exact ih (hg b a h)

end Sys2Proof.Machine
end

