-- ==== Sys2Proof/Laws/KeepOps.lean ====
section
/-!
SUPPORT. The shared operations over registers, transactions, handles, operations in flight and the stores: what each does to
the parts of the state that the invariants speak of (`Keep`).
-/

namespace Sys2Proof.Machine

set_option Elab.async false
set_option linter.unusedTactic false
set_option linter.unreachableTactic false
set_option linter.unusedVariables false

theorem Keep.setReg {fs : List Field} {s t : State} (h : Keep fs s t) (key v)
    (hl : Sub [.regs] fs := by exact Sub.trans (by assumption) (by rfl)) :
    Keep fs s (State.setReg t key v) := by
  unfold State.setReg
  try dsimp only
  repeat' first
    | with_reducible exact h | with_reducible assumption | exact Sub.trans (by assumption) (by rfl)
    | intro _ | split | dsimp only | with_reducible apply Keep.upd
    | exact ⟨fun f hf => by cases f <;> first | with_reducible exact rfl |
        exact absurd (Sub.mem (by assumption) _ (by decide)) hf⟩

theorem Keep.setRegN {fs : List Field} {s t : State} (h : Keep fs s t) (key v)
    (hl : Sub [.regs] fs := by exact Sub.trans (by assumption) (by rfl)) :
    Keep fs s (State.setRegN t key v) := by
  unfold State.setRegN
  try dsimp only
  repeat' first
    | with_reducible exact h | with_reducible assumption | exact Sub.trans (by assumption) (by rfl)
    | with_reducible apply Keep.setReg | intro _ | split | dsimp only

theorem Keep.setRegF {fs : List Field} {s t : State} (h : Keep fs s t) (key lo w v)
    (hl : Sub [.regs] fs := by exact Sub.trans (by assumption) (by rfl)) :
    Keep fs s (State.setRegF t key lo w v) := by
  unfold State.setRegF
  try dsimp only
  repeat' first
    | with_reducible exact h | with_reducible assumption | exact Sub.trans (by assumption) (by rfl)
    | with_reducible apply Keep.setRegN | intro _ | split | dsimp only

theorem Keep.orReg {fs : List Field} {s t : State} (h : Keep fs s t) (key bits)
    (hl : Sub [.regs] fs := by exact Sub.trans (by assumption) (by rfl)) :
    Keep fs s (State.orReg t key bits) := by
  unfold State.orReg
  try dsimp only
  repeat' first
    | with_reducible exact h | with_reducible assumption | exact Sub.trans (by assumption) (by rfl)
    | with_reducible apply Keep.setReg | intro _ | split | dsimp only

theorem Keep.incReg {fs : List Field} {s t : State} (h : Keep fs s t) (key n)
    (hl : Sub [.regs] fs := by exact Sub.trans (by assumption) (by rfl)) :
    Keep fs s (State.incReg t key n) := by
  unfold State.incReg
  try dsimp only
  repeat' first
    | with_reducible exact h | with_reducible assumption | exact Sub.trans (by assumption) (by rfl)
    | with_reducible apply Keep.setReg | intro _ | split | dsimp only

theorem Keep.setShadow {fs : List Field} {s t : State} (h : Keep fs s t) (key v)
    (hl : Sub [.shad] fs := by exact Sub.trans (by assumption) (by rfl)) :
    Keep fs s (State.setShadow t key v) := by
  unfold State.setShadow
  try dsimp only
  repeat' first
    | with_reducible exact h | with_reducible assumption | exact Sub.trans (by assumption) (by rfl)
    | intro _ | split | dsimp only | with_reducible apply Keep.upd
    | exact ⟨fun f hf => by cases f <;> first | with_reducible exact rfl |
        exact absurd (Sub.mem (by assumption) _ (by decide)) hf⟩

theorem Keep.setCore {fs : List Field} {s t : State} (h : Keep fs s t) (k c)
    (hl : Sub [.cores] fs := by exact Sub.trans (by assumption) (by rfl)) :
    Keep fs s (State.setCore t k c) := by
  unfold State.setCore
  try dsimp only
  repeat' first
    | with_reducible exact h | with_reducible assumption | exact Sub.trans (by assumption) (by rfl)
    | intro _ | split | dsimp only | with_reducible apply Keep.upd
    | exact ⟨fun f hf => by cases f <;> first | with_reducible exact rfl |
        exact absurd (Sub.mem (by assumption) _ (by decide)) hf⟩

theorem Keep.setQueue {fs : List Field} {s t : State} (h : Keep fs s t) (q v)
    (hl : Sub [.queues] fs := by exact Sub.trans (by assumption) (by rfl)) :
    Keep fs s (State.setQueue t q v) := by
  unfold State.setQueue
  try dsimp only
  repeat' first
    | with_reducible exact h | with_reducible assumption | exact Sub.trans (by assumption) (by rfl)
    | intro _ | split | dsimp only | with_reducible apply Keep.upd
    | exact ⟨fun f hf => by cases f <;> first | with_reducible exact rfl |
        exact absurd (Sub.mem (by assumption) _ (by decide)) hf⟩

theorem Keep.setPort {fs : List Field} {s t : State} (h : Keep fs s t) (p v)
    (hl : Sub [.ports] fs := by exact Sub.trans (by assumption) (by rfl)) :
    Keep fs s (State.setPort t p v) := by
  unfold State.setPort
  try dsimp only
  repeat' first
    | with_reducible exact h | with_reducible assumption | exact Sub.trans (by assumption) (by rfl)
    | intro _ | split | dsimp only | with_reducible apply Keep.upd
    | exact ⟨fun f hf => by cases f <;> first | with_reducible exact rfl |
        exact absurd (Sub.mem (by assumption) _ (by decide)) hf⟩

theorem Keep.setIsland {fs : List Field} {s t : State} (h : Keep fs s t) (i v)
    (hl : Sub [.islands] fs := by exact Sub.trans (by assumption) (by rfl)) :
    Keep fs s (State.setIsland t i v) := by
  unfold State.setIsland
  try dsimp only
  repeat' first
    | with_reducible exact h | with_reducible assumption | exact Sub.trans (by assumption) (by rfl)
    | intro _ | split | dsimp only | with_reducible apply Keep.upd
    | exact ⟨fun f hf => by cases f <;> first | with_reducible exact rfl |
        exact absurd (Sub.mem (by assumption) _ (by decide)) hf⟩

theorem Keep.setGroup {fs : List Field} {s t : State} (h : Keep fs s t) (g v)
    (hl : Sub [.groups] fs := by exact Sub.trans (by assumption) (by rfl)) :
    Keep fs s (State.setGroup t g v) := by
  unfold State.setGroup
  try dsimp only
  repeat' first
    | with_reducible exact h | with_reducible assumption | exact Sub.trans (by assumption) (by rfl)
    | intro _ | split | dsimp only | with_reducible apply Keep.upd
    | exact ⟨fun f hf => by cases f <;> first | with_reducible exact rfl |
        exact absurd (Sub.mem (by assumption) _ (by decide)) hf⟩

theorem Keep.setOp {fs : List Field} {s t : State} (h : Keep fs s t) (o)
    (hl : Sub [.ops] fs := by exact Sub.trans (by assumption) (by rfl)) :
    Keep fs s (State.setOp t o) := by
  unfold State.setOp
  try dsimp only
  repeat' first
    | with_reducible exact h | with_reducible assumption | exact Sub.trans (by assumption) (by rfl)
    | intro _ | split | dsimp only | with_reducible apply Keep.upd
    | exact ⟨fun f hf => by cases f <;> first | with_reducible exact rfl |
        exact absurd (Sub.mem (by assumption) _ (by decide)) hf⟩

theorem Keep.modOp {fs : List Field} {s t : State} (h : Keep fs s t) (id f)
    (hl : Sub [.ops] fs := by exact Sub.trans (by assumption) (by rfl)) :
    Keep fs s (State.modOp t id f) := by
  unfold State.modOp
  try dsimp only
  repeat' first
    | with_reducible exact h | with_reducible assumption | exact Sub.trans (by assumption) (by rfl)
    | intro _ | split | dsimp only | with_reducible apply Keep.upd
    | exact ⟨fun f hf => by cases f <;> first | with_reducible exact rfl |
        exact absurd (Sub.mem (by assumption) _ (by decide)) hf⟩

theorem Keep.dropOp {fs : List Field} {s t : State} (h : Keep fs s t) (id)
    (hl : Sub [.ops] fs := by exact Sub.trans (by assumption) (by rfl)) :
    Keep fs s (State.dropOp t id) := by
  unfold State.dropOp
  try dsimp only
  repeat' first
    | with_reducible exact h | with_reducible assumption | exact Sub.trans (by assumption) (by rfl)
    | intro _ | split | dsimp only | with_reducible apply Keep.upd
    | exact ⟨fun f hf => by cases f <;> first | with_reducible exact rfl |
        exact absurd (Sub.mem (by assumption) _ (by decide)) hf⟩

theorem Keep.writeStore {fs : List Field} {s t : State} (h : Keep fs s t) (cluster bank row byte d)
    (hl : Sub [.store] fs :=
        by exact Sub.trans (by assumption) (by rfl)) :
    Keep fs s (State.writeStore t cluster bank row byte d) := by
  unfold State.writeStore
  exact h.withStore rfl rfl rfl (fun w => Memory.wf_writeRun w _ _) rfl

theorem Keep.setFull {fs : List Field} {s t : State} (h : Keep fs s t) (slot f)
    (hl : Sub [.full] fs := by exact Sub.trans (by assumption) (by rfl)) :
    Keep fs s (State.setFull t slot f) := by
  unfold State.setFull
  try dsimp only
  repeat' first
    | with_reducible exact h | with_reducible assumption | exact Sub.trans (by assumption) (by rfl)
    | intro _ | split | dsimp only | with_reducible apply Keep.upd
    | exact ⟨fun f hf => by cases f <;> first | with_reducible exact rfl |
        exact absurd (Sub.mem (by assumption) _ (by decide)) hf⟩

theorem Keep.setBank {fs : List Field} {s t : State} (h : Keep fs s t) (b v)
    (hl : Sub [.banks] fs := by exact Sub.trans (by assumption) (by rfl)) :
    Keep fs s (State.setBank t b v) := by
  unfold State.setBank
  try dsimp only
  repeat' first
    | with_reducible exact h | with_reducible assumption | exact Sub.trans (by assumption) (by rfl)
    | intro _ | split | dsimp only | with_reducible apply Keep.upd
    | exact ⟨fun f hf => by cases f <;> first | with_reducible exact rfl |
        exact absurd (Sub.mem (by assumption) _ (by decide)) hf⟩

theorem Keep.setWaiting {fs : List Field} {s t : State} (h : Keep fs s t) (cluster l)
    (hl : Sub [.xbar] fs := by exact Sub.trans (by assumption) (by rfl)) :
    Keep fs s (State.setWaiting t cluster l) := by
  unfold State.setWaiting
  try dsimp only
  repeat' first
    | with_reducible exact h | with_reducible assumption | exact Sub.trans (by assumption) (by rfl)
    | intro _ | split | dsimp only | with_reducible apply Keep.upd
    | exact ⟨fun f hf => by cases f <;> first | with_reducible exact rfl |
        exact absurd (Sub.mem (by assumption) _ (by decide)) hf⟩

theorem Keep.setParked {fs : List Field} {s t : State} (h : Keep fs s t) (b l)
    (hl : Sub [.parked] fs := by exact Sub.trans (by assumption) (by rfl)) :
    Keep fs s (State.setParked t b l) := by
  unfold State.setParked
  try dsimp only
  repeat' first
    | with_reducible exact h | with_reducible assumption | exact Sub.trans (by assumption) (by rfl)
    | intro _ | split | dsimp only | with_reducible apply Keep.upd
    | exact ⟨fun f hf => by cases f <;> first | with_reducible exact rfl |
        exact absurd (Sub.mem (by assumption) _ (by decide)) hf⟩

theorem Keep.setStage {fs : List Field} {s t : State} (h : Keep fs s t) (c x)
    (hl : Sub [.stage] fs := by exact Sub.trans (by assumption) (by rfl)) :
    Keep fs s (State.setStage t c x) := by
  unfold State.setStage
  try dsimp only
  repeat' first
    | with_reducible exact h | with_reducible assumption | exact Sub.trans (by assumption) (by rfl)
    | intro _ | split | dsimp only | with_reducible apply Keep.upd
    | exact ⟨fun f hf => by cases f <;> first | with_reducible exact rfl |
        exact absurd (Sub.mem (by assumption) _ (by decide)) hf⟩

theorem Keep.dropStage {fs : List Field} {s t : State} (h : Keep fs s t) (id)
    (hl : Sub [.stage] fs := by exact Sub.trans (by assumption) (by rfl)) :
    Keep fs s (State.dropStage t id) := by
  unfold State.dropStage
  try dsimp only
  repeat' first
    | with_reducible exact h | with_reducible assumption | exact Sub.trans (by assumption) (by rfl)
    | intro _ | split | dsimp only | with_reducible apply Keep.upd
    | exact ⟨fun f hf => by cases f <;> first | with_reducible exact rfl |
        exact absurd (Sub.mem (by assumption) _ (by decide)) hf⟩

theorem Keep.active {fs : List Field} {s t : State} (h : Keep fs s t) (island kind job n)
    (hl : Sub [.power] fs := by exact Sub.trans (by assumption) (by rfl)) :
    Keep fs s (State.active t island kind job n) := by
  unfold State.active
  try dsimp only
  repeat' first
    | with_reducible exact h | with_reducible assumption | exact Sub.trans (by assumption) (by rfl)
    | intro _ | split | dsimp only | with_reducible apply Keep.upd
    | exact ⟨fun f hf => by cases f <;> first | with_reducible exact rfl |
        exact absurd (Sub.mem (by assumption) _ (by decide)) hf⟩

theorem Keep.cross {fs : List Field} {s t : State} (h : Keep fs s t) (cluster job n)
    (hl : Sub [.power] fs := by exact Sub.trans (by assumption) (by rfl)) :
    Keep fs s (State.cross t cluster job n) := by
  unfold State.cross
  try dsimp only
  repeat' first
    | with_reducible exact h | with_reducible assumption | exact Sub.trans (by assumption) (by rfl)
    | with_reducible apply Keep.active | intro _ | split | dsimp only

theorem Keep.send {fs : List Field} {s t : State} (h : Keep fs s t) (x)
    (hl : Sub [.ports, .out, .power] fs :=
        by exact Sub.trans (by assumption) (by rfl)) :
    Keep fs s (State.send t x) := by
  unfold State.send
  split
  · exact h
  · refine Keep.cross (Keep.setPort (t := { t with out := t.out ++ [x] }) ?_ _ _) _ _ _
    obtain ⟨l, hx⟩ := h.out
    exact ⟨h.same.trans ⟨fun f hf => by cases f <;> first | with_reducible exact rfl |
        exact absurd (hl.mem _ (by decide)) hf⟩,
      h.pending, ⟨l ++ [x], by simp [hx]⟩, h.fuses, h.store, h.held⟩

theorem Keep.freeTags {fs : List Field} {s t : State} (h : Keep fs s t) (port vc)
    (hl : Sub [.ports, .out, .outst, .power] fs := by exact Sub.trans (by assumption) (by rfl)) :
    Keep fs s (State.freeTags t port vc) := by
  unfold State.freeTags
  try dsimp only
  repeat' first
    | with_reducible exact h | with_reducible assumption | exact Sub.trans (by assumption) (by rfl)
    | with_reducible apply Keep.send | intro _ | split | dsimp only | with_reducible apply Keep.upd
    | exact ⟨fun f hf => by cases f <;> first | with_reducible exact rfl |
        exact absurd (Sub.mem (by assumption) _ (by decide)) hf⟩

theorem Keep.request {fs : List Field} {s t : State} (h : Keep fs s t) (t' why foreign)
    (hl : Sub [.ports, .out, .outst, .power] fs := by exact Sub.trans (by assumption) (by rfl)) :
    Keep fs s (State.request t t' why foreign) := by
  unfold State.request
  try dsimp only
  repeat' first
    | with_reducible exact h | with_reducible assumption | exact Sub.trans (by assumption) (by rfl)
    | with_reducible apply Keep.send | with_reducible apply Keep.freeTags | intro _ | split | dsimp only
    | with_reducible apply Keep.upd
    | exact ⟨fun f hf => by cases f <;> first | with_reducible exact rfl |
        exact absurd (Sub.mem (by assumption) _ (by decide)) hf⟩

theorem Keep.readMem {fs : List Field} {s t : State} (h : Keep fs s t) (port stream addr bytes why)
    (hl : Sub [.ports, .out, .outst, .power] fs := by exact Sub.trans (by assumption) (by rfl)) :
    Keep fs s (State.readMem t port stream addr bytes why) := by
  unfold State.readMem
  try dsimp only
  repeat' first
    | with_reducible exact h | with_reducible assumption | exact Sub.trans (by assumption) (by rfl)
    | with_reducible apply Keep.request | intro _ | split | dsimp only

theorem Keep.writeMemGo {fs : List Field} {s : State} (port stream why)
    (hl : Sub [.ports, .out, .outst, .power] fs :=
        by exact Sub.trans (by assumption) (by rfl)) :
    ∀ (fuel addr : Nat) (d : List Byte) (t : State), Keep fs s t → Keep fs s (State.writeMemGo port stream why
      fuel addr d t)
  | 0, _, _, _, h => h
  | fuel + 1, addr, d, t, h => by
    unfold State.writeMemGo
    split
    · exact h
    · exact Keep.writeMemGo port stream why hl fuel _ _ _ (Keep.request h _ _ _)

theorem Keep.writeMem {fs : List Field} {s t : State} (h : Keep fs s t) (port stream addr d why)
    (hl : Sub [.ports, .out, .outst, .power] fs :=
        by exact Sub.trans (by assumption) (by rfl)) :
    Keep fs s (State.writeMem t port stream addr d why) := Keep.writeMemGo port stream why hl _ _ _ _ h

theorem Keep.flush {fs : List Field} {s t : State} (h : Keep fs s t) (port stream why)
    (hl : Sub [.ports, .out, .outst, .power] fs := by exact Sub.trans (by assumption) (by rfl)) :
    Keep fs s (State.flush t port stream why) := by
  unfold State.flush
  try dsimp only
  repeat' first
    | with_reducible exact h | with_reducible assumption | exact Sub.trans (by assumption) (by rfl)
    | with_reducible apply Keep.request | intro _ | split | dsimp only

theorem Keep.message {fs : List Field} {s t : State} (h : Keep fs s t) (port addr value kind code why foreign)
    (hl : Sub [.ports, .out, .outst, .power] fs := by exact Sub.trans (by assumption) (by rfl)) :
    Keep fs s (State.message t port addr value kind code why foreign) := by
  unfold State.message
  try dsimp only
  repeat' first
    | with_reducible exact h | with_reducible assumption | exact Sub.trans (by assumption) (by rfl)
    | with_reducible apply Keep.request | intro _ | split | dsimp only

theorem Keep.sideSignal {fs : List Field} {s t : State} (h : Keep fs s t) (code value)
    (hl : Sub [.ports, .out, .outst, .power] fs := by exact Sub.trans (by assumption) (by rfl)) :
    Keep fs s (State.sideSignal t code value) := by
  unfold State.sideSignal
  try dsimp only
  repeat' first
    | with_reducible exact h | with_reducible assumption | exact Sub.trans (by assumption) (by rfl)
    | with_reducible apply Keep.flush | intro _ | split | dsimp only

theorem Keep.sideMessage {fs : List Field} {s t : State} (h : Keep fs s t) (code value)
    (hl : Sub [.ports, .out, .outst, .power] fs := by exact Sub.trans (by assumption) (by rfl)) :
    Keep fs s (State.sideMessage t code value) := by
  unfold State.sideMessage
  try dsimp only
  repeat' first
    | with_reducible exact h | with_reducible assumption | exact Sub.trans (by assumption) (by rfl)
    | with_reducible apply Keep.message | intro _ | split | dsimp only

theorem Keep.respond {fs : List Field} {s t : State} (h : Keep fs s t) (a op status aux)
    (hl : Sub [.ports, .out, .power] fs := by exact Sub.trans (by assumption) (by rfl)) :
    Keep fs s (State.respond t a op status aux) := by
  unfold State.respond
  try dsimp only
  repeat' first
    | with_reducible exact h | with_reducible assumption | exact Sub.trans (by assumption) (by rfl)
    | with_reducible apply Keep.send | intro _ | split | dsimp only

theorem Keep.sendHeld {fs : List Field} {s : State} (port vc)
    (hl : Sub [.ports, .out, .outst, .power] fs :=
        by exact Sub.trans (by assumption) (by rfl)) :
    ∀ (n : Nat) {t : State} (_ : Keep fs s t), Keep fs s (State.sendHeld port vc n t)
  | 0, _, h => h
  | n + 1, t, h => by
    unfold State.sendHeld
    split
    · split
      · refine Keep.sendHeld port vc hl n (Keep.send ?_ _)
        exact Keep.congr h rfl rfl rfl rfl rfl
      · exact Keep.freeTags h _ _
    · exact h

theorem Keep.dropOutst {fs : List Field} {s t : State} (h : Keep fs s t) (o)
    (hl : Sub [.ports, .out, .outst, .power] fs :=
        by exact Sub.trans (by assumption) (by rfl)) :
    Keep fs s (State.dropOutst t o) :=
  Keep.sendHeld _ _ hl _ (Keep.congr h rfl rfl rfl rfl rfl)

theorem Keep.vectorSend {fs : List Field} {s t : State} (h : Keep fs s t) (v)
    (hl : Sub [.regs, .ports, .out, .outst, .vecBusy, .power] fs :=
        by exact Sub.trans (by assumption) (by rfl)) :
    Keep fs s (State.vectorSend t v) := by
  unfold State.vectorSend
  try dsimp only
  repeat' first
    | with_reducible exact h | with_reducible assumption | exact Sub.trans (by assumption) (by rfl)
    | with_reducible apply Keep.orReg | with_reducible apply Keep.flush | intro _ | split | dsimp only
    | with_reducible apply Keep.upd
    | exact ⟨fun f hf => by cases f <;> first | with_reducible exact rfl |
        exact absurd (Sub.mem (by assumption) _ (by decide)) hf⟩

theorem Keep.vectorMessage {fs : List Field} {s t : State} (h : Keep fs s t) (v)
    (hl : Sub [.ports, .out, .outst, .power] fs := by exact Sub.trans (by assumption) (by rfl)) :
    Keep fs s (State.vectorMessage t v) := by
  unfold State.vectorMessage
  try dsimp only
  repeat' first
    | with_reducible exact h | with_reducible assumption | exact Sub.trans (by assumption) (by rfl)
    | with_reducible apply Keep.message | intro _ | split | dsimp only

theorem Keep.vectorResend {fs : List Field} {s t : State} (h : Keep fs s t) (v)
    (hl : Sub [.regs, .ports, .out, .outst, .vecBusy, .power] fs :=
        by exact Sub.trans (by assumption) (by rfl)) :
    Keep fs s (State.vectorResend t v) := by
  unfold State.vectorResend
  try dsimp only
  repeat' first
    | with_reducible exact h | with_reducible assumption | exact Sub.trans (by assumption) (by rfl)
    | with_reducible apply Keep.setRegF | with_reducible apply Keep.vectorSend | intro _ | split | dsimp only

theorem Keep.raise {fs : List Field} {s t : State} (h : Keep fs s t) (p bits)
    (hl : Sub [.regs, .ports, .out, .outst, .vecBusy, .power] fs :=
        by exact Sub.trans (by assumption) (by rfl)) :
    Keep fs s (State.raise t p bits) := by
  unfold State.raise
  try dsimp only
  repeat' first
    | with_reducible exact h | with_reducible assumption | exact Sub.trans (by assumption) (by rfl)
    | with_reducible apply Keep.orReg | with_reducible apply Keep.vectorSend | intro _ | split | dsimp only

theorem Keep.vectorTouched {fs : List Field} {s t : State} (h : Keep fs s t) (p)
    (hl : Sub [.regs, .ports, .out, .outst, .vecBusy, .power] fs :=
        by exact Sub.trans (by assumption) (by rfl)) :
    Keep fs s (State.vectorTouched t p) := by
  unfold State.vectorTouched
  try dsimp only
  repeat' first
    | with_reducible exact h | with_reducible assumption | exact Sub.trans (by assumption) (by rfl)
    | with_reducible apply Keep.vectorSend | intro _ | split | dsimp only

theorem Keep.putWords {fs : List Field} {s : State}
    (hl : Sub [.regs] fs :=
        by exact Sub.trans (by assumption) (by rfl)) : ∀ {t : State} (_ : Keep fs s t) (key : Nat) (l : List
      Word), Keep fs s (State.putWords t key l)
  | _, h, _, [] => h
  | _, h, key, w :: l => Keep.putWords hl (Keep.setReg h key w) (key + 4) l

theorem Keep.capture {fs : List Field} {s t : State} (h : Keep fs s t) (p cause words)
    (hl : Sub [.regs, .ports, .out, .outst, .vecBusy, .power] fs :=
        by exact Sub.trans (by assumption) (by rfl)) :
    Keep fs s (State.capture t p cause words) := by
  unfold State.capture
  try dsimp only
  repeat' first
    | with_reducible exact h | with_reducible assumption | exact Sub.trans (by assumption) (by rfl)
    | with_reducible apply Keep.setReg | with_reducible apply Keep.putWords | with_reducible apply Keep.raise
    | intro _ | split | dsimp only

theorem Keep.captureCommon {fs : List Field} {s t : State} (h : Keep fs s t) (p cause off priv)
    (hl : Sub [.regs, .ports, .out, .outst, .vecBusy, .power] fs :=
        by exact Sub.trans (by assumption) (by rfl)) :
    Keep fs s (State.captureCommon t p cause off priv) := by
  unfold State.captureCommon
  try dsimp only
  repeat' first
    | with_reducible exact h | with_reducible assumption | exact Sub.trans (by assumption) (by rfl)
    | with_reducible apply Keep.capture | intro _ | split | dsimp only

theorem Keep.noteRefusal {fs : List Field} {s t : State} (h : Keep fs s t) (p)
    (hl : Sub [.regs, .ports, .out, .outst, .vecBusy, .power] fs :=
        by exact Sub.trans (by assumption) (by rfl)) :
    Keep fs s (State.noteRefusal t p) := by
  unfold State.noteRefusal
  try dsimp only
  repeat' first
    | with_reducible exact h | with_reducible assumption | exact Sub.trans (by assumption) (by rfl)
    | with_reducible apply Keep.incReg | with_reducible apply Keep.raise | intro _ | split | dsimp only

theorem Keep.refuseWrite {fs : List Field} {s t : State} (h : Keep fs s t) (p cause off priv)
    (hl : Sub [.regs, .ports, .out, .outst, .vecBusy, .power] fs :=
        by exact Sub.trans (by assumption) (by rfl)) :
    Keep fs s (State.refuseWrite t p cause off priv) := by
  unfold State.refuseWrite
  try dsimp only
  repeat' first
    | with_reducible exact h | with_reducible assumption | exact Sub.trans (by assumption) (by rfl)
    | with_reducible apply Keep.captureCommon | with_reducible apply Keep.noteRefusal | intro _ | split
    | dsimp only

theorem Keep.freshByte {fs : List Field} {s t : State} (h : Keep fs s t)
    (hl : Sub [.free] fs := by exact Sub.trans (by assumption) (by rfl)) :
    Keep fs s (State.freshByte t).2 := by
  unfold State.freshByte
  try dsimp only
  repeat' first
    | with_reducible exact h | with_reducible assumption | exact Sub.trans (by assumption) (by rfl)
    | intro _ | split | dsimp only | with_reducible apply Keep.upd
    | exact ⟨fun f hf => by cases f <;> first | with_reducible exact rfl |
        exact absurd (Sub.mem (by assumption) _ (by decide)) hf⟩

theorem Keep.freshWord {fs : List Field} {s t : State} (h : Keep fs s t)
    (hl : Sub [.free] fs := by exact Sub.trans (by assumption) (by rfl)) :
    Keep fs s (State.freshWord t).2 := by
  unfold State.freshWord
  try dsimp only
  repeat' first
    | with_reducible exact h | with_reducible assumption | exact Sub.trans (by assumption) (by rfl)
    | intro _ | split | dsimp only | with_reducible apply Keep.upd
    | exact ⟨fun f hf => by cases f <;> first | with_reducible exact rfl |
        exact absurd (Sub.mem (by assumption) _ (by decide)) hf⟩

theorem Keep.freshBytes {fs : List Field} {s : State}
    (hl : Sub [.free] fs :=
        by exact Sub.trans (by assumption) (by rfl)) : ∀ (n : Nat) {t : State} (_ : Keep fs s t), Keep fs s
      (State.freshBytes n t).2
  | 0, _, h => h
  | n + 1, _, h => Keep.freshBytes hl n (Keep.freshByte h)

theorem Keep.setWindow {fs : List Field} {s t : State} (h : Keep fs s t) (c h' o)
    (hl : Sub [.regs] fs := by exact Sub.trans (by assumption) (by rfl)) :
    Keep fs s (State.setWindow t c h' o) := by
  unfold State.setWindow
  try dsimp only
  repeat' first
    | with_reducible exact h | with_reducible assumption | exact Sub.trans (by assumption) (by rfl)
    | with_reducible apply Keep.setRegF | intro _ | split | dsimp only

theorem Keep.bumpGen {fs : List Field} {s t : State} (h : Keep fs s t) (c h')
    (hl : Sub [.regs] fs := by exact Sub.trans (by assumption) (by rfl)) :
    Keep fs s (State.bumpGen t c h') := by
  unfold State.bumpGen
  try dsimp only
  repeat' first
    | with_reducible exact h | with_reducible assumption | exact Sub.trans (by assumption) (by rfl)
    | with_reducible apply Keep.incReg | intro _ | split | dsimp only

theorem Keep.setOwner {fs : List Field} {s t : State} (h : Keep fs s t) (c h' q job ctx dark)
    (hl : Sub [.regs, .owners] fs := by exact Sub.trans (by assumption) (by rfl)) :
    Keep fs s (State.setOwner t c h' q job ctx dark) := by
  unfold State.setOwner
  try dsimp only
  repeat' first
    | with_reducible exact h | with_reducible assumption | exact Sub.trans (by assumption) (by rfl)
    | with_reducible apply Keep.setRegN | intro _ | split | dsimp only | with_reducible apply Keep.upd
    | exact ⟨fun f hf => by cases f <;> first | with_reducible exact rfl |
        exact absurd (Sub.mem (by assumption) _ (by decide)) hf⟩

theorem Keep.clearOwner {fs : List Field} {s t : State} (h : Keep fs s t) (c h')
    (hl : Sub [.regs, .owners, .endedOwners] fs := by exact Sub.trans (by assumption) (by rfl)) :
    Keep fs s (State.clearOwner t c h') := by
  unfold State.clearOwner
  try dsimp only
  repeat' first
    | with_reducible exact h | with_reducible assumption | exact Sub.trans (by assumption) (by rfl)
    | with_reducible apply Keep.setRegN | intro _ | split | dsimp only | with_reducible apply Keep.upd
    | exact ⟨fun f hf => by cases f <;> first | with_reducible exact rfl |
        exact absurd (Sub.mem (by assumption) _ (by decide)) hf⟩

theorem Keep.wipeBank {fs : List Field} {s t : State} (h : Keep fs s t) (c bank)
    (hl : Sub [.store, .full] fs :=
        by exact Sub.trans (by assumption) (by rfl)) : Keep fs s (State.wipeBank t c bank) := by
  unfold State.wipeBank
  exact h.withStore rfl rfl rfl (fun w => Memory.wf_clear w _ _) rfl

theorem Keep.dropCores {fs : List Field} {s t : State} (h : Keep fs s t) (c)
    (hl : Sub [.regs, .shad, .stage, .cores] fs := by exact Sub.trans (by assumption) (by rfl)) :
    Keep fs s (State.dropCores t c) := by
  unfold State.dropCores
  try dsimp only
  repeat' first
    | with_reducible exact h | with_reducible assumption | exact Sub.trans (by assumption) (by rfl)
    | intro _ | split | dsimp only | with_reducible apply Keep.upd
    | exact ⟨fun f hf => by cases f <;> first | with_reducible exact rfl |
        exact absurd (Sub.mem (by assumption) _ (by decide)) hf⟩

theorem Keep.finishDark {fs : List Field} {s t : State} (h : Keep fs s t) (c)
    (hl : Sub [.regs, .shad, .stage, .cores, .islands, .ports, .out, .outst, .vecBusy, .power] fs :=
        by exact Sub.trans (by assumption) (by rfl)) :
    Keep fs s (State.finishDark t c) := by
  unfold State.finishDark
  try dsimp only
  repeat' first
    | with_reducible exact h | with_reducible assumption | exact Sub.trans (by assumption) (by rfl)
    | with_reducible apply Keep.setIsland | with_reducible apply Keep.dropCores
    | with_reducible apply Keep.setRegN | with_reducible apply Keep.bumpGen | with_reducible apply Keep.raise
    | with_reducible apply Keep.foldl | with_reducible refine Keep.foldl' Prod.fst ?_ ?_ | intro _ | split
    | dsimp only

theorem Keep.bankDark {fs : List Field} {s t : State} (h : Keep fs s t) (c bank)
    (hl : Sub [.regs, .shad, .store, .full, .banks, .stage, .cores, .islands, .ports, .out, .outst, .vecBusy,
      .power] fs :=
        by exact Sub.trans (by assumption) (by rfl)) :
    Keep fs s (State.bankDark t c bank) := by
  unfold State.bankDark
  try dsimp only
  repeat' first
    | with_reducible exact h | with_reducible assumption | exact Sub.trans (by assumption) (by rfl)
    | with_reducible apply Keep.wipeBank | with_reducible apply Keep.setBank
    | with_reducible apply Keep.finishDark | intro _ | split | dsimp only

theorem Keep.closeCheck {fs : List Field} {s t : State} (h : Keep fs s t) (c bank)
    (hl : Sub [.regs, .shad, .store, .full, .banks, .stage, .cores, .islands, .ports, .out, .outst, .vecBusy,
      .power] fs :=
        by exact Sub.trans (by assumption) (by rfl)) :
    Keep fs s (State.closeCheck t c bank) := by
  unfold State.closeCheck
  try dsimp only
  repeat' first
    | with_reducible exact h | with_reducible assumption | exact Sub.trans (by assumption) (by rfl)
    | with_reducible apply Keep.bankDark | with_reducible apply Keep.setBank | intro _ | split | dsimp only

theorem Keep.bankTo {fs : List Field} {s t : State} (h : Keep fs s t) (c bank want)
    (hl : Sub [.regs, .shad, .store, .full, .banks, .stage, .cores, .islands, .ports, .out, .outst, .vecBusy,
      .power] fs :=
        by exact Sub.trans (by assumption) (by rfl)) :
    Keep fs s (State.bankTo t c bank want) := by
  unfold State.bankTo
  try dsimp only
  repeat' first
    | with_reducible exact h | with_reducible assumption | exact Sub.trans (by assumption) (by rfl)
    | with_reducible apply Keep.setBank | with_reducible apply Keep.closeCheck | intro _ | split | dsimp only

theorem Keep.retarget {fs : List Field} {s t : State} (h : Keep fs s t) (c old)
    (hl : Sub [.regs, .shad, .store, .full, .banks, .stage, .cores, .islands, .ports, .out, .outst, .vecBusy,
      .power] fs :=
        by exact Sub.trans (by assumption) (by rfl)) :
    Keep fs s (State.retarget t c old) := by
  unfold State.retarget
  try dsimp only
  repeat' first
    | with_reducible exact h | with_reducible assumption | exact Sub.trans (by assumption) (by rfl)
    | with_reducible apply Keep.bankTo | with_reducible apply Keep.foldl
    | with_reducible refine Keep.foldl' Prod.fst ?_ ?_ | intro _ | split | dsimp only

theorem Keep.zeroHandle {fs : List Field} {s t : State} (h : Keep fs s t) (c x)
    (hl : Sub [.store, .full] fs :=
        by exact Sub.trans (by assumption) (by rfl)) : Keep fs s (State.zeroHandle t c x) := by
  unfold State.zeroHandle
  exact h.withStore rfl rfl rfl (fun w => Memory.wf_filter w _) rfl

theorem Keep.scrub {fs : List Field} {s t : State} (h : Keep fs s t) (c h')
    (hl : Sub [.regs, .store, .full] fs := by exact Sub.trans (by assumption) (by rfl)) :
    Keep fs s (State.scrub t c h') := by
  unfold State.scrub
  try dsimp only
  repeat' first
    | with_reducible exact h | with_reducible assumption | exact Sub.trans (by assumption) (by rfl)
    | with_reducible apply Keep.zeroHandle | with_reducible apply Keep.bumpGen | intro _ | split | dsimp only

theorem Keep.darken {fs : List Field} {s t : State} (h : Keep fs s t) (c h')
    (hl : Sub [.regs, .shad] fs := by exact Sub.trans (by assumption) (by rfl)) :
    Keep fs s (State.darken t c h') := by
  unfold State.darken
  try dsimp only
  repeat' first
    | with_reducible exact h | with_reducible assumption | exact Sub.trans (by assumption) (by rfl)
    | with_reducible apply Keep.setRegF | with_reducible apply Keep.bumpGen | intro _ | split | dsimp only
    | with_reducible apply Keep.upd
    | exact ⟨fun f hf => by cases f <;> first | with_reducible exact rfl |
        exact absurd (Sub.mem (by assumption) _ (by decide)) hf⟩

theorem Keep.releaseHandle {fs : List Field} {s t : State} (h : Keep fs s t) (c h' endDark)
    (hl : Sub [.regs, .shad, .store, .full, .banks, .owners, .endedOwners, .stage, .cores, .islands, .ports,
      .out, .outst, .vecBusy, .power] fs :=
        by exact Sub.trans (by assumption) (by rfl)) :
    Keep fs s (State.releaseHandle t c h' endDark) := by
  unfold State.releaseHandle
  try dsimp only
  repeat' first
    | with_reducible exact h | with_reducible assumption | exact Sub.trans (by assumption) (by rfl)
    | with_reducible apply Keep.darken | with_reducible apply Keep.retarget | with_reducible apply Keep.scrub
    | with_reducible apply Keep.clearOwner | intro _ | split | dsimp only

theorem Keep.setTags {fs : List Field} {s t : State} (h : Keep fs s t) (c h' full)
    (hl : Sub [.regs, .full] fs := by exact Sub.trans (by assumption) (by rfl)) :
    Keep fs s (State.setTags t c h' full) := by
  unfold State.setTags
  try dsimp only
  repeat' first
    | with_reducible exact h | with_reducible assumption | exact Sub.trans (by assumption) (by rfl)
    | with_reducible apply Keep.setFull | with_reducible apply Keep.bumpGen | with_reducible apply Keep.foldl
    | with_reducible refine Keep.foldl' Prod.fst ?_ ?_ | intro _ | split | dsimp only

theorem Keep.moveSlot {fs : List Field} {s t : State} (h : Keep fs s t) (c h' slot)
    (hl : Sub [.regs, .store, .moved] fs := by exact Sub.trans (by assumption) (by rfl)) :
    Keep fs s (State.moveSlot t c h' slot) := by
  unfold State.moveSlot
  try dsimp only
  repeat' first
    | with_reducible exact h | with_reducible assumption | exact Sub.trans (by assumption) (by rfl)
    | with_reducible apply Keep.writeStore | with_reducible apply Keep.incReg | intro _ | split | dsimp only
    | with_reducible apply Keep.upd
    | exact ⟨fun f hf => by cases f <;> first | with_reducible exact rfl |
        exact absurd (Sub.mem (by assumption) _ (by decide)) hf⟩

theorem Keep.correctedError {fs : List Field} {s t : State} (h : Keep fs s t)
    (hl : Sub [.regs, .health] fs := by exact Sub.trans (by assumption) (by rfl)) :
    Keep fs s (State.correctedError t) := by
  unfold State.correctedError
  try dsimp only
  repeat' first
    | with_reducible exact h | with_reducible assumption | exact Sub.trans (by assumption) (by rfl)
    | with_reducible apply Keep.incReg | intro _ | split | dsimp only | with_reducible apply Keep.upd
    | exact ⟨fun f hf => by cases f <;> first | with_reducible exact rfl |
        exact absurd (Sub.mem (by assumption) _ (by decide)) hf⟩

theorem Keep.injectDone {fs : List Field} {s t : State} (h : Keep fs s t) (base)
    (hl : Sub [.regs, .injected] fs := by exact Sub.trans (by assumption) (by rfl)) :
    Keep fs s (State.injectDone t base) := by
  unfold State.injectDone
  try dsimp only
  repeat' first
    | with_reducible exact h | with_reducible assumption | exact Sub.trans (by assumption) (by rfl)
    | with_reducible apply Keep.incReg | with_reducible apply Keep.setRegF | intro _ | split | dsimp only
    | with_reducible apply Keep.upd
    | exact ⟨fun f hf => by cases f <;> first | with_reducible exact rfl |
        exact absurd (Sub.mem (by assumption) _ (by decide)) hf⟩

theorem Keep.injectWord {fs : List Field} {s t : State} (h : Keep fs s t) (base place ecc)
    (hl : Sub [.regs, .injected] fs := by exact Sub.trans (by assumption) (by rfl)) :
    Keep fs s (State.injectWord t base place ecc).1 := by
  unfold State.injectWord
  try dsimp only
  repeat' first
    | with_reducible exact h | with_reducible assumption | exact Sub.trans (by assumption) (by rfl)
    | with_reducible apply Keep.injectDone | intro _ | split | dsimp only

theorem Keep.injectPath {fs : List Field} {s t : State} (h : Keep fs s t) (base place ecc)
    (hl : Sub [.regs, .injected] fs := by exact Sub.trans (by assumption) (by rfl)) :
    Keep fs s (State.injectPath t base place ecc).1 := by
  unfold State.injectPath
  try dsimp only
  repeat' first
    | with_reducible exact h | with_reducible assumption | exact Sub.trans (by assumption) (by rfl)
    | with_reducible apply Keep.injectDone | intro _ | split | dsimp only

theorem Keep.injectParity {fs : List Field} {s t : State} (h : Keep fs s t) (base place ecc)
    (hl : Sub [.regs, .injected] fs := by exact Sub.trans (by assumption) (by rfl)) :
    Keep fs s (State.injectParity t base place ecc).1 := by
  unfold State.injectParity
  try dsimp only
  repeat' first
    | with_reducible exact h | with_reducible assumption | exact Sub.trans (by assumption) (by rfl)
    | with_reducible apply Keep.injectDone | intro _ | split | dsimp only

theorem Keep.healthCapture {fs : List Field} {s t : State} (h : Keep fs s t) (cause d0 d1 seq)
    (hl : Sub [.regs, .ports, .out, .outst, .vecBusy, .power, .free] fs :=
        by exact Sub.trans (by assumption) (by rfl)) :
    Keep fs s (State.healthCapture t cause d0 d1 seq) := by
  unfold State.healthCapture
  try dsimp only
  repeat' first
    | with_reducible exact h | with_reducible assumption | exact Sub.trans (by assumption) (by rfl)
    | with_reducible apply Keep.capture | with_reducible apply Keep.freshWord
    | refine Keep.of_fst (by assumption) ?_ | refine Keep.of_snd (by assumption) ?_ | intro _ | split
    | dsimp only

theorem Keep.uncorrected {fs : List Field} {s t : State} (h : Keep fs s t) (cause d0 d1 seq)
    (hl : Sub [.regs, .ports, .out, .outst, .vecBusy, .power, .health, .free] fs :=
        by exact Sub.trans (by assumption) (by rfl)) :
    Keep fs s (State.uncorrected t cause d0 d1 seq) := by
  unfold State.uncorrected
  try dsimp only
  repeat' first
    | with_reducible exact h | with_reducible assumption | exact Sub.trans (by assumption) (by rfl)
    | with_reducible apply Keep.incReg | with_reducible apply Keep.healthCapture
    | with_reducible apply Keep.raise | intro _ | split | dsimp only | with_reducible apply Keep.upd
    | exact ⟨fun f hf => by cases f <;> first | with_reducible exact rfl |
        exact absurd (Sub.mem (by assumption) _ (by decide)) hf⟩

theorem Keep.mapCores {fs : List Field} {s t : State} (h : Keep fs s t) (f)
    (hl : Sub [.cores] fs := by exact Sub.trans (by assumption) (by rfl)) :
    Keep fs s (State.mapCores t f) := by
  unfold State.mapCores
  try dsimp only
  repeat' first
    | with_reducible exact h | with_reducible assumption | exact Sub.trans (by assumption) (by rfl)
    | intro _ | split | dsimp only | with_reducible apply Keep.upd
    | exact ⟨fun f hf => by cases f <;> first | with_reducible exact rfl |
        exact absurd (Sub.mem (by assumption) _ (by decide)) hf⟩

theorem Keep.dropReads {fs : List Field} {s t : State} (h : Keep fs s t) (id)
    (hl : Sub [.xbar, .parked] fs := by exact Sub.trans (by assumption) (by rfl)) :
    Keep fs s (State.dropReads t id) := by
  unfold State.dropReads
  try dsimp only
  repeat' first
    | with_reducible exact h | with_reducible assumption | exact Sub.trans (by assumption) (by rfl)
    | intro _ | split | dsimp only | with_reducible apply Keep.upd
    | exact ⟨fun f hf => by cases f <;> first | with_reducible exact rfl |
        exact absurd (Sub.mem (by assumption) _ (by decide)) hf⟩

theorem Keep.closeChecks {fs : List Field} {s t : State} (h : Keep fs s t)
    (hl : Sub [.regs, .shad, .store, .full, .banks, .stage, .cores, .islands, .ports, .out, .outst, .vecBusy,
      .power] fs :=
        by exact Sub.trans (by assumption) (by rfl)) :
    Keep fs s (State.closeChecks t) := by
  unfold State.closeChecks
  try dsimp only
  repeat' first
    | with_reducible exact h | with_reducible assumption | exact Sub.trans (by assumption) (by rfl)
    | with_reducible apply Keep.closeCheck | with_reducible apply Keep.foldl
    | with_reducible refine Keep.foldl' Prod.fst ?_ ?_ | intro _ | split | dsimp only

theorem Keep.dropAccesses {fs : List Field} {s t : State} (h : Keep fs s t) (id)
    (hl : Sub [.regs, .shad, .store, .full, .banks, .xbar, .parked, .stage, .cores, .islands, .ports, .out,
      .outst, .vecBusy, .power] fs :=
        by exact Sub.trans (by assumption) (by rfl)) :
    Keep fs s (State.dropAccesses t id) := by
  unfold State.dropAccesses
  try dsimp only
  repeat' first
    | with_reducible exact h | with_reducible assumption | exact Sub.trans (by assumption) (by rfl)
    | with_reducible apply Keep.closeChecks | intro _ | split | dsimp only | with_reducible apply Keep.upd
    | exact ⟨fun f hf => by cases f <;> first | with_reducible exact rfl |
        exact absurd (Sub.mem (by assumption) _ (by decide)) hf⟩

theorem Keep.finish {fs : List Field} {s t : State} (h : Keep fs s t) (id status)
    (hl : Sub [.ops] fs := by exact Sub.trans (by assumption) (by rfl)) :
    Keep fs s (State.finish t id status) := by
  unfold State.finish
  try dsimp only
  repeat' first
    | with_reducible exact h | with_reducible assumption | exact Sub.trans (by assumption) (by rfl)
    | with_reducible apply Keep.modOp | intro _ | split | dsimp only

theorem Keep.failWith {fs : List Field} {s t : State} (h : Keep fs s t) (id status)
    (hl : Sub [.ops, .securing] fs := by exact Sub.trans (by assumption) (by rfl)) :
    Keep fs s (State.failWith t id status) := by
  unfold State.failWith
  try dsimp only
  repeat' first
    | with_reducible exact h | with_reducible assumption | exact Sub.trans (by assumption) (by rfl)
    | with_reducible apply Keep.modOp | with_reducible apply Keep.finish | intro _ | split | dsimp only
    | with_reducible apply Keep.upd
    | exact ⟨fun f hf => by cases f <;> first | with_reducible exact rfl |
        exact absurd (Sub.mem (by assumption) _ (by decide)) hf⟩

theorem Keep.settle {fs : List Field} {s t : State} (h : Keep fs s t) (id)
    (hl : Sub [.ops] fs := by exact Sub.trans (by assumption) (by rfl)) :
    Keep fs s (State.settle t id) := by
  unfold State.settle
  try dsimp only
  repeat' first
    | with_reducible exact h | with_reducible assumption | exact Sub.trans (by assumption) (by rfl)
    | with_reducible apply Keep.finish | intro _ | split | dsimp only

theorem Keep.captureStop {fs : List Field} {s t : State} (h : Keep fs s t) (o core status tile)
    (hl : Sub [.regs, .ports, .out, .outst, .vecBusy, .power] fs :=
        by exact Sub.trans (by assumption) (by rfl)) :
    Keep fs s (State.captureStop t o core status tile) := by
  unfold State.captureStop
  try dsimp only
  repeat' first
    | with_reducible exact h | with_reducible assumption | exact Sub.trans (by assumption) (by rfl)
    | with_reducible apply Keep.capture | refine Keep.of_fst (by assumption) ?_
    | refine Keep.of_snd (by assumption) ?_ | intro _ | split | dsimp only

theorem Keep.opFail {fs : List Field} {s t : State} (h : Keep fs s t) (id status core tile cut)
    (hl : Sub [.regs, .xbar, .parked, .cores, .ops, .ports, .out, .outst, .vecBusy, .securing, .power] fs :=
        by exact Sub.trans (by assumption) (by rfl)) :
    Keep fs s (State.opFail t id status core tile cut) := by
  unfold State.opFail
  try dsimp only
  repeat' first
    | with_reducible exact h | with_reducible assumption | exact Sub.trans (by assumption) (by rfl)
    | with_reducible apply Keep.mapCores | with_reducible apply Keep.dropReads
    | with_reducible apply Keep.settle | with_reducible apply Keep.captureStop | with_reducible apply Keep.modOp
    | with_reducible apply Keep.failWith | intro _ | split | dsimp only

theorem Keep.replayFailed {fs : List Field} {s t : State} (h : Keep fs s t)
    (hl : Sub [.regs, .health] fs := by exact Sub.trans (by assumption) (by rfl)) :
    Keep fs s (State.replayFailed t) := by
  unfold State.replayFailed
  try dsimp only
  repeat' first
    | with_reducible exact h | with_reducible assumption | exact Sub.trans (by assumption) (by rfl)
    | with_reducible apply Keep.incReg | intro _ | split | dsimp only | with_reducible apply Keep.upd
    | exact ⟨fun f hf => by cases f <;> first | with_reducible exact rfl |
        exact absurd (Sub.mem (by assumption) _ (by decide)) hf⟩

theorem Keep.interrupt {fs : List Field} {s t : State} (h : Keep fs s t) (id)
    (hl : Sub [.regs, .shad, .store, .full, .banks, .xbar, .parked, .stage, .cores, .islands, .ops, .ports,
      .out, .outst, .vecBusy, .securing, .power, .health, .replay] fs :=
        by exact Sub.trans (by assumption) (by rfl)) :
    Keep fs s (State.interrupt t id) := by
  unfold State.interrupt
  try dsimp only
  repeat' first
    | with_reducible exact h | with_reducible assumption | exact Sub.trans (by assumption) (by rfl)
    | with_reducible apply Keep.mapCores | with_reducible apply Keep.dropAccesses
    | with_reducible apply Keep.replayFailed | with_reducible apply Keep.failWith
    | with_reducible apply Keep.modOp | with_reducible apply Keep.dropStage | with_reducible apply Keep.setRegF
    | intro _ | split | dsimp only | with_reducible apply Keep.upd
    | exact ⟨fun f hf => by cases f <;> first | with_reducible exact rfl |
        exact absurd (Sub.mem (by assumption) _ (by decide)) hf⟩

theorem Keep.handleLost {fs : List Field} {s t : State} (h : Keep fs s t) (c h' place)
    (hl : Sub [.regs, .shad, .store, .full, .banks, .xbar, .parked, .stage, .cores, .islands, .ops, .ports,
      .out, .outst, .vecBusy, .securing, .power, .health, .replay, .free] fs :=
        by exact Sub.trans (by assumption) (by rfl)) :
    Keep fs s (State.handleLost t c h' place) := by
  unfold State.handleLost
  try dsimp only
  repeat' first
    | with_reducible exact h | with_reducible assumption | exact Sub.trans (by assumption) (by rfl)
    | with_reducible apply Keep.uncorrected | with_reducible apply Keep.scrub
    | with_reducible apply Keep.interrupt | with_reducible apply Keep.foldl
    | with_reducible refine Keep.foldl' Prod.fst ?_ ?_ | intro _ | split | dsimp only
    | with_reducible apply Keep.upd
    | exact ⟨fun f hf => by cases f <;> first | with_reducible exact rfl |
        exact absurd (Sub.mem (by assumption) _ (by decide)) hf⟩

theorem Keep.resetCore {fs : List Field} {s t : State} (h : Keep fs s t) (k id fault)
    (hl : Sub [.regs, .shad, .store, .full, .banks, .xbar, .parked, .stage, .cores, .islands, .ops, .ports,
      .out, .outst, .vecBusy, .securing, .power, .health, .replay] fs :=
        by exact Sub.trans (by assumption) (by rfl)) :
    Keep fs s (State.resetCore t k id fault) := by
  unfold State.resetCore
  try dsimp only
  repeat' first
    | with_reducible exact h | with_reducible assumption | exact Sub.trans (by assumption) (by rfl)
    | with_reducible apply Keep.setRegN | with_reducible apply Keep.raise | with_reducible apply Keep.interrupt
    | with_reducible apply Keep.setCore | with_reducible apply Keep.foldl
    | with_reducible refine Keep.foldl' Prod.fst ?_ ?_ | intro _ | split | dsimp only

theorem Keep.coreLost {fs : List Field} {s t : State} (h : Keep fs s t) (k id)
    (hl : Sub [.regs, .shad, .store, .full, .banks, .xbar, .parked, .stage, .cores, .islands, .ops, .ports,
      .out, .outst, .vecBusy, .securing, .power, .health, .replay, .free] fs :=
        by exact Sub.trans (by assumption) (by rfl)) :
    Keep fs s (State.coreLost t k id) := by
  unfold State.coreLost
  try dsimp only
  repeat' first
    | with_reducible exact h | with_reducible assumption | exact Sub.trans (by assumption) (by rfl)
    | with_reducible apply Keep.uncorrected | with_reducible apply Keep.resetCore | intro _ | split | dsimp only

theorem Keep.islandReset {fs : List Field} {s t : State} (h : Keep fs s t) (c watchdog fault)
    (hl : Sub [.regs, .shad, .store, .full, .banks, .xbar, .parked, .stage, .cores, .islands, .ops, .ports,
      .out, .outst, .vecBusy, .securing, .power, .health, .replay] fs :=
        by exact Sub.trans (by assumption) (by rfl)) :
    Keep fs s (State.islandReset t c watchdog fault) := by
  unfold State.islandReset
  try dsimp only
  repeat' first
    | with_reducible exact h | with_reducible assumption | exact Sub.trans (by assumption) (by rfl)
    | with_reducible apply Keep.interrupt | with_reducible apply Keep.setWaiting
    | with_reducible apply Keep.setParked | with_reducible apply Keep.closeCheck
    | with_reducible apply Keep.mapCores | with_reducible apply Keep.setRegN | with_reducible apply Keep.raise
    | with_reducible apply Keep.foldl | with_reducible refine Keep.foldl' Prod.fst ?_ ?_ | intro _ | split
    | dsimp only | with_reducible apply Keep.upd
    | exact ⟨fun f hf => by cases f <;> first | with_reducible exact rfl |
        exact absurd (Sub.mem (by assumption) _ (by decide)) hf⟩

theorem Keep.stagingLost {fs : List Field} {s t : State} (h : Keep fs s t) (c place)
    (hl : Sub [.regs, .shad, .store, .full, .banks, .xbar, .parked, .stage, .cores, .islands, .ops, .ports,
      .out, .outst, .vecBusy, .securing, .power, .health, .replay, .free] fs :=
        by exact Sub.trans (by assumption) (by rfl)) :
    Keep fs s (State.stagingLost t c place) := by
  unfold State.stagingLost
  try dsimp only
  repeat' first
    | with_reducible exact h | with_reducible assumption | exact Sub.trans (by assumption) (by rfl)
    | with_reducible apply Keep.uncorrected | with_reducible apply Keep.islandReset | intro _ | split
    | dsimp only

theorem Keep.opDataLost {fs : List Field} {s t : State} (h : Keep fs s t) (id cause d0 d1)
    (hl : Sub [.regs, .shad, .store, .full, .banks, .xbar, .parked, .stage, .cores, .islands, .ops, .ports,
      .out, .outst, .vecBusy, .securing, .power, .health, .replay, .free] fs :=
        by exact Sub.trans (by assumption) (by rfl)) :
    Keep fs s (State.opDataLost t id cause d0 d1) := by
  unfold State.opDataLost
  try dsimp only
  repeat' first
    | with_reducible exact h | with_reducible assumption | exact Sub.trans (by assumption) (by rfl)
    | with_reducible apply Keep.uncorrected | with_reducible apply Keep.interrupt | intro _ | split | dsimp only

theorem Keep.haltQueue {fs : List Field} {s t : State} (h : Keep fs s t) (q status)
    (hl : Sub [.regs, .queues, .ports, .out, .outst, .vecBusy, .power] fs :=
        by exact Sub.trans (by assumption) (by rfl)) :
    Keep fs s (State.haltQueue t q status) := by
  unfold State.haltQueue
  try dsimp only
  repeat' first
    | with_reducible exact h | with_reducible assumption | exact Sub.trans (by assumption) (by rfl)
    | with_reducible apply Keep.setQueue | with_reducible apply Keep.raise | intro _ | split | dsimp only

theorem Keep.controlLost {fs : List Field} {s t : State} (h : Keep fs s t)
    (hl : Sub [.regs, .shad, .store, .full, .banks, .xbar, .parked, .stage, .cores, .islands, .queues, .ops,
      .ports, .out, .outst, .vecBusy, .power, .health, .free] fs :=
        by exact Sub.trans (by assumption) (by rfl)) :
    Keep fs s (State.controlLost t) := by
  unfold State.controlLost
  try dsimp only
  repeat' first
    | with_reducible exact h | with_reducible assumption | exact Sub.trans (by assumption) (by rfl)
    | with_reducible apply Keep.uncorrected | with_reducible apply Keep.raise
    | with_reducible apply Keep.mapCores | with_reducible apply Keep.dropAccesses
    | with_reducible apply Keep.modOp | with_reducible apply Keep.finish | with_reducible apply Keep.haltQueue
    | with_reducible apply Keep.foldl | with_reducible refine Keep.foldl' Prod.fst ?_ ?_ | intro _ | split
    | dsimp only | with_reducible apply Keep.upd
    | exact ⟨fun f hf => by cases f <;> first | with_reducible exact rfl |
        exact absurd (Sub.mem (by assumption) _ (by decide)) hf⟩

theorem Keep.readControl {fs : List Field} {s t : State} (h : Keep fs s t) (base place)
    (hl : Sub [.regs, .shad, .store, .full, .banks, .xbar, .parked, .stage, .cores, .islands, .queues, .ops,
      .ports, .out, .outst, .vecBusy, .power, .health, .injected, .free] fs :=
        by exact Sub.trans (by assumption) (by rfl)) :
    Keep fs s (State.readControl t base place).1 := by
  unfold State.readControl
  try dsimp only
  repeat' first
    | with_reducible exact h | with_reducible assumption | exact Sub.trans (by assumption) (by rfl)
    | with_reducible apply Keep.injectWord | with_reducible apply Keep.correctedError
    | with_reducible apply Keep.controlLost | intro _ | split | dsimp only

theorem Keep.captureAccess {fs : List Field} {s t : State} (h : Keep fs s t) (c a cause)
    (hl : Sub [.regs, .ports, .out, .outst, .vecBusy, .power] fs :=
        by exact Sub.trans (by assumption) (by rfl)) :
    Keep fs s (State.captureAccess t c a cause) := by
  unfold State.captureAccess
  try dsimp only
  repeat' first
    | with_reducible exact h | with_reducible assumption | exact Sub.trans (by assumption) (by rfl)
    | with_reducible apply Keep.capture | refine Keep.of_fst (by assumption) ?_
    | refine Keep.of_snd (by assumption) ?_ | intro _ | split | dsimp only

theorem Keep.wack {fs : List Field} {s t : State} (h : Keep fs s t) (port tag stream srcpos srcpkg status)
    (hl : Sub [.ports, .out, .power] fs := by exact Sub.trans (by assumption) (by rfl)) :
    Keep fs s (State.wack t port tag stream srcpos srcpkg status) := by
  unfold State.wack
  try dsimp only
  repeat' first
    | with_reducible exact h | with_reducible assumption | exact Sub.trans (by assumption) (by rfl)
    | with_reducible apply Keep.send | intro _ | split | dsimp only

theorem Keep.beginClose {fs : List Field} {s t : State} (h : Keep fs s t) (o timedOut)
    (hl : Sub [.closing, .ops] fs := by exact Sub.trans (by assumption) (by rfl)) :
    Keep fs s (State.beginClose t o timedOut) := by
  unfold State.beginClose
  try dsimp only
  repeat' first
    | with_reducible exact h | with_reducible assumption | exact Sub.trans (by assumption) (by rfl)
    | with_reducible apply Keep.modOp | with_reducible apply Keep.finish | intro _ | split | dsimp only
    | with_reducible apply Keep.upd
    | exact ⟨fun f hf => by cases f <;> first | with_reducible exact rfl |
        exact absurd (Sub.mem (by assumption) _ (by decide)) hf⟩

theorem Keep.waitCheck {fs : List Field} {s t : State} (h : Keep fs s t) (c ctr)
    (hl : Sub [.closing, .ops] fs := by exact Sub.trans (by assumption) (by rfl)) :
    Keep fs s (State.waitCheck t c ctr) := by
  unfold State.waitCheck
  try dsimp only
  repeat' first
    | with_reducible exact h | with_reducible assumption | exact Sub.trans (by assumption) (by rfl)
    | with_reducible apply Keep.beginClose | with_reducible apply Keep.foldl
    | with_reducible refine Keep.foldl' Prod.fst ?_ ?_ | intro _ | split | dsimp only

theorem Keep.sendWindow {fs : List Field} {s t : State} (h : Keep fs s t) (o cluster offset data)
    (hl : Sub [.ops, .ports, .out, .outst, .power] fs := by exact Sub.trans (by assumption) (by rfl)) :
    Keep fs s (State.sendWindow t o cluster offset data) := by
  unfold State.sendWindow
  try dsimp only
  repeat' first
    | with_reducible exact h | with_reducible assumption | exact Sub.trans (by assumption) (by rfl)
    | with_reducible apply Keep.request | with_reducible apply Keep.modOp | intro _ | split | dsimp only

theorem Keep.windowNext {fs : List Field} {s t : State} (h : Keep fs s t) (id cluster)
    (hl : Sub [.xbar, .ports, .out, .outst, .power] fs := by exact Sub.trans (by assumption) (by rfl)) :
    Keep fs s (State.windowNext t id cluster) := by
  unfold State.windowNext
  try dsimp only
  repeat' first
    | with_reducible exact h | with_reducible assumption | exact Sub.trans (by assumption) (by rfl)
    | with_reducible apply Keep.setWaiting | with_reducible apply Keep.readMem
    | refine Keep.of_fst (by assumption) ?_ | refine Keep.of_snd (by assumption) ?_ | intro _ | split
    | dsimp only

theorem Keep.windowGo {fs : List Field} {s t : State} (h : Keep fs s t) (id cluster off bytes)
    (hl : Sub [.xbar, .ops, .ports, .out, .outst, .power] fs := by exact Sub.trans (by assumption) (by rfl)) :
    Keep fs s (State.windowGo t id cluster off bytes) := by
  unfold State.windowGo
  try dsimp only
  repeat' first
    | with_reducible exact h | with_reducible assumption | exact Sub.trans (by assumption) (by rfl)
    | with_reducible apply Keep.settle | with_reducible apply Keep.sendWindow
    | with_reducible apply Keep.windowNext | intro _ | split | dsimp only

theorem Keep.deliverRead {fs : List Field} {s t : State} (h : Keep fs s t) (c a bytes)
    (hl : Sub [.xbar, .cores, .ops, .ports, .out, .outst, .power] fs :=
        by exact Sub.trans (by assumption) (by rfl)) :
    Keep fs s (State.deliverRead t c a bytes) := by
  unfold State.deliverRead
  try dsimp only
  repeat' first
    | with_reducible exact h | with_reducible assumption | exact Sub.trans (by assumption) (by rfl)
    | with_reducible apply Keep.setCore | with_reducible apply Keep.windowGo | intro _ | split | dsimp only

theorem Keep.deliverWrite {fs : List Field} {s t : State} (h : Keep fs s t) (c a)
    (hl : Sub [.regs, .closing, .stage, .cores, .ops, .ports, .out, .power] fs :=
        by exact Sub.trans (by assumption) (by rfl)) :
    Keep fs s (State.deliverWrite t c a) := by
  unfold State.deliverWrite
  try dsimp only
  repeat' first
    | with_reducible exact h | with_reducible assumption | exact Sub.trans (by assumption) (by rfl)
    | with_reducible apply Keep.setCore | with_reducible apply Keep.setReg | with_reducible apply Keep.wack
    | with_reducible apply Keep.waitCheck | with_reducible apply Keep.setStage | intro _ | split | dsimp only

theorem Keep.accessFailed {fs : List Field} {s t : State} (h : Keep fs s t) (a1 a status)
    (hl : Sub [.regs, .xbar, .parked, .cores, .ops, .ports, .out, .outst, .vecBusy, .securing, .power] fs :=
        by exact Sub.trans (by assumption) (by rfl)) :
    Keep fs s (State.accessFailed t a1 a status) := by
  unfold State.accessFailed
  try dsimp only
  repeat' first
    | with_reducible exact h | with_reducible assumption | exact Sub.trans (by assumption) (by rfl)
    | with_reducible apply Keep.wack | with_reducible apply Keep.opFail | intro _ | split | dsimp only

theorem Keep.perform {fs : List Field} {s t : State} (h : Keep fs s t) (c a)
    (hl : Sub [.regs, .shad, .store, .full, .moved, .banks, .xbar, .closing, .stage, .cores, .islands, .ops,
      .ports, .out, .outst, .vecBusy, .power] fs :=
        by exact Sub.trans (by assumption) (by rfl)) :
    Keep fs s (State.perform t c a) := by
  unfold State.perform
  try dsimp only
  repeat' first
    | with_reducible exact h | with_reducible assumption | exact Sub.trans (by assumption) (by rfl)
    | with_reducible apply Keep.active | with_reducible apply Keep.setFull
    | with_reducible apply Keep.deliverRead | with_reducible apply Keep.moveSlot
    | with_reducible apply Keep.writeStore | with_reducible apply Keep.modOp | with_reducible apply Keep.orReg
    | with_reducible apply Keep.deliverWrite | with_reducible apply Keep.closeCheck
    | refine Keep.of_fst (by assumption) ?_ | refine Keep.of_snd (by assumption) ?_ | intro _ | split
    | dsimp only

theorem Keep.atDark {fs : List Field} {s t : State} (h : Keep fs s t) (c a dropped)
    (hl : Sub [.regs, .xbar, .parked, .cores, .ops, .ports, .out, .outst, .vecBusy, .securing, .power] fs :=
        by exact Sub.trans (by assumption) (by rfl)) :
    Keep fs s (State.atDark t c a dropped) := by
  unfold State.atDark
  try dsimp only
  repeat' first
    | with_reducible exact h | with_reducible assumption | exact Sub.trans (by assumption) (by rfl)
    | with_reducible apply Keep.captureAccess | with_reducible apply Keep.accessFailed
    | with_reducible apply Keep.incReg | intro _ | split | dsimp only

theorem Keep.accessEcc {fs : List Field} {s t : State} (h : Keep fs s t) (c a ecc)
    (hl : Sub [.regs, .injected] fs := by exact Sub.trans (by assumption) (by rfl)) :
    Keep fs s (State.accessEcc t c a ecc).1 := by
  unfold State.accessEcc
  try dsimp only
  repeat' first
    | with_reducible exact h | with_reducible assumption | exact Sub.trans (by assumption) (by rfl)
    | with_reducible apply Keep.injectWord | with_reducible apply Keep.injectPath | intro _ | split | dsimp only

theorem Keep.serveAccess {fs : List Field} {s t : State} (h : Keep fs s t) (c a ecc)
    (hl : Sub [.regs, .shad, .store, .full, .moved, .banks, .xbar, .parked, .closing, .stage, .cores, .islands,
      .queues, .ops, .ports, .out, .outst, .vecBusy, .securing, .power, .health, .replay, .injected,
      .free] fs :=
        by exact Sub.trans (by assumption) (by rfl)) :
    Keep fs s (State.serveAccess t c a ecc) := by
  unfold State.serveAccess
  try dsimp only
  repeat' first
    | with_reducible exact h | with_reducible assumption | exact Sub.trans (by assumption) (by rfl)
    | with_reducible apply Keep.accessEcc | with_reducible apply Keep.perform
    | with_reducible apply Keep.correctedError | with_reducible apply Keep.controlLost
    | with_reducible apply Keep.handleLost | with_reducible apply Keep.closeCheck
    | with_reducible apply Keep.stagingLost | intro _ | split | dsimp only

theorem Keep.meetBank {fs : List Field} {s t : State} (h : Keep fs s t) (c a rest ecc)
    (hl : Sub [.regs, .shad, .store, .full, .moved, .banks, .xbar, .parked, .closing, .stage, .cores, .islands,
      .queues, .ops, .ports, .out, .outst, .vecBusy, .securing, .power, .health, .replay, .injected,
      .free] fs :=
        by exact Sub.trans (by assumption) (by rfl)) :
    Keep fs s (State.meetBank t c a rest ecc) := by
  unfold State.meetBank
  try dsimp only
  repeat' first
    | with_reducible exact h | with_reducible assumption | exact Sub.trans (by assumption) (by rfl)
    | with_reducible apply Keep.setWaiting | with_reducible apply Keep.atDark
    | with_reducible apply Keep.setBank | with_reducible apply Keep.serveAccess
    | with_reducible apply Keep.setParked | intro _ | split | dsimp only

theorem Keep.bankAccess {fs : List Field} {s t : State} (h : Keep fs s t) (c bank idx ecc)
    (hl : Sub [.regs, .shad, .store, .full, .moved, .banks, .xbar, .parked, .closing, .stage, .cores, .islands,
      .queues, .ops, .ports, .out, .outst, .vecBusy, .securing, .power, .health, .replay, .injected,
      .free] fs :=
        by exact Sub.trans (by assumption) (by rfl)) :
    Keep fs s (State.bankAccess t c bank idx ecc) := by
  unfold State.bankAccess
  try dsimp only
  repeat' first
    | with_reducible exact h | with_reducible assumption | exact Sub.trans (by assumption) (by rfl)
    | with_reducible apply Keep.meetBank | intro _ | split | dsimp only

theorem Keep.serveParked {fs : List Field} {s t : State} (h : Keep fs s t) (c bank)
    (hl : Sub [.regs, .shad, .store, .full, .moved, .banks, .xbar, .parked, .closing, .stage, .cores, .islands,
      .queues, .ops, .ports, .out, .outst, .vecBusy, .securing, .power, .health, .replay, .injected,
      .free] fs :=
        by exact Sub.trans (by assumption) (by rfl)) :
    Keep fs s (State.serveParked t c bank) := by
  unfold State.serveParked
  try dsimp only
  repeat' first
    | with_reducible exact h | with_reducible assumption | exact Sub.trans (by assumption) (by rfl)
    | with_reducible apply Keep.setParked | with_reducible apply Keep.serveAccess
    | with_reducible apply Keep.setBank | with_reducible apply Keep.atDark | intro _ | split | dsimp only

theorem Keep.tagTimeout {fs : List Field} {s t : State} (h : Keep fs s t) (c bank idx)
    (hl : Sub [.regs, .shad, .store, .full, .banks, .xbar, .parked, .stage, .cores, .islands, .ops, .ports,
      .out, .outst, .vecBusy, .securing, .power] fs :=
        by exact Sub.trans (by assumption) (by rfl)) :
    Keep fs s (State.tagTimeout t c bank idx) := by
  unfold State.tagTimeout
  try dsimp only
  repeat' first
    | with_reducible exact h | with_reducible assumption | exact Sub.trans (by assumption) (by rfl)
    | with_reducible apply Keep.setParked | with_reducible apply Keep.captureAccess
    | with_reducible apply Keep.incReg | with_reducible apply Keep.accessFailed
    | with_reducible apply Keep.closeCheck | intro _ | split | dsimp only

theorem Keep.scrubRead {fs : List Field} {s t : State} (h : Keep fs s t) (c bank row ecc)
    (hl : Sub [.regs, .shad, .store, .full, .banks, .xbar, .parked, .stage, .cores, .islands, .queues, .ops,
      .ports, .out, .outst, .vecBusy, .securing, .power, .health, .replay, .injected, .free] fs :=
        by exact Sub.trans (by assumption) (by rfl)) :
    Keep fs s (State.scrubRead t c bank row ecc) := by
  unfold State.scrubRead
  try dsimp only
  repeat' first
    | with_reducible exact h | with_reducible assumption | exact Sub.trans (by assumption) (by rfl)
    | with_reducible apply Keep.injectWord | with_reducible apply Keep.correctedError
    | with_reducible apply Keep.controlLost | with_reducible apply Keep.handleLost
    | with_reducible apply Keep.stagingLost | with_reducible apply Keep.uncorrected | intro _ | split
    | dsimp only

theorem Keep.wakeDone {fs : List Field} {s t : State} (h : Keep fs s t) (c bank row ecc)
    (hl : Sub [.regs, .shad, .store, .full, .banks, .xbar, .parked, .stage, .cores, .islands, .queues, .ops,
      .ports, .out, .outst, .vecBusy, .securing, .power, .health, .replay, .injected, .free] fs :=
        by exact Sub.trans (by assumption) (by rfl)) :
    Keep fs s (State.wakeDone t c bank row ecc) := by
  unfold State.wakeDone
  try dsimp only
  repeat' first
    | with_reducible exact h | with_reducible assumption | exact Sub.trans (by assumption) (by rfl)
    | with_reducible apply Keep.wipeBank | with_reducible apply Keep.setBank
    | with_reducible apply Keep.closeCheck | with_reducible apply Keep.scrubRead | intro _ | split | dsimp only

theorem Keep.keepReturn {fs : List Field} {s t : State} (h : Keep fs s t) (c bank)
    (hl : Sub [.banks] fs := by exact Sub.trans (by assumption) (by rfl)) :
    Keep fs s (State.keepReturn t c bank) := by
  unfold State.keepReturn
  try dsimp only
  repeat' first
    | with_reducible exact h | with_reducible assumption | exact Sub.trans (by assumption) (by rfl)
    | with_reducible apply Keep.setBank | intro _ | split | dsimp only

theorem Keep.dropWrites {fs : List Field} {s t : State} (h : Keep fs s t) (c bank)
    (hl : Sub [.regs, .xbar, .parked, .cores, .ops, .ports, .out, .outst, .vecBusy, .securing, .power] fs :=
        by exact Sub.trans (by assumption) (by rfl)) :
    Keep fs s (State.dropWrites t c bank) := by
  unfold State.dropWrites
  try dsimp only
  repeat' first
    | with_reducible exact h | with_reducible assumption | exact Sub.trans (by assumption) (by rfl)
    | with_reducible apply Keep.setWaiting | with_reducible apply Keep.setParked
    | with_reducible apply Keep.atDark | with_reducible apply Keep.foldl
    | with_reducible refine Keep.foldl' Prod.fst ?_ ?_ | intro _ | split | dsimp only

theorem Keep.closeTimeout {fs : List Field} {s t : State} (h : Keep fs s t) (c bank)
    (hl : Sub [.regs, .shad, .store, .full, .banks, .xbar, .parked, .stage, .cores, .islands, .ops, .ports,
      .out, .outst, .vecBusy, .securing, .power] fs :=
        by exact Sub.trans (by assumption) (by rfl)) :
    Keep fs s (State.closeTimeout t c bank) := by
  unfold State.closeTimeout
  try dsimp only
  repeat' first
    | with_reducible exact h | with_reducible assumption | exact Sub.trans (by assumption) (by rfl)
    | with_reducible apply Keep.bankDark | with_reducible apply Keep.dropWrites
    | with_reducible apply Keep.setBank | intro _ | split | dsimp only

theorem Keep.patrol {fs : List Field} {s t : State} (h : Keep fs s t) (c bank row ecc)
    (hl : Sub [.regs, .shad, .store, .full, .banks, .xbar, .parked, .stage, .cores, .islands, .queues, .ops,
      .ports, .out, .outst, .vecBusy, .securing, .power, .health, .replay, .injected, .free] fs :=
        by exact Sub.trans (by assumption) (by rfl)) :
    Keep fs s (State.patrol t c bank row ecc) := by
  unfold State.patrol
  try dsimp only
  repeat' first
    | with_reducible exact h | with_reducible assumption | exact Sub.trans (by assumption) (by rfl)
    | with_reducible apply Keep.readControl | with_reducible apply Keep.scrubRead | intro _ | split | dsimp only

theorem Keep.refuseWindow {fs : List Field} {s t : State} (h : Keep fs s t) (w c h' o cause status)
    (hl : Sub [.regs, .ports, .out, .outst, .vecBusy, .power] fs :=
        by exact Sub.trans (by assumption) (by rfl)) :
    Keep fs s (State.refuseWindow t w c h' o cause status) := by
  unfold State.refuseWindow
  try dsimp only
  repeat' first
    | with_reducible exact h | with_reducible assumption | exact Sub.trans (by assumption) (by rfl)
    | with_reducible apply Keep.capture | with_reducible apply Keep.incReg | with_reducible apply Keep.wack
    | intro _ | split | dsimp only

theorem Keep.windowArrive {fs : List Field} {s t : State} (h : Keep fs s t) (w acc)
    (hl : Sub [.regs, .xbar, .ports, .out, .outst, .vecBusy, .power, .free] fs :=
        by exact Sub.trans (by assumption) (by rfl)) :
    Keep fs s (State.windowArrive t w acc) := by
  unfold State.windowArrive
  try dsimp only
  repeat' first
    | with_reducible exact h | with_reducible assumption | exact Sub.trans (by assumption) (by rfl)
    | with_reducible apply Keep.capture | with_reducible apply Keep.wack
    | with_reducible apply Keep.refuseWindow | with_reducible apply Keep.freshWord
    | with_reducible apply Keep.setWaiting | refine Keep.of_fst (by assumption) ?_
    | refine Keep.of_snd (by assumption) ?_ | intro _ | split | dsimp only

theorem Keep.closeComplete {fs : List Field} {s t : State} (h : Keep fs s t) (c h')
    (hl : Sub [.regs, .shad, .store, .full, .banks, .closing, .owners, .endedOwners, .stage, .cores, .islands,
      .ops, .ports, .out, .outst, .vecBusy, .power] fs :=
        by exact Sub.trans (by assumption) (by rfl)) :
    Keep fs s (State.closeComplete t c h') := by
  unfold State.closeComplete
  try dsimp only
  repeat' first
    | with_reducible exact h | with_reducible assumption | exact Sub.trans (by assumption) (by rfl)
    | with_reducible apply Keep.setWindow | with_reducible apply Keep.bumpGen
    | with_reducible apply Keep.releaseHandle | with_reducible apply Keep.modOp
    | with_reducible apply Keep.finish | with_reducible apply Keep.foldl
    | with_reducible refine Keep.foldl' Prod.fst ?_ ?_ | intro _ | split | dsimp only
    | with_reducible apply Keep.upd
    | exact ⟨fun f hf => by cases f <;> first | with_reducible exact rfl |
        exact absurd (Sub.mem (by assumption) _ (by decide)) hf⟩

theorem Keep.waitTimeout {fs : List Field} {s t : State} (h : Keep fs s t) (id)
    (hl : Sub [.closing, .ops] fs := by exact Sub.trans (by assumption) (by rfl)) :
    Keep fs s (State.waitTimeout t id) := by
  unfold State.waitTimeout
  try dsimp only
  repeat' first
    | with_reducible exact h | with_reducible assumption | exact Sub.trans (by assumption) (by rfl)
    | with_reducible apply Keep.beginClose | intro _ | split | dsimp only

theorem Keep.openWindow {fs : List Field} {s t : State} (h : Keep fs s t) (c h')
    (hl : Sub [.regs, .store, .full, .owners, .endedOwners, .ports, .out, .outst, .vecBusy, .power] fs :=
        by exact Sub.trans (by assumption) (by rfl)) :
    Keep fs s (State.openWindow t c h') := by
  unfold State.openWindow
  try dsimp only
  repeat' first
    | with_reducible exact h | with_reducible assumption | exact Sub.trans (by assumption) (by rfl)
    | with_reducible apply Keep.capture | with_reducible apply Keep.noteRefusal
    | with_reducible apply Keep.scrub | with_reducible apply Keep.setReg | with_reducible apply Keep.clearOwner
    | with_reducible apply Keep.setWindow | intro _ | split | dsimp only

theorem Keep.openWindows {fs : List Field} {s t : State} (h : Keep fs s t) (c word v)
    (hl : Sub [.regs, .store, .full, .owners, .endedOwners, .ports, .out, .outst, .vecBusy, .power] fs :=
        by exact Sub.trans (by assumption) (by rfl)) :
    Keep fs s (State.openWindows t c word v).1 := by
  unfold State.openWindows
  try dsimp only
  repeat' first
    | with_reducible exact h | with_reducible assumption | exact Sub.trans (by assumption) (by rfl)
    | with_reducible apply Keep.openWindow | with_reducible apply Keep.foldl
    | with_reducible refine Keep.foldl' Prod.fst ?_ ?_ | intro _ | split | dsimp only

end Sys2Proof.Machine
end

