-- ==== Sys2Proof/Laws/KeepWork.lean ====
section
/-!
SUPPORT. The operations of cores, their tiles and drains, and of groups: what each does to
the parts of the state that the invariants speak of (`Keep`).
-/

namespace Sys2Proof.Machine

set_option Elab.async false
set_option linter.unusedTactic false
set_option linter.unreachableTactic false
set_option linter.unusedVariables false

theorem Keep.issueRead {fs : List Field} {s t : State} (h : Keep fs s t) (o core u h' run)
    (hl : Sub [.xbar] fs := by exact Sub.trans (by assumption) (by rfl)) :
    Keep fs s (State.issueRead t o core u h' run) := by
  unfold State.issueRead
  try dsimp only
  repeat' first
    | with_reducible exact h | with_reducible assumption | exact Sub.trans (by assumption) (by rfl)
    | with_reducible apply Keep.setWaiting | refine Keep.of_fst (by assumption) ?_
    | refine Keep.of_snd (by assumption) ?_ | intro _ | split | dsimp only

theorem Keep.readStaged {fs : List Field} {s t : State} (h : Keep fs s t) (o core u slot run)
    (hl : Sub [.xbar] fs := by exact Sub.trans (by assumption) (by rfl)) :
    Keep fs s (State.readStaged t o core u slot run) := by
  unfold State.readStaged
  try dsimp only
  repeat' first
    | with_reducible exact h | with_reducible assumption | exact Sub.trans (by assumption) (by rfl)
    | with_reducible apply Keep.setWaiting | intro _ | split | dsimp only

theorem Keep.askFor {fs : List Field} {s t : State} (h : Keep fs s t) (core key issue missing)
    (hi : ∀ u x, Keep fs s u → Keep fs s (issue u x)) : Keep fs s (State.askFor t core key issue missing) := by
  unfold State.askFor
  refine Keep.foldl h fun u x hu => ?_
  split
  · exact hi _ _ hu
  · exact hu

theorem Keep.fetchHandle {fs : List Field} {s t : State} (h : Keep fs s t) (o core u h' missing)
    (hl : Sub [.xbar] fs := by exact Sub.trans (by assumption) (by rfl)) :
    Keep fs s (State.fetchHandle t o core u h' missing) := by
  unfold State.fetchHandle
  try dsimp only
  repeat' first
    | with_reducible exact h | with_reducible assumption | exact Sub.trans (by assumption) (by rfl)
    | with_reducible apply Keep.askFor | with_reducible apply Keep.issueRead | intro _ | split | dsimp only

theorem Keep.writeSlot {fs : List Field} {s t : State} (h : Keep fs s t) (d scale r round)
    (hl : Sub [.xbar, .stage, .cores] fs := by exact Sub.trans (by assumption) (by rfl)) :
    Keep fs s (State.writeSlot t d scale r round) := by
  unfold State.writeSlot
  try dsimp only
  repeat' first
    | with_reducible exact h | with_reducible assumption | exact Sub.trans (by assumption) (by rfl)
    | with_reducible apply Keep.setStage | with_reducible apply Keep.mapCores
    | with_reducible apply Keep.setWaiting | intro _ | split | dsimp only

theorem Keep.stageSlot {fs : List Field} {s t : State} (h : Keep fs s t) (d scale r round)
    (hl : Sub [.xbar, .stage, .cores, .ports, .out, .outst, .power] fs :=
        by exact Sub.trans (by assumption) (by rfl)) :
    Keep fs s (State.stageSlot t d scale r round) := by
  unfold State.stageSlot
  try dsimp only
  repeat' first
    | with_reducible exact h | with_reducible assumption | exact Sub.trans (by assumption) (by rfl)
    | with_reducible apply Keep.writeSlot | with_reducible apply Keep.readMem | with_reducible apply Keep.foldl
    | with_reducible refine Keep.foldl' Prod.fst ?_ ?_ | intro _ | split | dsimp only

theorem Keep.fetchMissing {fs : List Field} {s t : State} (h : Keep fs s t) (d scale core u r line idx round)
    (hl : Sub [.xbar, .stage, .cores, .ports, .out, .outst, .power] fs :=
        by exact Sub.trans (by assumption) (by rfl)) :
    Keep fs s (State.fetchMissing t d scale core u r line idx round) := by
  unfold State.fetchMissing
  try dsimp only
  repeat' first
    | with_reducible exact h | with_reducible assumption | exact Sub.trans (by assumption) (by rfl)
    | with_reducible apply Keep.askFor | with_reducible apply Keep.readStaged
    | with_reducible apply Keep.fetchHandle | with_reducible apply Keep.stageSlot | intro _ | split | dsimp only

theorem Keep.sticky {fs : List Field} {s t : State} (h : Keep fs s t) (core engine flags)
    (hl : Sub [.regs] fs := by exact Sub.trans (by assumption) (by rfl)) :
    Keep fs s (State.sticky t core engine flags) := by
  unfold State.sticky
  try dsimp only
  repeat' first
    | with_reducible exact h | with_reducible assumption | exact Sub.trans (by assumption) (by rfl)
    | with_reducible apply Keep.orReg | intro _ | split | dsimp only

theorem Keep.fxCapture {fs : List Field} {s t : State} (h : Keep fs s t) (core o v t' e)
    (hl : Sub [.regs, .ports, .out, .outst, .vecBusy, .power] fs :=
        by exact Sub.trans (by assumption) (by rfl)) :
    Keep fs s (State.fxCapture t core o v t' e) := by
  unfold State.fxCapture
  try dsimp only
  repeat' first
    | with_reducible exact h | with_reducible assumption | exact Sub.trans (by assumption) (by rfl)
    | with_reducible apply Keep.setRegN | with_reducible apply Keep.setReg | with_reducible apply Keep.raise
    | refine Keep.of_fst (by assumption) ?_ | refine Keep.of_snd (by assumption) ?_ | intro _ | split
    | dsimp only

theorem Keep.fxOffer {fs : List Field} {s t : State} (h : Keep fs s t) (core o v t' es)
    (hl : Sub [.regs, .ports, .out, .outst, .vecBusy, .power] fs :=
        by exact Sub.trans (by assumption) (by rfl)) :
    Keep fs s (State.fxOffer t core o v t' es) := by
  unfold State.fxOffer
  try dsimp only
  repeat' first
    | with_reducible exact h | with_reducible assumption | exact Sub.trans (by assumption) (by rfl)
    | with_reducible apply Keep.fxCapture | with_reducible apply Keep.foldl
    | with_reducible refine Keep.foldl' Prod.fst ?_ ?_ | intro _ | split | dsimp only

theorem Keep.rescueLog {fs : List Field} {s t : State} (h : Keep fs s t) (core seq n op stop)
    (hl : Sub [.regs] fs := by exact Sub.trans (by assumption) (by rfl)) :
    Keep fs s (State.rescueLog t core seq n op stop) := by
  unfold State.rescueLog
  try dsimp only
  repeat' first
    | with_reducible exact h | with_reducible assumption | exact Sub.trans (by assumption) (by rfl)
    | with_reducible apply Keep.setRegN | with_reducible apply Keep.setReg | intro _ | split | dsimp only

theorem Keep.beginTile {fs : List Field} {s t : State} (h : Keep fs s t) (k)
    (hl : Sub [.cores] fs := by exact Sub.trans (by assumption) (by rfl)) :
    Keep fs s (State.beginTile t k) := by
  unfold State.beginTile
  try dsimp only
  repeat' first
    | with_reducible exact h | with_reducible assumption | exact Sub.trans (by assumption) (by rfl)
    | with_reducible apply Keep.setCore | intro _ | split | dsimp only

theorem Keep.setTile {fs : List Field} {s t : State} (h : Keep fs s t) (k t')
    (hl : Sub [.cores] fs := by exact Sub.trans (by assumption) (by rfl)) :
    Keep fs s (State.setTile t k t') := by
  unfold State.setTile
  try dsimp only
  repeat' first
    | with_reducible exact h | with_reducible assumption | exact Sub.trans (by assumption) (by rfl)
    | with_reducible apply Keep.setCore | intro _ | split | dsimp only

theorem Keep.fxReach {fs : List Field} {s t : State} (h : Keep fs s t) (k r step)
    (hl : Sub [.regs, .ports, .out, .outst, .vecBusy, .power] fs :=
        by exact Sub.trans (by assumption) (by rfl)) :
    Keep fs s (State.fxReach t k r step) := by
  unfold State.fxReach
  try dsimp only
  repeat' first
    | with_reducible exact h | with_reducible assumption | exact Sub.trans (by assumption) (by rfl)
    | with_reducible apply Keep.fxOffer | intro _ | split | dsimp only

theorem Keep.loadShadow {fs : List Field} {s t : State} (h : Keep fs s t) (k)
    (hl : Sub [.cores] fs := by exact Sub.trans (by assumption) (by rfl)) :
    Keep fs s (State.loadShadow t k) := by
  unfold State.loadShadow
  try dsimp only
  repeat' first
    | with_reducible exact h | with_reducible assumption | exact Sub.trans (by assumption) (by rfl)
    | with_reducible apply Keep.setCore | intro _ | split | dsimp only

theorem Keep.streamOne {fs : List Field} {s t u : State} (h : Keep fs s t) {k : Nat} (e : State.streamOne t k =
      some u)
    (hl : Sub [.regs, .cores, .ports, .out, .outst, .vecBusy, .power] fs :=
        by exact Sub.trans (by assumption) (by rfl)) : Keep fs s u := by
  unfold State.streamOne at e
  obtain ⟨r, -, e⟩ := Option.bind_eq_some_iff.1 e
  dsimp only at e
  split at e
  · cases e
  obtain ⟨cells, -, e⟩ := Option.map_eq_some_iff.1 e
  subst e
  exact Keep.active (Keep.foldl (Keep.setTile (Keep.fxReach h _ _ _) _ _) fun w x hw => Keep.sticky hw _ _ _) _ _
      _ _

theorem Keep.stream {fs : List Field} {s : State}
    (hl : Sub [.regs, .cores, .ports, .out, .outst, .vecBusy, .power] fs :=
        by exact Sub.trans (by assumption) (by rfl)) :
    ∀ {t : State} (_ : Keep fs s t) (k n : Nat), Keep fs s (State.stream t k n)
  | _, h, _, 0 => h
  | t, h, k, n + 1 => by
    unfold State.stream
    split
    next u e => exact Keep.stream hl (Keep.streamOne h e) k n
    · exact h

theorem Keep.arrayOn {fs : List Field} {s t : State} (h : Keep fs s t) (k)
    (hl : Sub [.regs, .cores, .ports, .out, .outst, .vecBusy, .power] fs :=
        by exact Sub.trans (by assumption) (by rfl)) :
    Keep fs s (State.arrayOn t k) := by
  unfold State.arrayOn
  try dsimp only
  repeat' first
    | with_reducible exact h | with_reducible assumption | exact Sub.trans (by assumption) (by rfl)
    | with_reducible apply Keep.loadShadow | with_reducible apply Keep.stream | intro _ | split | dsimp only

theorem Keep.swap {fs : List Field} {s t : State} (h : Keep fs s t) (k)
    (hl : Sub [.cores] fs := by exact Sub.trans (by assumption) (by rfl)) :
    Keep fs s (State.swap t k) := by
  unfold State.swap
  try dsimp only
  repeat' first
    | with_reducible exact h | with_reducible assumption | exact Sub.trans (by assumption) (by rfl)
    | with_reducible apply Keep.setCore | intro _ | split | dsimp only

theorem Keep.runPass {fs : List Field} {s t : State} (h : Keep fs s t) (k)
    (hl : Sub [.regs, .cores, .ports, .out, .outst, .vecBusy, .power] fs :=
        by exact Sub.trans (by assumption) (by rfl)) :
    Keep fs s (State.runPass t k) := by
  unfold State.runPass
  try dsimp only
  repeat' first
    | with_reducible exact h | with_reducible assumption | exact Sub.trans (by assumption) (by rfl)
    | with_reducible apply Keep.beginTile | with_reducible apply Keep.loadShadow
    | with_reducible apply Keep.swap | with_reducible apply Keep.arrayOn | intro _ | split | dsimp only

theorem Keep.stall {fs : List Field} {s t : State} (h : Keep fs s t) (k)
    (hl : Sub [.cores] fs := by exact Sub.trans (by assumption) (by rfl)) :
    Keep fs s (State.stall t k) := by
  unfold State.stall
  try dsimp only
  repeat' first
    | with_reducible exact h | with_reducible assumption | exact Sub.trans (by assumption) (by rfl)
    | with_reducible apply Keep.setCore | intro _ | split | dsimp only

theorem Keep.promoteStep {fs : List Field} {s t : State} (h : Keep fs s t) (k ecc)
    (hl : Sub [.regs, .shad, .store, .full, .banks, .xbar, .parked, .stage, .cores, .islands, .queues, .ops,
      .ports, .out, .outst, .vecBusy, .securing, .power, .health, .replay, .injected, .free] fs :=
        by exact Sub.trans (by assumption) (by rfl)) :
    Keep fs s (State.promoteStep t k ecc) := by
  unfold State.promoteStep
  try dsimp only
  repeat' first
    | with_reducible exact h | with_reducible assumption | exact Sub.trans (by assumption) (by rfl)
    | with_reducible apply Keep.stall | with_reducible apply Keep.injectWord
    | with_reducible apply Keep.coreLost | with_reducible apply Keep.controlLost
    | with_reducible apply Keep.correctedError | with_reducible apply Keep.setTile
    | with_reducible apply Keep.sticky | with_reducible apply Keep.fxOffer | with_reducible apply Keep.foldl
    | with_reducible refine Keep.foldl' Prod.fst ?_ ?_ | intro _ | split | dsimp only

theorem Keep.promoteNext {fs : List Field} {s t : State} (h : Keep fs s t) (k)
    (hl : Sub [.regs, .shad, .store, .full, .banks, .xbar, .parked, .stage, .cores, .islands, .queues, .ops,
      .ports, .out, .outst, .vecBusy, .securing, .power, .health, .replay, .injected, .free] fs :=
        by exact Sub.trans (by assumption) (by rfl)) :
    Keep fs s (State.promoteNext t k) := by
  unfold State.promoteNext
  try dsimp only
  repeat' first
    | with_reducible exact h | with_reducible assumption | exact Sub.trans (by assumption) (by rfl)
    | with_reducible apply Keep.promoteStep | with_reducible apply Keep.arrayOn | intro _ | split | dsimp only

theorem Keep.completeTile {fs : List Field} {s t : State} (h : Keep fs s t) (k)
    (hl : Sub [.cores] fs := by exact Sub.trans (by assumption) (by rfl)) :
    Keep fs s (State.completeTile t k) := by
  unfold State.completeTile
  try dsimp only
  repeat' first
    | with_reducible exact h | with_reducible assumption | exact Sub.trans (by assumption) (by rfl)
    | with_reducible apply Keep.stall | with_reducible apply Keep.setCore | intro _ | split | dsimp only

theorem Keep.enterFiles {fs : List Field} {s t : State} (h : Keep fs s t) (x r0 n ctx)
    (hl : Sub [.cores] fs := by exact Sub.trans (by assumption) (by rfl)) :
    Keep fs s (State.enterFiles t x r0 n ctx) := by
  unfold State.enterFiles
  try dsimp only
  repeat' first
    | with_reducible exact h | with_reducible assumption | exact Sub.trans (by assumption) (by rfl)
    | with_reducible apply Keep.setCore | with_reducible apply Keep.foldl
    | with_reducible refine Keep.foldl' Prod.fst ?_ ?_ | intro _ | split | dsimp only

theorem Keep.pushSlug {fs : List Field} {s t : State} (h : Keep fs s t) (k o t' g)
    (hl : Sub [.cores] fs := by exact Sub.trans (by assumption) (by rfl)) :
    Keep fs s (State.pushSlug t k o t' g) := by
  unfold State.pushSlug
  try dsimp only
  repeat' first
    | with_reducible exact h | with_reducible assumption | exact Sub.trans (by assumption) (by rfl)
    | with_reducible apply Keep.setCore | with_reducible apply Keep.foldl
    | with_reducible refine Keep.foldl' Prod.fst ?_ ?_ | intro _ | split | dsimp only

theorem Keep.enqueue {fs : List Field} {s t : State} (h : Keep fs s t) (k)
    (hl : Sub [.regs, .cores] fs := by exact Sub.trans (by assumption) (by rfl)) :
    Keep fs s (State.enqueue t k) := by
  unfold State.enqueue
  try dsimp only
  repeat' first
    | with_reducible exact h | with_reducible assumption | exact Sub.trans (by assumption) (by rfl)
    | with_reducible apply Keep.beginTile | with_reducible apply Keep.stall
    | with_reducible apply Keep.enterFiles | with_reducible apply Keep.pushSlug
    | with_reducible apply Keep.rescueLog | intro _ | split | dsimp only

theorem Keep.feed {fs : List Field} {s t : State} (h : Keep fs s t) (k d scale ahead rect codes used ecc)
    (hl : Sub [.regs, .shad, .store, .full, .banks, .xbar, .parked, .stage, .cores, .islands, .queues, .ops,
      .ports, .out, .outst, .vecBusy, .securing, .power, .health, .replay, .injected, .free] fs :=
        by exact Sub.trans (by assumption) (by rfl)) :
    Keep fs s (State.feed t k d scale ahead rect codes used ecc) := by
  unfold State.feed
  try dsimp only
  repeat' first
    | with_reducible exact h | with_reducible assumption | exact Sub.trans (by assumption) (by rfl)
    | with_reducible apply Keep.injectWord | with_reducible apply Keep.controlLost
    | with_reducible apply Keep.coreLost | with_reducible apply Keep.correctedError
    | with_reducible apply Keep.setCore | with_reducible apply Keep.active | intro _ | split | dsimp only

theorem Keep.feederFetch {fs : List Field} {s t : State} (h : Keep fs s t) (k sideB scale line idx ecc)
    (hl : Sub [.regs, .shad, .store, .full, .banks, .xbar, .parked, .stage, .cores, .islands, .queues, .ops,
      .ports, .out, .outst, .vecBusy, .securing, .power, .health, .replay, .injected, .free] fs :=
        by exact Sub.trans (by assumption) (by rfl)) :
    Keep fs s (State.feederFetch t k sideB scale line idx ecc) := by
  unfold State.feederFetch
  try dsimp only
  repeat' first
    | with_reducible exact h | with_reducible assumption | exact Sub.trans (by assumption) (by rfl)
    | with_reducible apply Keep.beginTile | with_reducible apply Keep.feed | with_reducible apply Keep.arrayOn
    | with_reducible apply Keep.fetchMissing | intro _ | split | dsimp only

theorem Keep.fillChain {fs : List Field} {s t : State} (h : Keep fs s t) (k o g b seg)
    (hl : Sub [.xbar, .cores] fs := by exact Sub.trans (by assumption) (by rfl)) :
    Keep fs s (State.fillChain t k o g b seg) := by
  unfold State.fillChain
  try dsimp only
  repeat' first
    | with_reducible exact h | with_reducible assumption | exact Sub.trans (by assumption) (by rfl)
    | with_reducible apply Keep.setCore | with_reducible apply Keep.fetchHandle
    | with_reducible apply Keep.foldl | with_reducible refine Keep.foldl' Prod.fst ?_ ?_ | intro _ | split
    | dsimp only

theorem Keep.fillTile {fs : List Field} {s t : State} (h : Keep fs s t) (k o e g b)
    (hl : Sub [.xbar, .stage, .cores, .ports, .out, .outst, .power] fs :=
        by exact Sub.trans (by assumption) (by rfl)) :
    Keep fs s (State.fillTile t k o e g b) := by
  unfold State.fillTile
  try dsimp only
  repeat' first
    | with_reducible exact h | with_reducible assumption | exact Sub.trans (by assumption) (by rfl)
    | with_reducible apply Keep.setCore | with_reducible apply Keep.fetchMissing
    | refine Keep.of_fst (by assumption) ?_ | refine Keep.of_snd (by assumption) ?_
    | with_reducible apply Keep.foldl | with_reducible refine Keep.foldl' Prod.fst ?_ ?_ | intro _ | split
    | dsimp only

theorem Keep.fillBuffer {fs : List Field} {s t : State} (h : Keep fs s t) (k b seg)
    (hl : Sub [.xbar, .stage, .cores, .ports, .out, .outst, .power] fs :=
        by exact Sub.trans (by assumption) (by rfl)) :
    Keep fs s (State.fillBuffer t k b seg) := by
  unfold State.fillBuffer
  try dsimp only
  repeat' first
    | with_reducible exact h | with_reducible assumption | exact Sub.trans (by assumption) (by rfl)
    | with_reducible apply Keep.fillTile | with_reducible apply Keep.fillChain | intro _ | split | dsimp only

theorem Keep.chainTake {fs : List Field} {s t : State} (h : Keep fs s t) (k)
    (hl : Sub [.cores] fs := by exact Sub.trans (by assumption) (by rfl)) :
    Keep fs s (State.chainTake t k) := by
  unfold State.chainTake
  try dsimp only
  repeat' first
    | with_reducible exact h | with_reducible assumption | exact Sub.trans (by assumption) (by rfl)
    | with_reducible apply Keep.setCore | with_reducible apply Keep.foldl
    | with_reducible refine Keep.foldl' Prod.fst ?_ ?_ | intro _ | split | dsimp only

theorem Keep.chainEnd {fs : List Field} {s t : State} (h : Keep fs s t) (k o e x)
    (hl : Sub [.regs, .cores, .ports, .out, .outst, .vecBusy, .power] fs :=
        by exact Sub.trans (by assumption) (by rfl)) :
    Keep fs s (State.chainEnd t k o e x) := by
  unfold State.chainEnd
  try dsimp only
  repeat' first
    | with_reducible exact h | with_reducible assumption | exact Sub.trans (by assumption) (by rfl)
    | with_reducible apply Keep.setCore | with_reducible apply Keep.sticky | with_reducible apply Keep.fxOffer
    | with_reducible apply Keep.active | intro _ | split | dsimp only

theorem Keep.chainStep {fs : List Field} {s t u : State} (h : Keep fs s t) {k : Nat} (e : State.chainStep t k =
      some u)
    (hl : Sub [.regs, .cores, .ports, .out, .outst, .vecBusy, .power] fs :=
        by exact Sub.trans (by assumption) (by rfl)) : Keep fs s u := by
  unfold State.chainStep at e
  dsimp only at e
  repeat' split at e
  all_goals first
    | (cases e; exact Keep.setCore h _ _)
    | (cases e; exact Keep.chainEnd h _ _ _ _)
    | cases e

theorem Keep.chainRun {fs : List Field} {s : State}
    (hl : Sub [.regs, .cores, .ports, .out, .outst, .vecBusy, .power] fs :=
        by exact Sub.trans (by assumption) (by rfl)) :
    ∀ {t : State} (_ : Keep fs s t) (k n : Nat), Keep fs s (State.chainRun t k n)
  | _, h, _, 0 => h
  | t, h, k, n + 1 => by
    unfold State.chainRun
    split
    next u e => exact Keep.chainRun hl (Keep.chainStep h e) k n
    · exact h

theorem Keep.drain {fs : List Field} {s t : State} (h : Keep fs s t) (k ecc)
    (hl : Sub [.regs, .shad, .store, .full, .banks, .xbar, .parked, .stage, .cores, .islands, .queues, .ops,
      .ports, .out, .outst, .vecBusy, .securing, .power, .health, .replay, .injected, .free] fs :=
        by exact Sub.trans (by assumption) (by rfl)) :
    Keep fs s (State.drain t k ecc) := by
  unfold State.drain
  try dsimp only
  repeat' first
    | with_reducible exact h | with_reducible assumption | exact Sub.trans (by assumption) (by rfl)
    | with_reducible apply Keep.chainTake | with_reducible apply Keep.injectParity
    | with_reducible apply Keep.controlLost | with_reducible apply Keep.coreLost
    | with_reducible apply Keep.chainRun | intro _ | split | dsimp only

theorem Keep.issueWrite {fs : List Field} {s t : State} (h : Keep fs s t) (k o f x w d)
    (hl : Sub [.xbar, .cores, .ops, .ports, .out, .outst, .power] fs :=
        by exact Sub.trans (by assumption) (by rfl)) :
    Keep fs s (State.issueWrite t k o f x w d) := by
  unfold State.issueWrite
  try dsimp only
  repeat' first
    | with_reducible exact h | with_reducible assumption | exact Sub.trans (by assumption) (by rfl)
    | with_reducible apply Keep.setCore | with_reducible apply Keep.setWaiting
    | with_reducible apply Keep.request | with_reducible apply Keep.writeMem | with_reducible apply Keep.modOp
    | refine Keep.of_fst (by assumption) ?_ | refine Keep.of_snd (by assumption) ?_ | intro _ | split
    | dsimp only

theorem Keep.recastWrite {fs : List Field} {s t : State} (h : Keep fs s t) (k)
    (hl : Sub [.xbar, .cores, .ops, .ports, .out, .outst, .power] fs :=
        by exact Sub.trans (by assumption) (by rfl)) :
    Keep fs s (State.recastWrite t k) := by
  unfold State.recastWrite
  try dsimp only
  repeat' first
    | with_reducible exact h | with_reducible assumption | exact Sub.trans (by assumption) (by rfl)
    | with_reducible apply Keep.setCore | with_reducible apply Keep.issueWrite
    | with_reducible apply Keep.fetchHandle | with_reducible apply Keep.readMem
    | with_reducible apply Keep.foldl | with_reducible refine Keep.foldl' Prod.fst ?_ ?_ | intro _ | split
    | dsimp only

theorem Keep.commitSlug {fs : List Field} {s t : State} (h : Keep fs s t) (k)
    (hl : Sub [.cores, .ops] fs := by exact Sub.trans (by assumption) (by rfl)) :
    Keep fs s (State.commitSlug t k) := by
  unfold State.commitSlug
  try dsimp only
  repeat' first
    | with_reducible exact h | with_reducible assumption | exact Sub.trans (by assumption) (by rfl)
    | with_reducible apply Keep.setCore | with_reducible apply Keep.modOp | with_reducible apply Keep.settle
    | intro _ | split | dsimp only

theorem Keep.concordSend {fs : List Field} {s t : State} (h : Keep fs s t) (gi g m round d)
    (hl : Sub [.ports, .out, .outst, .power] fs := by exact Sub.trans (by assumption) (by rfl)) :
    Keep fs s (State.concordSend t gi g m round d) := by
  unfold State.concordSend
  try dsimp only
  repeat' first
    | with_reducible exact h | with_reducible assumption | exact Sub.trans (by assumption) (by rfl)
    | with_reducible apply Keep.request | intro _ | split | dsimp only

theorem Keep.concordStart {fs : List Field} {s t : State} (h : Keep fs s t) (gi)
    (hl : Sub [.ports, .out, .outst, .groups, .power] fs := by exact Sub.trans (by assumption) (by rfl)) :
    Keep fs s (State.concordStart t gi) := by
  unfold State.concordStart
  try dsimp only
  repeat' first
    | with_reducible exact h | with_reducible assumption | exact Sub.trans (by assumption) (by rfl)
    | with_reducible apply Keep.concordSend | with_reducible apply Keep.setGroup
    | with_reducible apply Keep.foldl | with_reducible refine Keep.foldl' Prod.fst ?_ ?_ | intro _ | split
    | dsimp only

theorem Keep.concordSecond {fs : List Field} {s t : State} (h : Keep fs s t) (gi)
    (hl : Sub [.ports, .out, .outst, .groups, .power] fs := by exact Sub.trans (by assumption) (by rfl)) :
    Keep fs s (State.concordSecond t gi) := by
  unfold State.concordSecond
  try dsimp only
  repeat' first
    | with_reducible exact h | with_reducible assumption | exact Sub.trans (by assumption) (by rfl)
    | with_reducible apply Keep.setGroup | with_reducible apply Keep.concordSend
    | with_reducible apply Keep.foldl | with_reducible refine Keep.foldl' Prod.fst ?_ ?_ | intro _ | split
    | dsimp only

theorem Keep.groupVerdict {fs : List Field} {s t : State} (h : Keep fs s t) (gi mask)
    (hl : Sub [.regs, .ops, .ports, .out, .outst, .vecBusy, .groups, .securing, .power] fs :=
        by exact Sub.trans (by assumption) (by rfl)) :
    Keep fs s (State.groupVerdict t gi mask) := by
  unfold State.groupVerdict
  try dsimp only
  repeat' first
    | with_reducible exact h | with_reducible assumption | exact Sub.trans (by assumption) (by rfl)
    | with_reducible apply Keep.setGroup | with_reducible apply Keep.raise | with_reducible apply Keep.finish
    | with_reducible apply Keep.failWith | intro _ | split | dsimp only

theorem Keep.concordRefused {fs : List Field} {s t : State} (h : Keep fs s t) (gi round)
    (hl : Sub [.regs, .ops, .ports, .out, .outst, .vecBusy, .groups, .securing, .power] fs :=
        by exact Sub.trans (by assumption) (by rfl)) :
    Keep fs s (State.concordRefused t gi round) := by
  unfold State.concordRefused
  try dsimp only
  repeat' first
    | with_reducible exact h | with_reducible assumption | exact Sub.trans (by assumption) (by rfl)
    | with_reducible apply Keep.groupVerdict | intro _ | split | dsimp only

theorem Keep.fenceGo {fs : List Field} {s t : State} (h : Keep fs s t) (id)
    (hl : Sub [.ops, .ports, .out, .outst, .groups, .power] fs := by exact Sub.trans (by assumption) (by rfl)) :
    Keep fs s (State.fenceGo t id) := by
  unfold State.fenceGo
  try dsimp only
  repeat' first
    | with_reducible exact h | with_reducible assumption | exact Sub.trans (by assumption) (by rfl)
    | with_reducible apply Keep.finish | with_reducible apply Keep.modOp
    | with_reducible apply Keep.concordStart | intro _ | split | dsimp only

theorem Keep.fencesGo {fs : List Field} {s t : State} (h : Keep fs s t)
    (hl : Sub [.ops, .ports, .out, .outst, .groups, .power] fs := by exact Sub.trans (by assumption) (by rfl)) :
    Keep fs s (State.fencesGo t) := by
  unfold State.fencesGo
  try dsimp only
  repeat' first
    | with_reducible exact h | with_reducible assumption | exact Sub.trans (by assumption) (by rfl)
    | with_reducible apply Keep.fenceGo | with_reducible apply Keep.foldl
    | with_reducible refine Keep.foldl' Prod.fst ?_ ?_ | intro _ | split | dsimp only

theorem Keep.fenceBegin {fs : List Field} {s t : State} (h : Keep fs s t) (id gi)
    (hl : Sub [.ops, .groups] fs := by exact Sub.trans (by assumption) (by rfl)) :
    Keep fs s (State.fenceBegin t id gi) := by
  unfold State.fenceBegin
  try dsimp only
  repeat' first
    | with_reducible exact h | with_reducible assumption | exact Sub.trans (by assumption) (by rfl)
    | with_reducible apply Keep.finish | with_reducible apply Keep.setGroup | intro _ | split | dsimp only

end Sys2Proof.Machine
end

