-- ==== Sys2Proof/Laws/KeepTasks.lean ====
section
/-!
SUPPORT. Acceptance, completion and securing: what each does to
the parts of the state that the invariants speak of (`Keep`).
-/

namespace Sys2Proof.Machine

set_option Elab.async false
set_option linter.unusedTactic false
set_option linter.unreachableTactic false
set_option linter.unusedVariables false

theorem Keep.writeJcbPart {fs : List Field} {s t : State} (h : Keep fs s t) (q)
    (hl : Sub [.ports, .out, .outst, .power] fs := by exact Sub.trans (by assumption) (by rfl)) :
    Keep fs s (State.writeJcbPart t q) := by
  unfold State.writeJcbPart
  try dsimp only
  repeat' first
    | with_reducible exact h | with_reducible assumption | exact Sub.trans (by assumption) (by rfl)
    | with_reducible apply Keep.writeMem | intro _ | split | dsimp only

theorem Keep.writeJcbHeader {fs : List Field} {s t : State} (h : Keep fs s t)
    (hl : Sub [.ports, .out, .outst, .power] fs := by exact Sub.trans (by assumption) (by rfl)) :
    Keep fs s (State.writeJcbHeader t) := by
  unfold State.writeJcbHeader
  try dsimp only
  repeat' first
    | with_reducible exact h | with_reducible assumption | exact Sub.trans (by assumption) (by rfl)
    | with_reducible apply Keep.writeMem | with_reducible apply Keep.flush | intro _ | split | dsimp only

theorem Keep.moveFloor {fs : List Field} {s t : State} (h : Keep fs s t)
    (hl : Sub [.regs, .ports, .out, .outst, .power, .journal] fs :=
        by exact Sub.trans (by assumption) (by rfl)) :
    Keep fs s (State.moveFloor t) := by
  unfold State.moveFloor
  try dsimp only
  repeat' first
    | with_reducible exact h | with_reducible assumption | exact Sub.trans (by assumption) (by rfl)
    | with_reducible apply Keep.setReg | with_reducible apply Keep.writeJcbHeader | intro _ | split | dsimp only
    | with_reducible apply Keep.upd
    | exact ⟨fun f hf => by cases f <;> first | with_reducible exact rfl |
        exact absurd (Sub.mem (by assumption) _ (by decide)) hf⟩

theorem Keep.journalWrite {fs : List Field} {s t : State} (h : Keep fs s t) (o i)
    (hl : Sub [.regs, .shad, .store, .full, .banks, .xbar, .parked, .stage, .cores, .islands, .queues, .ops,
      .ports, .out, .outst, .vecBusy, .power, .health, .journal, .injected, .free] fs :=
        by exact Sub.trans (by assumption) (by rfl)) :
    Keep fs s (State.journalWrite t o i) := by
  unfold State.journalWrite
  try dsimp only
  repeat' first
    | with_reducible exact h | with_reducible assumption | exact Sub.trans (by assumption) (by rfl)
    | with_reducible apply Keep.readControl | with_reducible apply Keep.writeMem
    | with_reducible apply Keep.flush | with_reducible apply Keep.setReg | with_reducible apply Keep.setQueue
    | with_reducible apply Keep.raise | intro _ | split | dsimp only | with_reducible apply Keep.upd
    | exact ⟨fun f hf => by cases f <;> first | with_reducible exact rfl |
        exact absurd (Sub.mem (by assumption) _ (by decide)) hf⟩

theorem Keep.journalDone {fs : List Field} {s t : State} (h : Keep fs s t) (o i cplAt)
    (hl : Sub [.regs, .shad, .store, .full, .banks, .xbar, .parked, .stage, .cores, .islands, .queues, .ops,
      .ports, .out, .outst, .vecBusy, .power, .health, .injected, .free] fs :=
        by exact Sub.trans (by assumption) (by rfl)) :
    Keep fs s (State.journalDone t o i cplAt) := by
  unfold State.journalDone
  try dsimp only
  repeat' first
    | with_reducible exact h | with_reducible assumption | exact Sub.trans (by assumption) (by rfl)
    | with_reducible apply Keep.readControl | with_reducible apply Keep.writeMem
    | with_reducible apply Keep.flush | intro _ | split | dsimp only

theorem Keep.journalEnd {fs : List Field} {s t : State} (h : Keep fs s t) (i)
    (hl : Sub [.regs, .ports, .out, .outst, .power, .journal] fs :=
        by exact Sub.trans (by assumption) (by rfl)) :
    Keep fs s (State.journalEnd t i) := by
  unfold State.journalEnd
  try dsimp only
  repeat' first
    | with_reducible exact h | with_reducible assumption | exact Sub.trans (by assumption) (by rfl)
    | with_reducible apply Keep.moveFloor | intro _ | split | dsimp only | with_reducible apply Keep.upd
    | exact ⟨fun f hf => by cases f <;> first | with_reducible exact rfl |
        exact absurd (Sub.mem (by assumption) _ (by decide)) hf⟩

theorem Keep.claim {fs : List Field} {s t : State} (h : Keep fs s t) (c h' q job ctx dark inherit)
    (hl : Sub [.regs, .store, .full, .owners, .endedOwners] fs := by exact Sub.trans (by assumption) (by rfl)) :
    Keep fs s (State.claim t c h' q job ctx dark inherit) := by
  unfold State.claim
  try dsimp only
  repeat' first
    | with_reducible exact h | with_reducible assumption | exact Sub.trans (by assumption) (by rfl)
    | with_reducible apply Keep.setOwner | with_reducible apply Keep.scrub | intro _ | split | dsimp only
    | with_reducible apply Keep.upd
    | exact ⟨fun f hf => by cases f <;> first | with_reducible exact rfl |
        exact absurd (Sub.mem (by assumption) _ (by decide)) hf⟩

theorem Keep.claimAll {fs : List Field} {s t : State} (h : Keep fs s t) (keys q job ctx dark inherit)
    (hl : Sub [.regs, .store, .full, .owners, .endedOwners] fs := by exact Sub.trans (by assumption) (by rfl)) :
    Keep fs s (State.claimAll t keys q job ctx dark inherit) := by
  unfold State.claimAll
  try dsimp only
  repeat' first
    | with_reducible exact h | with_reducible assumption | exact Sub.trans (by assumption) (by rfl)
    | with_reducible apply Keep.claim | with_reducible apply Keep.foldl
    | with_reducible refine Keep.foldl' Prod.fst ?_ ?_ | intro _ | split | dsimp only

theorem Keep.endTask {fs : List Field} {s t : State} (h : Keep fs s t) (q job dark)
    (hl : Sub [.regs, .shad, .store, .full, .banks, .owners, .endedOwners, .stage, .cores, .islands, .queues,
      .ports, .out, .outst, .vecBusy, .power] fs :=
        by exact Sub.trans (by assumption) (by rfl)) :
    Keep fs s (State.endTask t q job dark) := by
  unfold State.endTask
  try dsimp only
  repeat' first
    | with_reducible exact h | with_reducible assumption | exact Sub.trans (by assumption) (by rfl)
    | with_reducible apply Keep.releaseHandle | with_reducible apply Keep.setQueue
    | with_reducible apply Keep.foldl | with_reducible refine Keep.foldl' Prod.fst ?_ ?_ | intro _ | split
    | dsimp only | with_reducible apply Keep.upd
    | exact ⟨fun f hf => by cases f <;> first | with_reducible exact rfl |
        exact absurd (Sub.mem (by assumption) _ (by decide)) hf⟩

theorem Keep.endTasks {fs : List Field} {s t : State} (h : Keep fs s t) (q)
    (hl : Sub [.regs, .shad, .store, .full, .banks, .owners, .endedOwners, .stage, .cores, .islands, .queues,
      .ports, .out, .outst, .vecBusy, .power] fs :=
        by exact Sub.trans (by assumption) (by rfl)) :
    Keep fs s (State.endTasks t q) := by
  unfold State.endTasks
  try dsimp only
  repeat' first
    | with_reducible exact h | with_reducible assumption | exact Sub.trans (by assumption) (by rfl)
    | with_reducible apply Keep.endTask | with_reducible apply Keep.foldl
    | with_reducible refine Keep.foldl' Prod.fst ?_ ?_ | intro _ | split | dsimp only

theorem Keep.taskAccepted {fs : List Field} {s t : State} (h : Keep fs s t) (q job ctx dark)
    (hl : Sub [.regs, .shad, .store, .full, .banks, .owners, .endedOwners, .stage, .cores, .islands, .queues,
      .ports, .out, .outst, .vecBusy, .power] fs :=
        by exact Sub.trans (by assumption) (by rfl)) :
    Keep fs s (State.taskAccepted t q job ctx dark) := by
  unfold State.taskAccepted
  try dsimp only
  repeat' first
    | with_reducible exact h | with_reducible assumption | exact Sub.trans (by assumption) (by rfl)
    | with_reducible apply Keep.setQueue | with_reducible apply Keep.endTasks | intro _ | split | dsimp only

theorem Keep.endAllTasks {fs : List Field} {s t : State} (h : Keep fs s t) (q)
    (hl : Sub [.regs, .shad, .store, .full, .banks, .owners, .endedOwners, .stage, .cores, .islands, .queues,
      .ports, .out, .outst, .vecBusy, .power] fs :=
        by exact Sub.trans (by assumption) (by rfl)) :
    Keep fs s (State.endAllTasks t q) := by
  unfold State.endAllTasks
  try dsimp only
  repeat' first
    | with_reducible exact h | with_reducible assumption | exact Sub.trans (by assumption) (by rfl)
    | with_reducible apply Keep.endTask | with_reducible apply Keep.foldl
    | with_reducible refine Keep.foldl' Prod.fst ?_ ?_ | intro _ | split | dsimp only

theorem Keep.takeTicket {fs : List Field} {s t : State} (h : Keep fs s t) (job)
    (hl : Sub [.regs, .ports, .out, .outst, .vecBusy, .power] fs :=
        by exact Sub.trans (by assumption) (by rfl)) :
    Keep fs s (State.takeTicket t job) := by
  unfold State.takeTicket
  try dsimp only
  repeat' first
    | with_reducible exact h | with_reducible assumption | exact Sub.trans (by assumption) (by rfl)
    | with_reducible apply Keep.setRegN | with_reducible apply Keep.incReg | with_reducible apply Keep.raise
    | intro _ | split | dsimp only | with_reducible apply Keep.upd
    | exact ⟨fun f hf => by cases f <;> first | with_reducible exact rfl |
        exact absurd (Sub.mem (by assumption) _ (by decide)) hf⟩

theorem Keep.setSec {fs : List Field} {s t : State} (h : Keep fs s t) (x : Sec)
    (hl : Sub [.sec] fs := by exact Sub.trans (by assumption) (by rfl)) : Keep fs s { t with sec := x } := by
  refine Keep.upd ?_ h
  exact ⟨fun f hf => by cases f <;> first | with_reducible exact rfl |
    exact absurd (Sub.mem (by assumption) _ (by decide)) hf⟩

theorem Keep.seedDrbg {fs : List Field} {s t : State} (h : Keep fs s t) (d)
    (hl : Sub [.sec] fs := by exact Sub.trans (by assumption) (by rfl)) : Keep fs s (State.seedDrbg t d) :=
  Keep.setSec h _

theorem Keep.instantiate {fs : List Field} {s t : State} (h : Keep fs s t)
    (hl : Sub [.sec] fs := by exact Sub.trans (by assumption) (by rfl)) : Keep fs s (State.instantiate t) :=
  Keep.setSec (Keep.seedDrbg h _) _

theorem Keep.draw {fs : List Field} {s t : State} (h : Keep fs s t) (n)
    (hl : Sub [.regs, .sec] fs := by exact Sub.trans (by assumption) (by rfl)) :
    Keep fs s (State.draw t n).2 := by
  unfold State.draw
  dsimp only
  split
  · exact Keep.incReg (Keep.seedDrbg (Keep.setSec h _) _) _ _
  · exact Keep.setSec h _

theorem Keep.imageWrite {fs : List Field} {s t : State} (h : Keep fs s t) (id port stream addr d)
    (hl : Sub [.ops, .ports, .out, .outst, .power] fs := by exact Sub.trans (by assumption) (by rfl)) :
    Keep fs s (State.imageWrite t id port stream addr d) := by
  unfold State.imageWrite
  try dsimp only
  repeat' first
    | with_reducible exact h | with_reducible assumption | exact Sub.trans (by assumption) (by rfl)
    | with_reducible apply Keep.writeMem | with_reducible apply Keep.modOp | intro _ | split | dsimp only

theorem Keep.secureBegin {fs : List Field} {s t : State} (h : Keep fs s t) (o clusters hs dpos)
    (hl : Sub [.regs, .moved, .sec, .securing] fs := by exact Sub.trans (by assumption) (by rfl)) :
    Keep fs s (State.secureBegin t o clusters hs dpos) := by
  unfold State.secureBegin
  try dsimp only
  repeat' first
    | with_reducible exact h | with_reducible assumption | exact Sub.trans (by assumption) (by rfl)
    | with_reducible apply Keep.draw | with_reducible apply Keep.setReg | with_reducible apply Keep.setRegN
    | refine Keep.of_fst (by assumption) ?_ | refine Keep.of_snd (by assumption) ?_
    | with_reducible apply Keep.foldl | with_reducible refine Keep.foldl' Prod.fst ?_ ?_ | intro _ | split
    | dsimp only | with_reducible apply Keep.upd
    | exact ⟨fun f hf => by cases f <;> first | with_reducible exact rfl |
        exact absurd (Sub.mem (by assumption) _ (by decide)) hf⟩

theorem Keep.secureRestart {fs : List Field} {s t : State} (h : Keep fs s t)
    (hl : Sub [.regs, .securing] fs := by exact Sub.trans (by assumption) (by rfl)) :
    Keep fs s (State.secureRestart t) := by
  unfold State.secureRestart
  try dsimp only
  repeat' first
    | with_reducible exact h | with_reducible assumption | exact Sub.trans (by assumption) (by rfl)
    | with_reducible apply Keep.setRegF | intro _ | split | dsimp only | with_reducible apply Keep.upd
    | exact ⟨fun f hf => by cases f <;> first | with_reducible exact rfl |
        exact absurd (Sub.mem (by assumption) _ (by decide)) hf⟩

theorem Keep.sectionEnd {fs : List Field} {s t : State} (h : Keep fs s t) (o x n c plain)
    (hl : Sub [.ops, .ports, .out, .outst, .power] fs := by exact Sub.trans (by assumption) (by rfl)) :
    Keep fs s (State.sectionEnd t o x n c plain).1 := by
  unfold State.sectionEnd
  try dsimp only
  repeat' first
    | with_reducible exact h | with_reducible assumption | exact Sub.trans (by assumption) (by rfl)
    | with_reducible apply Keep.imageWrite | refine Keep.of_fst (by assumption) ?_
    | refine Keep.of_snd (by assumption) ?_ | intro _ | split | dsimp only

theorem Keep.setSecuring {fs : List Field} {s t : State} (h : Keep fs s t) (f)
    (hl : Sub [.securing] fs := by exact Sub.trans (by assumption) (by rfl)) :
    Keep fs s (State.setSecuring t f) := by
  unfold State.setSecuring
  try dsimp only
  repeat' first
    | with_reducible exact h | with_reducible assumption | exact Sub.trans (by assumption) (by rfl)
    | intro _ | split | dsimp only | with_reducible apply Keep.upd
    | exact ⟨fun f hf => by cases f <;> first | with_reducible exact rfl |
        exact absurd (Sub.mem (by assumption) _ (by decide)) hf⟩

theorem Keep.secureSeal {fs : List Field} {s t : State} (h : Keep fs s t) (o)
    (hl : Sub [.ops, .ports, .out, .outst, .securing, .power] fs :=
        by exact Sub.trans (by assumption) (by rfl)) :
    Keep fs s (State.secureSeal t o) := by
  unfold State.secureSeal
  try dsimp only
  repeat' first
    | with_reducible exact h | with_reducible assumption | exact Sub.trans (by assumption) (by rfl)
    | with_reducible apply Keep.imageWrite | with_reducible apply Keep.setSecuring
    | with_reducible apply Keep.flush | with_reducible apply Keep.foldl
    | with_reducible refine Keep.foldl' Prod.fst ?_ ?_ | intro _ | split | dsimp only

theorem Keep.snapshot {fs : List Field} {s t : State} (h : Keep fs s t) (id)
    (hl : Sub [.regs, .ops, .ports, .out, .outst, .securing, .power] fs :=
        by exact Sub.trans (by assumption) (by rfl)) :
    Keep fs s (State.snapshot t id) := by
  unfold State.snapshot
  try dsimp only
  repeat' first
    | with_reducible exact h | with_reducible assumption | exact Sub.trans (by assumption) (by rfl)
    | with_reducible apply Keep.setSecuring | with_reducible apply Keep.setRegF
    | with_reducible apply Keep.imageWrite | with_reducible apply Keep.sectionEnd
    | with_reducible apply Keep.secureSeal | refine Keep.of_fst (by assumption) ?_
    | refine Keep.of_snd (by assumption) ?_ | with_reducible apply Keep.foldl
    | with_reducible refine Keep.foldl' Prod.fst ?_ ?_ | intro _ | split | dsimp only

theorem Keep.drainSlot {fs : List Field} {s t : State} (h : Keep fs s t) (id c)
    (hl : Sub [.regs, .store, .moved, .ops, .ports, .out, .outst, .securing, .power] fs :=
        by exact Sub.trans (by assumption) (by rfl)) :
    Keep fs s (State.drainSlot t id c) := by
  unfold State.drainSlot
  try dsimp only
  repeat' first
    | with_reducible exact h | with_reducible assumption | exact Sub.trans (by assumption) (by rfl)
    | with_reducible apply Keep.imageWrite | with_reducible apply Keep.moveSlot
    | with_reducible apply Keep.active | with_reducible apply Keep.setRegN
    | with_reducible apply Keep.sectionEnd | with_reducible apply Keep.setSecuring
    | with_reducible apply Keep.secureSeal | refine Keep.of_fst (by assumption) ?_
    | refine Keep.of_snd (by assumption) ?_ | intro _ | split | dsimp only

theorem Keep.setCur {fs : List Field} {s t : State} (h : Keep fs s t) (c h' side)
    (hl : Sub [.regs, .shad] fs := by exact Sub.trans (by assumption) (by rfl)) :
    Keep fs s (State.setCur t c h' side) := by
  unfold State.setCur
  try dsimp only
  repeat' first
    | with_reducible exact h | with_reducible assumption | exact Sub.trans (by assumption) (by rfl)
    | with_reducible apply Keep.setRegF | with_reducible apply Keep.bumpGen | intro _ | split | dsimp only
    | with_reducible apply Keep.upd
    | exact ⟨fun f hf => by cases f <;> first | with_reducible exact rfl |
        exact absurd (Sub.mem (by assumption) _ (by decide)) hf⟩

theorem Keep.putDigest {fs : List Field} {s t : State} (h : Keep fs s t) (key d)
    (hl : Sub [.regs] fs := by exact Sub.trans (by assumption) (by rfl)) :
    Keep fs s (State.putDigest t key d) := by
  unfold State.putDigest
  try dsimp only
  repeat' first
    | with_reducible exact h | with_reducible assumption | exact Sub.trans (by assumption) (by rfl)
    | with_reducible apply Keep.putWords | intro _ | split | dsimp only

theorem Keep.secureDone {fs : List Field} {s t : State} (h : Keep fs s t) (id)
    (hl : Sub [.regs, .shad, .moved, .ops, .ports, .out, .outst, .vecBusy, .securing, .power, .journal,
      .images] fs :=
        by exact Sub.trans (by assumption) (by rfl)) :
    Keep fs s (State.secureDone t id) := by
  unfold State.secureDone
  try dsimp only
  repeat' first
    | with_reducible exact h | with_reducible assumption | exact Sub.trans (by assumption) (by rfl)
    | with_reducible apply Keep.imageWrite | with_reducible apply Keep.setCur | with_reducible apply Keep.setReg
    | with_reducible apply Keep.writeJcbPart | with_reducible apply Keep.moveFloor
    | with_reducible apply Keep.putDigest | with_reducible apply Keep.setRegN | with_reducible apply Keep.raise
    | with_reducible apply Keep.modOp | with_reducible apply Keep.finish | with_reducible apply Keep.foldl
    | with_reducible refine Keep.foldl' Prod.fst ?_ ?_ | intro _ | split | dsimp only
    | with_reducible apply Keep.upd
    | exact ⟨fun f hf => by cases f <;> first | with_reducible exact rfl |
        exact absurd (Sub.mem (by assumption) _ (by decide)) hf⟩

theorem Keep.viewReads {fs : List Field} {s t : State} (h : Keep fs s t) (v port stream addr n seq)
    (hl : Sub [.regs, .ports, .out, .outst, .vecBusy, .power, .health, .free] fs :=
        by exact Sub.trans (by assumption) (by rfl)) :
    Keep fs s (State.viewReads t v port stream addr n seq) := by
  unfold State.viewReads
  try dsimp only
  repeat' first
    | with_reducible exact h | with_reducible assumption | exact Sub.trans (by assumption) (by rfl)
    | with_reducible apply Keep.send | with_reducible apply Keep.uncorrected | with_reducible apply Keep.foldl
    | with_reducible refine Keep.foldl' Prod.fst ?_ ?_ | intro _ | split | dsimp only

theorem Keep.Restore_read {fs : List Field} {s : State} {r : Restore} (h : Keep fs s r.st) (v port stream addr n)
    (hl : Sub [.regs, .ports, .out, .outst, .vecBusy, .power, .health, .free] fs :=
        by exact Sub.trans (by assumption) (by rfl)) :
    Keep fs s (Restore.read r v port stream addr n).1.st := by
  unfold Restore.read
  split
  · exact h
  · dsimp only
    split <;> exact Keep.viewReads h _ _ _ _ _ _

theorem Keep.restoreFail {fs : List Field} {s t : State} (h : Keep fs s t) (cause d0 d1)
    (hl : Sub [.regs, .ports, .out, .outst, .vecBusy, .power] fs :=
        by exact Sub.trans (by assumption) (by rfl)) :
    Keep fs s (State.restoreFail t cause d0 d1) := by
  unfold State.restoreFail
  try dsimp only
  repeat' first
    | with_reducible exact h | with_reducible assumption | exact Sub.trans (by assumption) (by rfl)
    | with_reducible apply Keep.capture | with_reducible apply Keep.raise | intro _ | split | dsimp only

theorem Keep.Restore_section {fs : List Field} {s : State} {r : Restore} (h : Keep fs s r.st) (v hd base n off
      len dig x)
    (hl : Sub [.regs, .store, .ports, .out, .outst, .vecBusy, .power, .health, .free] fs :=
        by exact Sub.trans (by assumption) (by rfl)) :
    Keep fs s (Restore.section r v hd base n off len dig x).1.st := by
  unfold Restore.section
  extract_lets
  split
  split
  next r1 d1 e1 =>
  have h1 : Keep fs s r1.st := Keep.of_read e1 (Keep.Restore_read h _ _ _ _ _)
  split
  next r2 d2 e2 =>
  have h2 : Keep fs s r2.st := by
    split at e2
    · exact Keep.of_read e2 (Keep.Restore_read h1 _ _ _ _ _)
    · exact (Prod.mk.inj e2).1 ▸ h1
  split
  · exact h2
  extract_lets
  have hb : ∀ a b c, Keep fs s ((r2.st.restoreFail a b c).setRegN 0x58134 n) := fun a b c =>
    Keep.setRegN (Keep.restoreFail h2 a b c) _ _
  split
  · exact hb _ _ _
  split
  · exact hb _ _ _
  split
  · exact h2
  · exact Keep.foldl h2 fun u i hu => Keep.writeStore hu _ _ _ _ _

theorem Keep.restoreRefused {fs : List Field} {s t : State} (h : Keep fs s t) (cause d0 d1)
    (hl : Sub [.regs, .ports, .out, .outst, .vecBusy, .power] fs :=
        by exact Sub.trans (by assumption) (by rfl)) :
    Keep fs s (State.restoreRefused t cause d0 d1).1 :=
  Keep.raise (Keep.noteRefusal (Keep.capture h pgSecure cause [w32 d0, w32 d1]) pgSecure) pgSecure 8

theorem Keep.restoreGroup {fs : List Field} {s t : State} (h : Keep fs s t) (g b)
    (hl : Sub [.regs, .ports, .out, .outst, .vecBusy, .groups, .power] fs :=
        by exact Sub.trans (by assumption) (by rfl)) :
    Keep fs s (State.restoreGroup t g b) := by
  unfold State.restoreGroup
  try dsimp only
  repeat' first
    | with_reducible exact h | with_reducible assumption | exact Sub.trans (by assumption) (by rfl)
    | with_reducible apply Keep.setGroup | with_reducible apply Keep.raise | intro _ | split | dsimp only

theorem Keep.loadSections {fs : List Field} {s t : State} (h : Keep fs s t) (v hd base secs table seq offs)
    (hl : Sub [.regs, .store, .ports, .out, .outst, .vecBusy, .power, .health, .free] fs :=
        by exact Sub.trans (by assumption) (by rfl)) :
    Keep fs s (State.loadSections t v hd base secs table seq offs).1.st := by
  refine Keep.foldl' (β := Restore × List Byte × List Nat) (fun a => a.1.st) h fun acc n ha => ?_
  dsimp only
  split
  · exact ha
  · exact Keep.Restore_section ha _ _ _ _ _ _ _ _

theorem Keep.restoreLoad {fs : List Field} {s t : State} (h : Keep fs s t) (v hd base secs table seq offs)
    (hl : Sub [.regs, .store, .full, .ports, .out, .outst, .vecBusy, .groups, .power, .health, .free] fs :=
        by exact Sub.trans (by assumption) (by rfl)) :
    Keep fs s (State.restoreLoad t v hd base secs table seq offs).1 := by
  have h1 := Keep.loadSections h v hd base secs table seq offs
  have hu : ∀ (l : List Nat) u, Keep fs s u → Keep fs s (l.foldl (fun u k => u.scrub (k / 64) (k % 64)) u) :=
    fun l u hu => Keep.foldl hu fun w k hw => Keep.scrub hw _ _
  have h2 := fun d n => Keep.setRegN (Keep.putDigest h1 0x58100 d) 0x58130 n
  unfold State.restoreLoad
  dsimp only
  split
  · dsimp only
    exact Keep.raise (hu _ _ h1) _ _
  split
  · exact Keep.restoreFail (hu _ _ (h2 _ _)) _ _ _
  · dsimp only
    exact Keep.raise (Keep.setReg (Keep.foldl (h2 _ _) fun u g hu => Keep.restoreGroup hu _ _) _ _) _ _

theorem Keep.restorePlan {fs : List Field} {s t : State} (h : Keep fs s t) (id clusters base v hd table seq take)
    (htake : ∀ u k, Keep fs s u → Keep fs s (take u k))
    (hl : Sub [.regs, .store, .full, .ports, .out, .outst, .vecBusy, .groups, .power, .health, .free] fs :=
        by exact Sub.trans (by assumption) (by rfl)) :
    Keep fs s (State.restorePlan t id clusters base v hd table seq take).1 := by
  unfold State.restorePlan
  dsimp only
  split
  · exact Keep.restoreRefused h _ _ _
  · exact Keep.restoreRefused h _ _ _
  split
  · exact Keep.restoreRefused h _ _ _
  · exact Keep.restoreLoad (htake _ _ h) _ _ _ _ _ _ _

theorem Keep.restoreResync {fs : List Field} {s t : State} (h : Keep fs s t) (h')
    (hl : Sub [.regs, .ports, .out, .outst, .vecBusy, .power] fs :=
        by exact Sub.trans (by assumption) (by rfl)) :
    Keep fs s (State.restoreResync t h') := by
  unfold State.restoreResync
  try dsimp only
  repeat' first
    | with_reducible exact h | with_reducible assumption | exact Sub.trans (by assumption) (by rfl)
    | with_reducible apply Keep.capture | with_reducible apply Keep.incReg | with_reducible apply Keep.raise
    | intro _ | split | dsimp only

theorem Keep.restore {fs : List Field} {s t : State} (h : Keep fs s t) (id clusters base dig v take)
    (htake : ∀ u k, Keep fs s u → Keep fs s (take u k))
    (hl : Sub [.regs, .store, .full, .ports, .out, .outst, .vecBusy, .groups, .power, .health, .free] fs :=
        by exact Sub.trans (by assumption) (by rfl)) : Keep fs s (State.restore t id clusters base dig v take).1
      := by
  have h1 : Keep fs s (t.setRegN 0x58134 0xFFFFFFFF) := Keep.setRegN h _ _
  have h3 := fun seq => Keep.Restore_read (Keep.Restore_read (r := ⟨_, seq, none⟩) h1 v 15 15 base 256) v 15 15
      dig 64
  have h4 := fun seq hd => Keep.restoreResync (h3 seq) hd
  have h5 := fun seq hd n => Keep.Restore_read (r := ⟨_, seq, none⟩) (h4 seq hd) v 15 15 dig n
  unfold State.restore
  dsimp only
  split
  · dsimp only
    exact Keep.raise (h3 _) _ _
  split
  · exact Keep.restoreFail (h3 _) _ _ _
  split
  · dsimp only
    exact Keep.raise (h4 _ _) _ _
  split
  · dsimp only
    exact Keep.raise (h5 _ _ _) _ _
  · exact Keep.restorePlan (h5 _ _ _) _ _ _ _ _ _ _ _ htake

theorem Keep.Fetch_area {fs : List Field} {s : State} {f : Fetch} (h : Keep fs s f.st) (x v addr n)
    (hl : Sub [.regs, .ports, .out, .outst, .vecBusy, .power, .health, .free] fs :=
        by exact Sub.trans (by assumption) (by rfl)) :
    Keep fs s (Fetch.area f x v addr n).1.st := by
  unfold Fetch.area
  split
  · exact h
  · dsimp only
    split <;> exact Keep.viewReads h _ _ _ _ _ _

theorem Keep.Fetch_record {fs : List Field} {s : State} {f : Fetch} (h : Keep fs s f.st) (x v ref)
    (hl : Sub [.regs, .ports, .out, .outst, .vecBusy, .power, .health, .free] fs :=
        by exact Sub.trans (by assumption) (by rfl)) :
    Keep fs s (Fetch.record f x v ref).st := by
  unfold Fetch.record
  split
  · exact h
  · exact Keep.Fetch_area h x v ref 32

theorem Keep.Fetch_list {fs : List Field} {s : State} {f : Fetch} (h : Keep fs s f.st) (x v)
    (hl : Sub [.regs, .ports, .out, .outst, .vecBusy, .power, .health, .free] fs :=
        by exact Sub.trans (by assumption) (by rfl)) : Keep fs s (Fetch.list f x v).1.st := by
  unfold Fetch.list
  extract_lets
  split
  · exact Keep.Fetch_area h _ _ _ _
  · exact h

theorem Keep.fetchAll {fs : List Field} {s t : State} (h : Keep fs s t) (x v)
    (hl : Sub [.regs, .ports, .out, .outst, .vecBusy, .power, .health, .free] fs :=
        by exact Sub.trans (by assumption) (by rfl)) : Keep fs s (Machine.fetchAll t x v).1.st :=
  Keep.foldl' Fetch.st (Keep.Fetch_list (f := { st := t, recs := [], lost := false, refused := false }) h x v)
      fun _ _ hu =>
    Keep.Fetch_record (Keep.Fetch_record (Keep.Fetch_record hu _ _ _) _ _ _) _ _ _

theorem Keep.recordFailure {fs : List Field} {s t : State} (h : Keep fs s t) (x f)
    (hl : Sub [.regs, .ports, .out, .outst, .vecBusy, .power] fs :=
        by exact Sub.trans (by assumption) (by rfl)) :
    Keep fs s (State.recordFailure t x f).1 := by
  unfold State.recordFailure
  try dsimp only
  repeat' first
    | with_reducible exact h | with_reducible assumption | exact Sub.trans (by assumption) (by rfl)
    | with_reducible apply Keep.capture | with_reducible apply Keep.noteRefusal | intro _ | split | dsimp only

theorem Keep.launch {fs : List Field} {s t : State} (h : Keep fs s t) (id)
    (hl : Sub [.cores] fs := by exact Sub.trans (by assumption) (by rfl)) :
    Keep fs s (State.launch t id) := by
  unfold State.launch
  try dsimp only
  repeat' first
    | with_reducible exact h | with_reducible assumption | exact Sub.trans (by assumption) (by rfl)
    | with_reducible apply Keep.mapCores | with_reducible apply Keep.setCore
    | refine Keep.of_fst (by assumption) ?_ | refine Keep.of_snd (by assumption) ?_
    | with_reducible apply Keep.foldl | with_reducible refine Keep.foldl' Prod.fst ?_ ?_ | intro _ | split
    | dsimp only

theorem Keep.scrubRun {fs : List Field} {s t : State} (h : Keep fs s t) (o)
    (hl : Sub [.regs, .shad, .store, .full, .banks, .stage, .cores, .islands, .ports, .out, .outst, .vecBusy,
      .power] fs :=
        by exact Sub.trans (by assumption) (by rfl)) :
    Keep fs s (State.scrubRun t o) := by
  unfold State.scrubRun
  try dsimp only
  repeat' first
    | with_reducible exact h | with_reducible assumption | exact Sub.trans (by assumption) (by rfl)
    | with_reducible apply Keep.scrub | with_reducible apply Keep.darken | with_reducible apply Keep.retarget
    | with_reducible apply Keep.foldl | with_reducible refine Keep.foldl' Prod.fst ?_ ?_ | intro _ | split
    | dsimp only

theorem Keep.startRun {fs : List Field} {s t : State} (h : Keep fs s t) (id)
    (hl : Sub [.xbar, .ops, .ports, .out, .outst, .groups, .power] fs :=
        by exact Sub.trans (by assumption) (by rfl)) :
    Keep fs s (State.startRun t id) := by
  unfold State.startRun
  try dsimp only
  repeat' first
    | with_reducible exact h | with_reducible assumption | exact Sub.trans (by assumption) (by rfl)
    | with_reducible apply Keep.modOp | with_reducible apply Keep.settle | with_reducible apply Keep.windowNext
    | with_reducible apply Keep.flush | with_reducible apply Keep.fenceGo | with_reducible apply Keep.foldl
    | with_reducible refine Keep.foldl' Prod.fst ?_ ?_ | intro _ | split | dsimp only

theorem Keep.restoreWork {fs : List Field} {s t : State} (h : Keep fs s t) (o v)
    (hl : Sub [.regs, .store, .full, .owners, .endedOwners, .ops, .ports, .out, .outst, .vecBusy, .groups,
      .power, .health, .free] fs :=
        by exact Sub.trans (by assumption) (by rfl)) :
    Keep fs s (State.restoreWork t o v).1 := by
  unfold State.restoreWork
  try dsimp only
  repeat' first
    | with_reducible exact h | with_reducible assumption | exact Sub.trans (by assumption) (by rfl)
    | with_reducible apply Keep.modOp | with_reducible apply Keep.restore | with_reducible apply Keep.claimAll
    | intro _ | split | dsimp only

theorem Keep.firstWork {fs : List Field} {s t : State} (h : Keep fs s t) (o dpos v)
    (hl : Sub [.regs, .shad, .store, .full, .moved, .banks, .closing, .owners, .endedOwners, .stage, .cores,
      .islands, .ops, .ports, .out, .outst, .vecBusy, .groups, .sec, .securing, .power, .health, .free] fs :=
        by exact Sub.trans (by assumption) (by rfl)) : Keep fs s (State.firstWork t o dpos v) := by
  unfold State.firstWork
  split
  · split
    · exact Keep.finish h _ _
    · exact Keep.launch h _
  · split
    · exact Keep.finish h _ _
    · exact h
  · split
    · exact Keep.beginClose h _ _
    · exact h
  · refine Keep.fenceGo ?_ _
    split
    · exact Keep.fenceBegin h _ _
    · exact h
  · exact Keep.secureBegin h _ _ _ _
  · exact Keep.finish (Keep.modOp h _ _) _ _
  · exact Keep.finish (Keep.restore (Keep.modOp h _ _) _ _ _ _ _ _ fun u k hu =>
      Keep.modOp (Keep.claimAll hu _ _ _ _ _ _) _ _) _ _
  · exact Keep.scrubRun h _
  · exact Keep.finish h _ _
  · exact h

theorem Keep.readChain {fs : List Field} {s t : State} (h : Keep fs s t) (d)
    (hl : Sub [.regs, .shad, .store, .full, .banks, .xbar, .parked, .stage, .cores, .islands, .queues, .ops,
      .ports, .out, .outst, .vecBusy, .power, .health, .injected, .free] fs :=
        by exact Sub.trans (by assumption) (by rfl)) :
    Keep fs s (State.readChain t d).1 := by
  unfold State.readChain
  try dsimp only
  repeat' first
    | with_reducible exact h | with_reducible assumption | exact Sub.trans (by assumption) (by rfl)
    | with_reducible apply Keep.readControl | intro _ | split | dsimp only

theorem Keep.readEntries {fs : List Field} {s t : State} (h : Keep fs s t) (keys)
    (hl : Sub [.regs, .shad, .store, .full, .banks, .xbar, .parked, .stage, .cores, .islands, .queues, .ops,
      .ports, .out, .outst, .vecBusy, .power, .health, .injected, .free] fs :=
        by exact Sub.trans (by assumption) (by rfl)) :
    Keep fs s (State.readEntries t keys).1 := by
  unfold State.readEntries
  try dsimp only
  repeat' first
    | with_reducible exact h | with_reducible assumption | exact Sub.trans (by assumption) (by rfl)
    | with_reducible apply Keep.readControl | with_reducible apply Keep.foldl
    | with_reducible refine Keep.foldl' Prod.fst ?_ ?_ | intro _ | split | dsimp only

theorem Keep.enlist {fs : List Field} {s t : State} (h : Keep fs s t) (o)
    (hl : Sub [.regs, .shad, .store, .full, .banks, .xbar, .parked, .stage, .cores, .islands, .queues, .ops,
      .ports, .out, .outst, .vecBusy, .power, .health, .journal, .injected, .free] fs :=
        by exact Sub.trans (by assumption) (by rfl)) :
    Keep fs s (State.enlist t o) := by
  unfold State.enlist
  try dsimp only
  repeat' first
    | with_reducible exact h | with_reducible assumption | exact Sub.trans (by assumption) (by rfl)
    | with_reducible apply Keep.journalWrite | intro _ | split | dsimp only | with_reducible apply Keep.upd
    | exact ⟨fun f hf => by cases f <;> first | with_reducible exact rfl |
        exact absurd (Sub.mem (by assumption) _ (by decide)) hf⟩

theorem Keep.commence {fs : List Field} {s t : State} (h : Keep fs s t) (o v)
    (hl : Sub [.regs, .shad, .store, .full, .moved, .banks, .xbar, .parked, .closing, .owners, .endedOwners,
      .stage, .cores, .islands, .queues, .ops, .ports, .out, .outst, .vecBusy, .groups, .sec, .securing,
      .power, .health, .journal, .injected, .free] fs :=
        by exact Sub.trans (by assumption) (by rfl)) :
    Keep fs s (State.commence t o v) := by
  unfold State.commence
  try dsimp only
  repeat' first
    | with_reducible exact h | with_reducible assumption | exact Sub.trans (by assumption) (by rfl)
    | with_reducible apply Keep.enlist | with_reducible apply Keep.firstWork
    | with_reducible apply Keep.startRun | intro _ | split | dsimp only

theorem Keep.takeNext {fs : List Field} {s t : State} (h : Keep fs s t) (q d)
    (hl : Sub [.regs, .shad, .store, .full, .banks, .owners, .endedOwners, .stage, .cores, .islands, .queues,
      .nextOp, .ports, .out, .outst, .vecBusy, .power, .turn] fs :=
        by exact Sub.trans (by assumption) (by rfl)) :
    Keep fs s (State.takeNext t q d) := by
  unfold State.takeNext
  try dsimp only
  repeat' first
    | with_reducible exact h | with_reducible assumption | exact Sub.trans (by assumption) (by rfl)
    | with_reducible apply Keep.incReg | with_reducible apply Keep.setQueue
    | with_reducible apply Keep.taskAccepted | with_reducible apply Keep.takeTicket | intro _ | split
    | dsimp only | with_reducible apply Keep.upd
    | exact ⟨fun f hf => by cases f <;> first | with_reducible exact rfl |
        exact absurd (Sub.mem (by assumption) _ (by decide)) hf⟩

theorem Keep.judge {fs : List Field} {s t : State} (h : Keep fs s t) (x id dark v)
    (hl : Sub [.regs, .shad, .store, .full, .banks, .xbar, .parked, .stage, .cores, .islands, .queues, .ops,
      .ports, .out, .outst, .vecBusy, .power, .health, .injected, .free] fs :=
        by exact Sub.trans (by assumption) (by rfl)) :
    Keep fs s (State.judge t x id dark v).1 := by
  unfold State.judge
  try dsimp only
  repeat' first
    | with_reducible exact h | with_reducible assumption | exact Sub.trans (by assumption) (by rfl)
    | with_reducible apply Keep.readChain | with_reducible apply Keep.fetchAll
    | with_reducible apply Keep.recordFailure | with_reducible apply Keep.readEntries
    | refine Keep.of_fst (by assumption) ?_ | refine Keep.of_snd (by assumption) ?_ | intro _ | split
    | dsimp only

theorem Keep.enterNext {fs : List Field} {s t : State} (h : Keep fs s t) (q d v)
    (hl : Sub [.regs, .shad, .store, .full, .banks, .xbar, .parked, .owners, .endedOwners, .stage, .cores,
      .islands, .queues, .ops, .nextOp, .ports, .out, .outst, .vecBusy, .power, .health, .injected, .turn,
      .free] fs :=
        by exact Sub.trans (by assumption) (by rfl)) :
    Keep fs s (State.enterNext t q d v).1 := by
  unfold State.enterNext
  try dsimp only
  repeat' first
    | with_reducible exact h | with_reducible assumption | exact Sub.trans (by assumption) (by rfl)
    | with_reducible apply Keep.takeNext | with_reducible apply Keep.judge | with_reducible apply Keep.claimAll
    | refine Keep.of_fst (by assumption) ?_ | refine Keep.of_snd (by assumption) ?_ | intro _ | split
    | dsimp only

theorem Keep.acceptNext {fs : List Field} {s t : State} (h : Keep fs s t) (q d v)
    (hl : Sub [.regs, .shad, .store, .full, .moved, .banks, .xbar, .parked, .closing, .owners, .endedOwners,
      .stage, .cores, .islands, .queues, .ops, .nextOp, .ports, .out, .outst, .vecBusy, .groups, .sec,
      .securing, .power, .health, .journal, .injected, .turn, .free] fs :=
        by exact Sub.trans (by assumption) (by rfl)) :
    Keep fs s (State.acceptNext t q d v) := by
  unfold State.acceptNext
  try dsimp only
  repeat' first
    | with_reducible exact h | with_reducible assumption | exact Sub.trans (by assumption) (by rfl)
    | with_reducible apply Keep.enterNext | with_reducible apply Keep.commence
    | refine Keep.of_fst (by assumption) ?_ | refine Keep.of_snd (by assumption) ?_ | intro _ | split
    | dsimp only

theorem Keep.accept {fs : List Field} {s t : State} (h : Keep fs s t) (q opcode v)
    (hl : Sub [.regs, .shad, .store, .full, .moved, .banks, .xbar, .parked, .closing, .owners, .endedOwners,
      .stage, .cores, .islands, .queues, .ops, .nextOp, .ports, .out, .outst, .vecBusy, .groups, .sec,
      .securing, .power, .health, .journal, .injected, .turn, .free] fs :=
        by exact Sub.trans (by assumption) (by rfl)) :
    Keep fs s (State.accept t q opcode v) := by
  unfold State.accept
  try dsimp only
  repeat' first
    | with_reducible exact h | with_reducible assumption | exact Sub.trans (by assumption) (by rfl)
    | with_reducible apply Keep.acceptNext | intro _ | split | dsimp only

theorem Keep.forgetReads {fs : List Field} {s t : State} (h : Keep fs s t) (q)
    (hl : Sub [.outst] fs := by exact Sub.trans (by assumption) (by rfl)) :
    Keep fs s (State.forgetReads t q) := by
  unfold State.forgetReads
  try dsimp only
  repeat' first
    | with_reducible exact h | with_reducible assumption | exact Sub.trans (by assumption) (by rfl)
    | intro _ | split | dsimp only | with_reducible apply Keep.upd
    | exact ⟨fun f hf => by cases f <;> first | with_reducible exact rfl |
        exact absurd (Sub.mem (by assumption) _ (by decide)) hf⟩

theorem Keep.readSlot {fs : List Field} {s t : State} (h : Keep fs s t) (q)
    (hl : Sub [.regs, .shad, .store, .full, .moved, .banks, .xbar, .parked, .closing, .owners, .endedOwners,
      .stage, .cores, .islands, .queues, .ops, .nextOp, .ports, .out, .outst, .vecBusy, .groups, .sec,
      .securing, .power, .health, .journal, .injected, .turn, .free] fs :=
        by exact Sub.trans (by assumption) (by rfl)) :
    Keep fs s (State.readSlot t q) := by
  unfold State.readSlot
  try dsimp only
  repeat' first
    | with_reducible exact h | with_reducible assumption | exact Sub.trans (by assumption) (by rfl)
    | with_reducible apply Keep.acceptNext | with_reducible apply Keep.forgetReads
    | with_reducible apply Keep.setQueue | with_reducible apply Keep.readMem | intro _ | split | dsimp only

theorem Keep.protocolError {fs : List Field} {s t : State} (h : Keep fs s t) (port cause words)
    (hl : Sub [.regs, .ports, .out, .outst, .vecBusy, .power] fs :=
        by exact Sub.trans (by assumption) (by rfl)) :
    Keep fs s (State.protocolError t port cause words) := by
  unfold State.protocolError
  try dsimp only
  repeat' first
    | with_reducible exact h | with_reducible assumption | exact Sub.trans (by assumption) (by rfl)
    | with_reducible apply Keep.capture | with_reducible apply Keep.raise | intro _ | split | dsimp only

theorem Keep.answered {fs : List Field} {s t : State} (h : Keep fs s t) (op port vc tag status ndata want f)
    (hf : ∀ u x n, Keep fs s u → Keep fs s (f u x n))
    (hl : Sub [.regs, .ports, .out, .outst, .vecBusy, .power] fs :=
        by exact Sub.trans (by assumption) (by rfl)) :
    Keep fs s (State.answered t op port vc tag status ndata want f) := by
  unfold State.answered
  split
  · exact h
  extract_lets ok
  split
  · split
    · exact h
    · exact Keep.protocolError h _ _ _
  · split
    · exact h
    · refine hf _ _ _ (Keep.dropOutst ?_ _)
      split
      · exact h
      · exact Keep.protocolError h _ _ _

theorem Keep.stopCheck {fs : List Field} {s t : State} (h : Keep fs s t) (q)
    (hl : Sub [.regs, .shad, .store, .full, .banks, .owners, .endedOwners, .stage, .cores, .islands, .queues,
      .ports, .out, .outst, .vecBusy, .power] fs :=
        by exact Sub.trans (by assumption) (by rfl)) :
    Keep fs s (State.stopCheck t q) := by
  unfold State.stopCheck
  try dsimp only
  repeat' first
    | with_reducible exact h | with_reducible assumption | exact Sub.trans (by assumption) (by rfl)
    | with_reducible apply Keep.setQueue | with_reducible apply Keep.endAllTasks | intro _ | split | dsimp only

theorem Keep.writeRecord {fs : List Field} {s t : State} (h : Keep fs s t) (o)
    (hl : Sub [.regs, .queues, .ports, .out, .outst, .vecBusy, .power] fs :=
        by exact Sub.trans (by assumption) (by rfl)) :
    Keep fs s (State.writeRecord t o) := by
  unfold State.writeRecord
  try dsimp only
  repeat' first
    | with_reducible exact h | with_reducible assumption | exact Sub.trans (by assumption) (by rfl)
    | with_reducible apply Keep.writeMem | with_reducible apply Keep.setReg | with_reducible apply Keep.raise
    | with_reducible apply Keep.haltQueue | intro _ | split | dsimp only

theorem Keep.replayEnded {fs : List Field} {s t : State} (h : Keep fs s t) (o)
    (hl : Sub [.regs, .ports, .out, .outst, .vecBusy, .power, .replay] fs :=
        by exact Sub.trans (by assumption) (by rfl)) :
    Keep fs s (State.replayEnded t o) := by
  unfold State.replayEnded
  try dsimp only
  repeat' first
    | with_reducible exact h | with_reducible assumption | exact Sub.trans (by assumption) (by rfl)
    | with_reducible apply Keep.setRegF | with_reducible apply Keep.raise | intro _ | split | dsimp only
    | with_reducible apply Keep.upd
    | exact ⟨fun f hf => by cases f <;> first | with_reducible exact rfl |
        exact absurd (Sub.mem (by assumption) _ (by decide)) hf⟩

theorem Keep.commitMoments {fs : List Field} {s t : State} (h : Keep fs s t)
    (hl : Sub [.commitHold] fs := by exact Sub.trans (by assumption) (by rfl)) :
    Keep fs s (State.commitMoments t) := by
  unfold State.commitMoments
  try dsimp only
  repeat' first
    | with_reducible exact h | with_reducible assumption | exact Sub.trans (by assumption) (by rfl)
    | intro _ | split | dsimp only | with_reducible apply Keep.upd
    | exact ⟨fun f hf => by cases f <;> first | with_reducible exact rfl |
        exact absurd (Sub.mem (by assumption) _ (by decide)) hf⟩

theorem Keep.shutSecured {fs : List Field} {s t : State} (h : Keep fs s t) (o)
    (hl : Sub [.shut, .shutResult] fs := by exact Sub.trans (by assumption) (by rfl)) :
    Keep fs s (State.shutSecured t o) := by
  unfold State.shutSecured
  try dsimp only
  repeat' first
    | with_reducible exact h | with_reducible assumption | exact Sub.trans (by assumption) (by rfl)
    | intro _ | split | dsimp only | with_reducible apply Keep.upd
    | exact ⟨fun f hf => by cases f <;> first | with_reducible exact rfl |
        exact absurd (Sub.mem (by assumption) _ (by decide)) hf⟩

theorem Keep.retireOp {fs : List Field} {s t : State} (h : Keep fs s t) (o)
    (hl : Sub [.regs, .shad, .store, .full, .banks, .owners, .endedOwners, .stage, .cores, .islands, .queues,
      .ops, .ports, .out, .outst, .vecBusy, .groups, .power, .replay, .journal, .shut, .shutResult,
      .commitHold] fs :=
        by exact Sub.trans (by assumption) (by rfl)) :
    Keep fs s (State.retireOp t o) := by
  unfold State.retireOp
  try dsimp only
  repeat' first
    | with_reducible exact h | with_reducible assumption | exact Sub.trans (by assumption) (by rfl)
    | with_reducible apply Keep.bumpGen | with_reducible apply Keep.dropOp | with_reducible apply Keep.dropStage
    | with_reducible apply Keep.mapCores | with_reducible apply Keep.journalEnd
    | with_reducible apply Keep.shutSecured | with_reducible apply Keep.commitMoments
    | with_reducible apply Keep.replayEnded | with_reducible apply Keep.fencesGo
    | with_reducible apply Keep.endTasks | with_reducible apply Keep.stopCheck | with_reducible apply Keep.foldl
    | with_reducible refine Keep.foldl' Prod.fst ?_ ?_ | intro _ | split | dsimp only

theorem Keep.completeOp {fs : List Field} {s t : State} (h : Keep fs s t) (id)
    (hl : Sub [.regs, .shad, .store, .full, .banks, .owners, .endedOwners, .stage, .cores, .islands, .queues,
      .ops, .ports, .out, .outst, .vecBusy, .groups, .power, .replay, .journal, .shut, .shutResult,
      .commitHold] fs :=
        by exact Sub.trans (by assumption) (by rfl)) :
    Keep fs s (State.completeOp t id) := by
  unfold State.completeOp
  try dsimp only
  repeat' first
    | with_reducible exact h | with_reducible assumption | exact Sub.trans (by assumption) (by rfl)
    | with_reducible apply Keep.writeRecord | with_reducible apply Keep.retireOp | intro _ | split | dsimp only

theorem Keep.flushed {fs : List Field} {s t : State} (h : Keep fs s t) (id)
    (hl : Sub [.regs, .shad, .store, .full, .banks, .xbar, .parked, .owners, .endedOwners, .stage, .cores,
      .islands, .queues, .ops, .ports, .out, .outst, .vecBusy, .groups, .power, .health, .replay, .journal,
      .shut, .shutResult, .commitHold, .injected, .free] fs :=
        by exact Sub.trans (by assumption) (by rfl)) :
    Keep fs s (State.flushed t id) := by
  unfold State.flushed
  try dsimp only
  repeat' first
    | with_reducible exact h | with_reducible assumption | exact Sub.trans (by assumption) (by rfl)
    | with_reducible apply Keep.writeRecord | with_reducible apply Keep.completeOp
    | with_reducible apply Keep.modOp | with_reducible apply Keep.journalDone | intro _ | split | dsimp only

theorem Keep.operationCompletion {fs : List Field} {s t : State} (h : Keep fs s t) (id)
    (hl : Sub [.ops, .ports, .out, .outst, .groups, .power] fs := by exact Sub.trans (by assumption) (by rfl)) :
    Keep fs s (State.operationCompletion t id) := by
  unfold State.operationCompletion
  try dsimp only
  repeat' first
    | with_reducible exact h | with_reducible assumption | exact Sub.trans (by assumption) (by rfl)
    | with_reducible apply Keep.fenceGo | with_reducible apply Keep.finish | with_reducible apply Keep.flush
    | with_reducible apply Keep.modOp | with_reducible apply Keep.foldl
    | with_reducible refine Keep.foldl' Prod.fst ?_ ?_ | intro _ | split | dsimp only

theorem Keep.slotFailed {fs : List Field} {s t : State} (h : Keep fs s t) (q status)
    (hl : Sub [.regs, .queues, .ops, .nextOp, .ports, .out, .outst, .vecBusy, .power] fs :=
        by exact Sub.trans (by assumption) (by rfl)) :
    Keep fs s (State.slotFailed t q status) := by
  unfold State.slotFailed
  try dsimp only
  repeat' first
    | with_reducible exact h | with_reducible assumption | exact Sub.trans (by assumption) (by rfl)
    | with_reducible apply Keep.incReg | with_reducible apply Keep.capture | with_reducible apply Keep.haltQueue
    | intro _ | split | dsimp only | with_reducible apply Keep.upd
    | exact ⟨fun f hf => by cases f <;> first | with_reducible exact rfl |
        exact absurd (Sub.mem (by assumption) _ (by decide)) hf⟩

theorem Keep.slotRead {fs : List Field} {s t : State} (h : Keep fs s t) (q again x status data)
    (hl : Sub [.regs, .queues, .ops, .nextOp, .ports, .out, .outst, .vecBusy, .power, .health, .free] fs :=
        by exact Sub.trans (by assumption) (by rfl)) :
    Keep fs s (State.slotRead t q again x status data) := by
  unfold State.slotRead
  try dsimp only
  repeat' first
    | with_reducible exact h | with_reducible assumption | exact Sub.trans (by assumption) (by rfl)
    | with_reducible apply Keep.setQueue | with_reducible apply Keep.uncorrected
    | with_reducible apply Keep.readMem | with_reducible apply Keep.slotFailed | intro _ | split | dsimp only

theorem Keep.opReadFailed {fs : List Field} {s t : State} (h : Keep fs s t) (id x status)
    (hl : Sub [.regs, .shad, .store, .full, .banks, .xbar, .parked, .stage, .cores, .islands, .ops, .ports,
      .out, .outst, .vecBusy, .securing, .power, .health, .replay, .free] fs :=
        by exact Sub.trans (by assumption) (by rfl)) :
    Keep fs s (State.opReadFailed t id x status) := by
  unfold State.opReadFailed
  try dsimp only
  repeat' first
    | with_reducible exact h | with_reducible assumption | exact Sub.trans (by assumption) (by rfl)
    | with_reducible apply Keep.modOp | with_reducible apply Keep.uncorrected
    | with_reducible apply Keep.mapCores | with_reducible apply Keep.dropAccesses
    | with_reducible apply Keep.replayFailed | with_reducible apply Keep.failWith
    | with_reducible apply Keep.opDataLost | with_reducible apply Keep.opFail
    | refine Keep.of_fst (by assumption) ?_ | refine Keep.of_snd (by assumption) ?_ | intro _ | split
    | dsimp only

theorem Keep.putStaged {fs : List Field} {s t : State} (h : Keep fs s t) (c id addr d)
    (hl : Sub [.stage] fs := by exact Sub.trans (by assumption) (by rfl)) :
    Keep fs s (State.putStaged t c id addr d) := by
  unfold State.putStaged
  try dsimp only
  repeat' first
    | with_reducible exact h | with_reducible assumption | exact Sub.trans (by assumption) (by rfl)
    | with_reducible apply Keep.setStage | intro _ | split | dsimp only

theorem Keep.sourceReady {fs : List Field} {s t : State} (h : Keep fs s t) (id cluster off)
    (hl : Sub [.xbar, .stage, .ops, .ports, .out, .outst, .power] fs :=
        by exact Sub.trans (by assumption) (by rfl)) :
    Keep fs s (State.sourceReady t id cluster off) := by
  unfold State.sourceReady
  try dsimp only
  repeat' first
    | with_reducible exact h | with_reducible assumption | exact Sub.trans (by assumption) (by rfl)
    | with_reducible apply Keep.setStage | with_reducible apply Keep.windowGo | intro _ | split | dsimp only

theorem Keep.meshStaged {fs : List Field} {s t : State} (h : Keep fs s t) (c id addr d)
    (hl : Sub [.regs, .shad, .store, .full, .banks, .xbar, .parked, .stage, .cores, .islands, .ops, .ports,
      .out, .outst, .vecBusy, .securing, .power, .health, .replay, .injected, .free] fs :=
        by exact Sub.trans (by assumption) (by rfl)) :
    Keep fs s (State.meshStaged t c id addr d) := by
  unfold State.meshStaged
  try dsimp only
  repeat' first
    | with_reducible exact h | with_reducible assumption | exact Sub.trans (by assumption) (by rfl)
    | with_reducible apply Keep.injectPath | with_reducible apply Keep.freshWord
    | with_reducible apply Keep.opDataLost | with_reducible apply Keep.correctedError
    | with_reducible apply Keep.putStaged | intro _ | split | dsimp only

theorem Keep.meshMerge {fs : List Field} {s t : State} (h : Keep fs s t) (id k addr d)
    (hl : Sub [.regs, .shad, .store, .full, .banks, .xbar, .parked, .stage, .cores, .islands, .ops, .ports,
      .out, .outst, .vecBusy, .securing, .power, .health, .replay, .injected, .free] fs :=
        by exact Sub.trans (by assumption) (by rfl)) :
    Keep fs s (State.meshMerge t id k addr d) := by
  unfold State.meshMerge
  try dsimp only
  repeat' first
    | with_reducible exact h | with_reducible assumption | exact Sub.trans (by assumption) (by rfl)
    | with_reducible apply Keep.setCore | with_reducible apply Keep.injectPath
    | with_reducible apply Keep.coreLost | with_reducible apply Keep.correctedError | intro _ | split
    | dsimp only

theorem Keep.readReturned {fs : List Field} {s t : State} (h : Keep fs s t) (x status data)
    (hl : Sub [.regs, .shad, .store, .full, .banks, .xbar, .parked, .stage, .cores, .islands, .queues, .ops,
      .nextOp, .ports, .out, .outst, .vecBusy, .securing, .power, .health, .replay, .injected, .free] fs :=
        by exact Sub.trans (by assumption) (by rfl)) :
    Keep fs s (State.readReturned t x status data) := by
  unfold State.readReturned
  try dsimp only
  repeat' first
    | with_reducible exact h | with_reducible assumption | exact Sub.trans (by assumption) (by rfl)
    | with_reducible apply Keep.slotRead | with_reducible apply Keep.settle
    | with_reducible apply Keep.meshStaged | with_reducible apply Keep.opReadFailed
    | with_reducible apply Keep.meshMerge | with_reducible apply Keep.sourceReady | intro _ | split | dsimp only

theorem Keep.atomicReturned {fs : List Field} {s t : State} (h : Keep fs s t) (x status)
    (hl : Sub [.regs, .xbar, .parked, .cores, .ops, .ports, .out, .outst, .vecBusy, .securing, .power] fs :=
        by exact Sub.trans (by assumption) (by rfl)) :
    Keep fs s (State.atomicReturned t x status) := by
  unfold State.atomicReturned
  try dsimp only
  repeat' first
    | with_reducible exact h | with_reducible assumption | exact Sub.trans (by assumption) (by rfl)
    | with_reducible apply Keep.settle | with_reducible apply Keep.opFail | intro _ | split | dsimp only

theorem Keep.windowAnswered {fs : List Field} {s t : State} (h : Keep fs s t) (x status)
    (hl : Sub [.regs, .xbar, .parked, .cores, .ops, .ports, .out, .outst, .vecBusy, .groups, .securing,
      .power] fs :=
        by exact Sub.trans (by assumption) (by rfl)) :
    Keep fs s (State.windowAnswered t x status) := by
  unfold State.windowAnswered
  try dsimp only
  repeat' first
    | with_reducible exact h | with_reducible assumption | exact Sub.trans (by assumption) (by rfl)
    | with_reducible apply Keep.modOp | with_reducible apply Keep.settle | with_reducible apply Keep.opFail
    | with_reducible apply Keep.concordRefused | intro _ | split | dsimp only

theorem Keep.vectorFailed {fs : List Field} {s t : State} (h : Keep fs s t)
    (hl : Sub [.regs, .ports, .out, .outst, .vecBusy, .power, .free] fs :=
        by exact Sub.trans (by assumption) (by rfl)) :
    Keep fs s (State.vectorFailed t) := by
  unfold State.vectorFailed
  try dsimp only
  repeat' first
    | with_reducible exact h | with_reducible assumption | exact Sub.trans (by assumption) (by rfl)
    | with_reducible apply Keep.freshWord | with_reducible apply Keep.capture
    | refine Keep.of_fst (by assumption) ?_ | refine Keep.of_snd (by assumption) ?_ | intro _ | split
    | dsimp only

theorem Keep.messageAnswered {fs : List Field} {s t : State} (h : Keep fs s t) (x status)
    (hl : Sub [.regs, .xbar, .parked, .cores, .ops, .ports, .out, .outst, .vecBusy, .securing, .power,
      .free] fs :=
        by exact Sub.trans (by assumption) (by rfl)) :
    Keep fs s (State.messageAnswered t x status) := by
  unfold State.messageAnswered
  try dsimp only
  repeat' first
    | with_reducible exact h | with_reducible assumption | exact Sub.trans (by assumption) (by rfl)
    | with_reducible apply Keep.modOp | with_reducible apply Keep.finish | with_reducible apply Keep.opFail
    | with_reducible apply Keep.vectorFailed | with_reducible apply Keep.vectorResend | intro _ | split
    | dsimp only | with_reducible apply Keep.upd
    | exact ⟨fun f hf => by cases f <;> first | with_reducible exact rfl |
        exact absurd (Sub.mem (by assumption) _ (by decide)) hf⟩

theorem Keep.signalGo {fs : List Field} {s t : State} (h : Keep fs s t) (o)
    (hl : Sub [.ops, .ports, .out, .outst, .power] fs := by exact Sub.trans (by assumption) (by rfl)) :
    Keep fs s (State.signalGo t o) := by
  unfold State.signalGo
  try dsimp only
  repeat' first
    | with_reducible exact h | with_reducible assumption | exact Sub.trans (by assumption) (by rfl)
    | with_reducible apply Keep.modOp | with_reducible apply Keep.message | intro _ | split | dsimp only

theorem Keep.doneFlushed {fs : List Field} {s t : State} (h : Keep fs s t) (id)
    (hl : Sub [.regs, .shad, .store, .full, .banks, .xbar, .parked, .owners, .endedOwners, .stage, .cores,
      .islands, .queues, .ops, .ports, .out, .outst, .vecBusy, .groups, .power, .health, .replay, .journal,
      .shut, .shutResult, .commitHold, .injected, .free] fs :=
        by exact Sub.trans (by assumption) (by rfl)) :
    Keep fs s (State.doneFlushed t id) := by
  unfold State.doneFlushed
  try dsimp only
  repeat' first
    | with_reducible exact h | with_reducible assumption | exact Sub.trans (by assumption) (by rfl)
    | with_reducible apply Keep.modOp | with_reducible apply Keep.flushed | intro _ | split | dsimp only

theorem Keep.flushReturned {fs : List Field} {s t : State} (h : Keep fs s t) (x status)
    (hl : Sub [.regs, .shad, .store, .full, .banks, .xbar, .parked, .owners, .endedOwners, .stage, .cores,
      .islands, .queues, .ops, .ports, .out, .outst, .vecBusy, .groups, .securing, .power, .health, .replay,
      .journal, .jfloor, .shut, .shutResult, .commitHold, .injected, .free] fs :=
        by exact Sub.trans (by assumption) (by rfl)) :
    Keep fs s (State.flushReturned t x status) := by
  unfold State.flushReturned
  try dsimp only
  repeat' first
    | with_reducible exact h | with_reducible assumption | exact Sub.trans (by assumption) (by rfl)
    | with_reducible apply Keep.opFail | with_reducible apply Keep.completeOp
    | with_reducible apply Keep.startRun | with_reducible apply Keep.doneFlushed
    | with_reducible apply Keep.signalGo | with_reducible apply Keep.vectorMessage
    | with_reducible apply Keep.sideMessage | intro _ | split | dsimp only | with_reducible apply Keep.upd
    | exact ⟨fun f hf => by cases f <;> first | with_reducible exact rfl |
        exact absurd (Sub.mem (by assumption) _ (by decide)) hf⟩

theorem Keep.flack {fs : List Field} {s t : State} (h : Keep fs s t) (port tag status)
    (hl : Sub [.regs, .shad, .store, .full, .banks, .xbar, .parked, .owners, .endedOwners, .stage, .cores,
      .islands, .queues, .ops, .ports, .out, .outst, .vecBusy, .groups, .securing, .power, .health, .replay,
      .journal, .jfloor, .shut, .shutResult, .commitHold, .injected, .free] fs :=
        by exact Sub.trans (by assumption) (by rfl)) : Keep fs s (State.flack t port tag status) := by
  unfold State.flack
  refine Keep.answered ?_ _ _ _ _ _ _ _ _ fun u x n hu => Keep.flushReturned hu _ _
  split
  · split
    · refine Keep.sendHeld _ _ (Sub.trans hl (by rfl)) _ ?_
      exact Keep.congr h rfl rfl rfl rfl rfl
    · exact h
  · exact h

theorem Keep.writeFailed {fs : List Field} {s t : State} (h : Keep fs s t) (x status)
    (hl : Sub [.regs, .xbar, .parked, .cores, .queues, .ops, .ports, .out, .outst, .vecBusy, .securing,
      .power] fs :=
        by exact Sub.trans (by assumption) (by rfl)) :
    Keep fs s (State.writeFailed t x status) := by
  unfold State.writeFailed
  try dsimp only
  repeat' first
    | with_reducible exact h | with_reducible assumption | exact Sub.trans (by assumption) (by rfl)
    | with_reducible apply Keep.opFail | with_reducible apply Keep.capture | with_reducible apply Keep.raise
    | with_reducible apply Keep.haltQueue | intro _ | split | dsimp only

theorem Keep.huberr {fs : List Field} {s t : State} (h : Keep fs s t) (port h')
    (hl : Sub [.regs, .xbar, .parked, .cores, .queues, .ops, .ports, .out, .outst, .vecBusy, .securing,
      .power] fs :=
        by exact Sub.trans (by assumption) (by rfl)) :
    Keep fs s (State.huberr t port h') := by
  unfold State.huberr
  try dsimp only
  repeat' first
    | with_reducible exact h | with_reducible assumption | exact Sub.trans (by assumption) (by rfl)
    | with_reducible apply Keep.capture | with_reducible apply Keep.raise | with_reducible apply Keep.dropOutst
    | with_reducible apply Keep.writeFailed | intro _ | split | dsimp only

end Sys2Proof.Machine
end

