-- ==== Sys2Proof/Laws/KeepLink.lean ====
section
/-!
SUPPORT. Stops, the hub ports, the journal and the peers: what each does to
the parts of the state that the invariants speak of (`Keep`).
-/

namespace Sys2Proof.Machine

set_option Elab.async false
set_option linter.unusedTactic false
set_option linter.unreachableTactic false
set_option linter.unusedVariables false

theorem Keep.raiseIbi {fs : List Field} {s t : State} (h : Keep fs s t) (b)
    (hl : Sub [.sb] fs := by exact Sub.trans (by assumption) (by rfl)) :
    Keep fs s (State.raiseIbi t b) := by
  unfold State.raiseIbi
  try dsimp only
  repeat' first
    | with_reducible exact h | with_reducible assumption | exact Sub.trans (by assumption) (by rfl)
    | intro _ | split | dsimp only | with_reducible apply Keep.upd
    | exact ⟨fun f hf => by cases f <;> first | with_reducible exact rfl |
        exact absurd (Sub.mem (by assumption) _ (by decide)) hf⟩

theorem Keep.mailboxDone {fs : List Field} {s t : State} (h : Keep fs s t) (result)
    (hl : Sub [.regs, .ports, .out, .outst, .vecBusy, .power] fs :=
        by exact Sub.trans (by assumption) (by rfl)) :
    Keep fs s (State.mailboxDone t result) := by
  unfold State.mailboxDone
  try dsimp only
  repeat' first
    | with_reducible exact h | with_reducible assumption | exact Sub.trans (by assumption) (by rfl)
    | with_reducible apply Keep.setRegN | with_reducible apply Keep.raise | intro _ | split | dsimp only

theorem Keep.bootFail {fs : List Field} {s t : State} (h : Keep fs s t) (code)
    (hl : Sub [.regs, .sb] fs := by exact Sub.trans (by assumption) (by rfl)) :
    Keep fs s (State.bootFail t code) := by
  unfold State.bootFail
  try dsimp only
  repeat' first
    | with_reducible exact h | with_reducible assumption | exact Sub.trans (by assumption) (by rfl)
    | with_reducible apply Keep.setRegF | with_reducible apply Keep.raiseIbi | intro _ | split | dsimp only
    | with_reducible apply Keep.upd
    | exact ⟨fun f hf => by cases f <;> first | with_reducible exact rfl |
        exact absurd (Sub.mem (by assumption) _ (by decide)) hf⟩

theorem Keep.nextStep {fs : List Field} {s t : State} (h : Keep fs s t) (n)
    (hl : Sub [.regs, .free] fs := by exact Sub.trans (by assumption) (by rfl)) :
    Keep fs s (State.nextStep t n) := by
  unfold State.nextStep
  try dsimp only
  repeat' first
    | with_reducible exact h | with_reducible assumption | exact Sub.trans (by assumption) (by rfl)
    | with_reducible apply Keep.freshWord | with_reducible apply Keep.setReg | with_reducible apply Keep.setRegF
    | refine Keep.of_fst (by assumption) ?_ | refine Keep.of_snd (by assumption) ?_ | intro _ | split
    | dsimp only

theorem Keep.freezeOps {fs : List Field} {s t : State} (h : Keep fs s t)
    (hl : Sub [.regs, .shad, .store, .full, .banks, .xbar, .parked, .stage, .cores, .islands, .ops, .ports,
      .out, .outst, .vecBusy, .power] fs :=
        by exact Sub.trans (by assumption) (by rfl)) :
    Keep fs s (State.freezeOps t) := by
  unfold State.freezeOps
  try dsimp only
  repeat' first
    | with_reducible exact h | with_reducible assumption | exact Sub.trans (by assumption) (by rfl)
    | with_reducible apply Keep.mapCores | with_reducible apply Keep.dropAccesses
    | with_reducible apply Keep.modOp | with_reducible apply Keep.foldl
    | with_reducible refine Keep.foldl' Prod.fst ?_ ?_ | intro _ | split | dsimp only

theorem Keep.cutPorts {fs : List Field} {s t : State} (h : Keep fs s t)
    (hl : Sub [.ports] fs := by exact Sub.trans (by assumption) (by rfl)) :
    Keep fs s (State.cutPorts t) := by
  unfold State.cutPorts
  try dsimp only
  repeat' first
    | with_reducible exact h | with_reducible assumption | exact Sub.trans (by assumption) (by rfl)
    | with_reducible apply Keep.setPort | with_reducible apply Keep.foldl
    | with_reducible refine Keep.foldl' Prod.fst ?_ ?_ | intro _ | split | dsimp only

theorem Keep.dropTraffic {fs : List Field} {s t : State} (h : Keep fs s t)
    (hl : Sub [.regs, .queues, .outst, .vecBusy] fs := by exact Sub.trans (by assumption) (by rfl)) :
    Keep fs s (State.dropTraffic t) := by
  unfold State.dropTraffic
  try dsimp only
  repeat' first
    | with_reducible exact h | with_reducible assumption | exact Sub.trans (by assumption) (by rfl)
    | with_reducible apply Keep.orReg | with_reducible apply Keep.foldl
    | with_reducible refine Keep.foldl' Prod.fst ?_ ?_ | intro _ | split | dsimp only
    | with_reducible apply Keep.upd
    | exact ⟨fun f hf => by cases f <;> first | with_reducible exact rfl |
        exact absurd (Sub.mem (by assumption) _ (by decide)) hf⟩

theorem Keep.latchConcord {fs : List Field} {s t : State} (h : Keep fs s t)
    (hl : Sub [.latched] fs := by exact Sub.trans (by assumption) (by rfl)) :
    Keep fs s (State.latchConcord t) := by
  unfold State.latchConcord
  try dsimp only
  repeat' first
    | with_reducible exact h | with_reducible assumption | exact Sub.trans (by assumption) (by rfl)
    | intro _ | split | dsimp only | with_reducible apply Keep.upd
    | exact ⟨fun f hf => by cases f <;> first | with_reducible exact rfl |
        exact absurd (Sub.mem (by assumption) _ (by decide)) hf⟩

theorem Keep.latchIso {fs : List Field} {s t : State} (h : Keep fs s t) (cause port)
    (hl : Sub [.regs] fs := by exact Sub.trans (by assumption) (by rfl)) :
    Keep fs s (State.latchIso t cause port) := by
  unfold State.latchIso
  try dsimp only
  repeat' first
    | with_reducible exact h | with_reducible assumption | exact Sub.trans (by assumption) (by rfl)
    | with_reducible apply Keep.orReg | with_reducible apply Keep.setRegF | intro _ | split | dsimp only

theorem Keep.setRung {fs : List Field} {s t : State} (h : Keep fs s t) (i r)
    (hl : Sub [.islands] fs := by exact Sub.trans (by assumption) (by rfl)) :
    Keep fs s (State.setRung t i r) := by
  unfold State.setRung
  try dsimp only
  repeat' first
    | with_reducible exact h | with_reducible assumption | exact Sub.trans (by assumption) (by rfl)
    | with_reducible apply Keep.setIsland | intro _ | split | dsimp only

theorem Keep.allStill {fs : List Field} {s t : State} (h : Keep fs s t)
    (hl : Sub [.regs, .islands] fs := by exact Sub.trans (by assumption) (by rfl)) :
    Keep fs s (State.allStill t) := by
  unfold State.allStill
  try dsimp only
  repeat' first
    | with_reducible exact h | with_reducible assumption | exact Sub.trans (by assumption) (by rfl)
    | with_reducible apply Keep.setRegF | with_reducible apply Keep.setRung | with_reducible apply Keep.foldl
    | with_reducible refine Keep.foldl' Prod.fst ?_ ?_ | intro _ | split | dsimp only

theorem Keep.leaveService {fs : List Field} {s t : State} (h : Keep fs s t)
    (hl : Sub [.regs, .shad, .store, .full, .banks, .xbar, .parked, .stage, .cores, .islands, .queues, .ops,
      .ports, .out, .outst, .vecBusy, .power, .mute] fs :=
        by exact Sub.trans (by assumption) (by rfl)) :
    Keep fs s (State.leaveService t) := by
  unfold State.leaveService
  try dsimp only
  repeat' first
    | with_reducible exact h | with_reducible assumption | exact Sub.trans (by assumption) (by rfl)
    | with_reducible apply Keep.freezeOps | with_reducible apply Keep.dropTraffic
    | with_reducible apply Keep.cutPorts | intro _ | split | dsimp only | with_reducible apply Keep.upd
    | exact ⟨fun f hf => by cases f <;> first | with_reducible exact rfl |
        exact absurd (Sub.mem (by assumption) _ (by decide)) hf⟩

theorem Keep.goIsolated {fs : List Field} {s t : State} (h : Keep fs s t)
    (hl : Sub [.regs, .shad, .store, .full, .banks, .xbar, .parked, .stage, .cores, .islands, .queues, .ops,
      .ports, .out, .outst, .vecBusy, .sb, .latched, .power, .mute, .shut] fs :=
        by exact Sub.trans (by assumption) (by rfl)) :
    Keep fs s (State.goIsolated t) := by
  unfold State.goIsolated
  try dsimp only
  repeat' first
    | with_reducible exact h | with_reducible assumption | exact Sub.trans (by assumption) (by rfl)
    | with_reducible apply Keep.latchConcord | with_reducible apply Keep.leaveService
    | with_reducible apply Keep.allStill | with_reducible apply Keep.setRegN
    | with_reducible apply Keep.raiseIbi | with_reducible apply Keep.mailboxDone | intro _ | split | dsimp only
    | with_reducible apply Keep.upd
    | exact ⟨fun f hf => by cases f <;> first | with_reducible exact rfl |
        exact absurd (Sub.mem (by assumption) _ (by decide)) hf⟩

theorem Keep.isolate {fs : List Field} {s t : State} (h : Keep fs s t) (cause port)
    (hl : Sub [.regs, .shad, .store, .full, .banks, .xbar, .parked, .stage, .cores, .islands, .queues, .ops,
      .ports, .out, .outst, .vecBusy, .sb, .latched, .power, .mute, .shut] fs :=
        by exact Sub.trans (by assumption) (by rfl)) :
    Keep fs s (State.isolate t cause port) := by
  unfold State.isolate
  try dsimp only
  repeat' first
    | with_reducible exact h | with_reducible assumption | exact Sub.trans (by assumption) (by rfl)
    | with_reducible apply Keep.bootFail | with_reducible apply Keep.latchIso
    | with_reducible apply Keep.goIsolated | intro _ | split | dsimp only

theorem Keep.allDark {fs : List Field} {s t : State} (h : Keep fs s t)
    (hl : Sub [.regs, .shad, .store, .full, .moved, .banks, .xbar, .parked, .stage, .cores, .islands] fs :=
        by exact Sub.trans (by assumption) (by rfl)) : Keep fs s (State.allDark t) := by
  unfold State.allDark
  refine Keep.setRung (Keep.setRung (Keep.foldl ?_ fun u c hu => Keep.setRegN hu _ _) _ _) _ _
  have hd (l : List (Nat × Nat)) : Keep fs s (l.foldl (fun t x => t.bumpGen x.1 x.2) t) :=
    Keep.foldl h fun u x hu => Keep.bumpGen hu _ _
  exact (hd _).withStore rfl rfl rfl (fun _ => rfl) rfl

theorem Keep.vreqZero {fs : List Field} {s t : State} (h : Keep fs s t) (d)
    (hl : Sub [.sb] fs := by exact Sub.trans (by assumption) (by rfl)) :
    Keep fs s (State.vreqZero t d) := by
  unfold State.vreqZero
  try dsimp only
  repeat' first
    | with_reducible exact h | with_reducible assumption | exact Sub.trans (by assumption) (by rfl)
    | intro _ | split | dsimp only | with_reducible apply Keep.upd
    | exact ⟨fun f hf => by cases f <;> first | with_reducible exact rfl |
        exact absurd (Sub.mem (by assumption) _ (by decide)) hf⟩

theorem Keep.stopDie {fs : List Field} {s t : State} (h : Keep fs s t) (cause sensor)
    (hl : Sub [.regs, .shad, .store, .full, .moved, .banks, .xbar, .parked, .stage, .cores, .islands, .queues,
      .ops, .ports, .out, .outst, .vecBusy, .sb, .power, .mute, .stopped] fs :=
        by exact Sub.trans (by assumption) (by rfl)) :
    Keep fs s (State.stopDie t cause sensor) := by
  unfold State.stopDie
  try dsimp only
  repeat' first
    | with_reducible exact h | with_reducible assumption | exact Sub.trans (by assumption) (by rfl)
    | with_reducible apply Keep.orReg | with_reducible apply Keep.setRegF
    | with_reducible apply Keep.leaveService | with_reducible apply Keep.allDark
    | with_reducible apply Keep.vreqZero | with_reducible apply Keep.raiseIbi | with_reducible apply Keep.foldl
    | with_reducible refine Keep.foldl' Prod.fst ?_ ?_ | intro _ | split | dsimp only
    | with_reducible apply Keep.upd
    | exact ⟨fun f hf => by cases f <;> first | with_reducible exact rfl |
        exact absurd (Sub.mem (by assumption) _ (by decide)) hf⟩

theorem Keep.coolstopBond {fs : List Field} {s t : State} (h : Keep fs s t)
    (hl : Sub [.regs, .shad, .store, .full, .moved, .banks, .xbar, .parked, .stage, .cores, .islands, .queues,
      .ops, .ports, .out, .outst, .vecBusy, .sb, .power, .mute, .stopped] fs :=
        by exact Sub.trans (by assumption) (by rfl)) :
    Keep fs s (State.coolstopBond t) := by
  unfold State.coolstopBond
  try dsimp only
  repeat' first
    | with_reducible exact h | with_reducible assumption | exact Sub.trans (by assumption) (by rfl)
    | with_reducible apply Keep.stopDie | intro _ | split | dsimp only | with_reducible apply Keep.upd
    | exact ⟨fun f hf => by cases f <;> first | with_reducible exact rfl |
        exact absurd (Sub.mem (by assumption) _ (by decide)) hf⟩

theorem Keep.putRepair {fs : List Field} {s t : State} (h : Keep fs s t) (p o codes spare)
    (hl : Sub [.regs] fs := by exact Sub.trans (by assumption) (by rfl)) :
    Keep fs s (State.putRepair t p o codes spare) := by
  unfold State.putRepair
  try dsimp only
  repeat' first
    | with_reducible exact h | with_reducible assumption | exact Sub.trans (by assumption) (by rfl)
    | with_reducible apply Keep.setRegN | with_reducible apply Keep.foldl
    | with_reducible refine Keep.foldl' Prod.fst ?_ ?_ | intro _ | split | dsimp only

theorem Keep.linkLoad {fs : List Field} {s t : State} (h : Keep fs s t) (y)
    (hl : Sub [.power] fs := by exact Sub.trans (by assumption) (by rfl)) :
    Keep fs s (State.linkLoad t y) := by
  unfold State.linkLoad
  try dsimp only
  repeat' first
    | with_reducible exact h | with_reducible assumption | exact Sub.trans (by assumption) (by rfl)
    | with_reducible apply Keep.active | intro _ | split | dsimp only | with_reducible apply Keep.upd
    | exact ⟨fun f hf => by cases f <;> first | with_reducible exact rfl |
        exact absurd (Sub.mem (by assumption) _ (by decide)) hf⟩

theorem Keep.putSent {fs : List Field} {s t : State} (h : Keep fs s t) (p y)
    (hl : Sub [.regs, .ports, .power] fs := by exact Sub.trans (by assumption) (by rfl)) :
    Keep fs s (State.putSent t p y) := by
  unfold State.putSent
  try dsimp only
  repeat' first
    | with_reducible exact h | with_reducible assumption | exact Sub.trans (by assumption) (by rfl)
    | with_reducible apply Keep.incReg | with_reducible apply Keep.linkLoad | with_reducible apply Keep.setPort
    | with_reducible apply Keep.foldl | with_reducible refine Keep.foldl' Prod.fst ?_ ?_ | intro _ | split
    | dsimp only

theorem Keep.pumpPort {fs : List Field} {s t : State} (h : Keep fs s t) (p)
    (hl : Sub [.regs, .ports, .power] fs := by exact Sub.trans (by assumption) (by rfl)) :
    Keep fs s (State.pumpPort t p) := by
  unfold State.pumpPort
  try dsimp only
  repeat' first
    | with_reducible exact h | with_reducible assumption | exact Sub.trans (by assumption) (by rfl)
    | with_reducible apply Keep.setPort | with_reducible apply Keep.putSent | intro _ | split | dsimp only

theorem Keep.pumpPorts {fs : List Field} {s t : State} (h : Keep fs s t)
    (hl : Sub [.regs, .ports, .power] fs := by exact Sub.trans (by assumption) (by rfl)) :
    Keep fs s (State.pumpPorts t) := by
  unfold State.pumpPorts
  try dsimp only
  repeat' first
    | with_reducible exact h | with_reducible assumption | exact Sub.trans (by assumption) (by rfl)
    | with_reducible apply Keep.pumpPort | with_reducible apply Keep.foldl
    | with_reducible refine Keep.foldl' Prod.fst ?_ ?_ | intro _ | split | dsimp only

theorem Keep.beginTraining {fs : List Field} {s t : State} (h : Keep fs s t) (p retrain)
    (hl : Sub [.ports] fs := by exact Sub.trans (by assumption) (by rfl)) :
    Keep fs s (State.beginTraining t p retrain) := by
  unfold State.beginTraining
  try dsimp only
  repeat' first
    | with_reducible exact h | with_reducible assumption | exact Sub.trans (by assumption) (by rfl)
    | with_reducible apply Keep.setPort | intro _ | split | dsimp only

theorem Keep.retrain {fs : List Field} {s t : State} (h : Keep fs s t) (p)
    (hl : Sub [.ports] fs := by exact Sub.trans (by assumption) (by rfl)) :
    Keep fs s (State.retrain t p) := by
  unfold State.retrain
  try dsimp only
  repeat' first
    | with_reducible exact h | with_reducible assumption | exact Sub.trans (by assumption) (by rfl)
    | with_reducible apply Keep.beginTraining | intro _ | split | dsimp only

theorem Keep.portFails {fs : List Field} {s t : State} (h : Keep fs s t) (p)
    (hl : Sub [.regs, .ports, .out, .outst, .vecBusy, .power] fs :=
        by exact Sub.trans (by assumption) (by rfl)) :
    Keep fs s (State.portFails t p) := by
  unfold State.portFails
  try dsimp only
  repeat' first
    | with_reducible exact h | with_reducible assumption | exact Sub.trans (by assumption) (by rfl)
    | with_reducible apply Keep.setPort | with_reducible apply Keep.setRegF | with_reducible apply Keep.raise
    | intro _ | split | dsimp only

theorem Keep.portDown {fs : List Field} {s t : State} (h : Keep fs s t) (p)
    (hl : Sub [.regs, .shad, .store, .full, .banks, .xbar, .parked, .stage, .cores, .islands, .queues, .ops,
      .ports, .out, .outst, .vecBusy, .sb, .latched, .power, .mute, .shut] fs :=
        by exact Sub.trans (by assumption) (by rfl)) :
    Keep fs s (State.portDown t p) := by
  unfold State.portDown
  try dsimp only
  repeat' first
    | with_reducible exact h | with_reducible assumption | exact Sub.trans (by assumption) (by rfl)
    | with_reducible apply Keep.portFails | with_reducible apply Keep.isolate | intro _ | split | dsimp only

theorem Keep.portUp {fs : List Field} {s t : State} (h : Keep fs s t) (p)
    (hl : Sub [.regs, .ports, .out, .outst, .vecBusy, .power, .health] fs :=
        by exact Sub.trans (by assumption) (by rfl)) :
    Keep fs s (State.portUp t p) := by
  unfold State.portUp
  try dsimp only
  repeat' first
    | with_reducible exact h | with_reducible assumption | exact Sub.trans (by assumption) (by rfl)
    | with_reducible apply Keep.setPort | with_reducible apply Keep.setRegN | with_reducible apply Keep.raise
    | with_reducible apply Keep.setRegF | with_reducible apply Keep.incReg | with_reducible apply Keep.foldl
    | with_reducible refine Keep.foldl' Prod.fst ?_ ?_ | intro _ | split | dsimp only
    | with_reducible apply Keep.upd
    | exact ⟨fun f hf => by cases f <;> first | with_reducible exact rfl |
        exact absurd (Sub.mem (by assumption) _ (by decide)) hf⟩

theorem Keep.beginMap {fs : List Field} {s t : State} (h : Keep fs s t) (p)
    (hl : Sub [.regs, .ports] fs := by exact Sub.trans (by assumption) (by rfl)) :
    Keep fs s (State.beginMap t p) := by
  unfold State.beginMap
  try dsimp only
  repeat' first
    | with_reducible exact h | with_reducible assumption | exact Sub.trans (by assumption) (by rfl)
    | with_reducible apply Keep.putRepair | with_reducible apply Keep.setPort | intro _ | split | dsimp only

theorem Keep.beginAlign {fs : List Field} {s t : State} (h : Keep fs s t) (p)
    (hl : Sub [.ports] fs := by exact Sub.trans (by assumption) (by rfl)) :
    Keep fs s (State.beginAlign t p) := by
  unfold State.beginAlign
  try dsimp only
  repeat' first
    | with_reducible exact h | with_reducible assumption | exact Sub.trans (by assumption) (by rfl)
    | with_reducible apply Keep.setPort | intro _ | split | dsimp only

theorem Keep.heldFound {fs : List Field} {s t : State} (h : Keep fs s t) (p)
    (hl : Sub [.regs, .injected] fs := by exact Sub.trans (by assumption) (by rfl)) :
    Keep fs s (State.heldFound t p).1 := by
  unfold State.heldFound
  try dsimp only
  repeat' first
    | with_reducible exact h | with_reducible assumption | exact Sub.trans (by assumption) (by rfl)
    | with_reducible apply Keep.injectDone | with_reducible apply Keep.foldl
    | with_reducible refine Keep.foldl' Prod.fst ?_ ?_ | intro _ | split | dsimp only

theorem Keep.trainingNext {fs : List Field} {s t : State} (h : Keep fs s t) (p obs)
    (hl : Sub [.regs, .ports, .out, .outst, .vecBusy, .power, .health, .injected] fs :=
        by exact Sub.trans (by assumption) (by rfl)) :
    Keep fs s (State.trainingNext t p obs) := by
  unfold State.trainingNext
  try dsimp only
  repeat' first
    | with_reducible exact h | with_reducible assumption | exact Sub.trans (by assumption) (by rfl)
    | with_reducible apply Keep.setPort | with_reducible apply Keep.heldFound
    | with_reducible apply Keep.beginMap | with_reducible apply Keep.portFails
    | with_reducible apply Keep.beginAlign | with_reducible apply Keep.portUp
    | refine Keep.of_fst (by assumption) ?_ | refine Keep.of_snd (by assumption) ?_
    | with_reducible apply Keep.foldl | with_reducible refine Keep.foldl' Prod.fst ?_ ?_ | intro _ | split
    | dsimp only

theorem Keep.trainingStep {fs : List Field} {s t : State} (h : Keep fs s t) (p obs)
    (hl : Sub [.regs, .shad, .store, .full, .banks, .xbar, .parked, .stage, .cores, .islands, .queues, .ops,
      .ports, .out, .outst, .vecBusy, .sb, .latched, .power, .health, .mute, .shut, .injected] fs :=
        by exact Sub.trans (by assumption) (by rfl)) :
    Keep fs s (State.trainingStep t p obs) := by
  unfold State.trainingStep
  try dsimp only
  repeat' first
    | with_reducible exact h | with_reducible assumption | exact Sub.trans (by assumption) (by rfl)
    | with_reducible apply Keep.trainingNext | with_reducible apply Keep.isolate | intro _ | split | dsimp only

theorem Keep.throughLane {fs : List Field} {s t : State} (h : Keep fs s t) (p lane code f crc)
    (hl : Sub [.regs, .injected] fs := by exact Sub.trans (by assumption) (by rfl)) :
    Keep fs s (State.throughLane t p lane code f crc).1 := by
  unfold State.throughLane
  try dsimp only
  repeat' first
    | with_reducible exact h | with_reducible assumption | exact Sub.trans (by assumption) (by rfl)
    | with_reducible apply Keep.injectDone | with_reducible apply Keep.foldl
    | with_reducible refine Keep.foldl' Prod.fst ?_ ?_ | intro _ | split | dsimp only

theorem Keep.takeTs {fs : List Field} {s t : State} (h : Keep fs s t) (p f)
    (hl : Sub [.regs, .ports] fs := by exact Sub.trans (by assumption) (by rfl)) :
    Keep fs s (State.takeTs t p f) := by
  unfold State.takeTs
  try dsimp only
  repeat' first
    | with_reducible exact h | with_reducible assumption | exact Sub.trans (by assumption) (by rfl)
    | with_reducible apply Keep.putRepair | with_reducible apply Keep.setPort | intro _ | split | dsimp only

theorem Keep.tsReceive {fs : List Field} {s t : State} (h : Keep fs s t) (p lane flit crc)
    (hl : Sub [.regs, .ports, .injected] fs := by exact Sub.trans (by assumption) (by rfl)) :
    Keep fs s (State.tsReceive t p lane flit crc) := by
  unfold State.tsReceive
  try dsimp only
  repeat' first
    | with_reducible exact h | with_reducible assumption | exact Sub.trans (by assumption) (by rfl)
    | with_reducible apply Keep.throughLane | with_reducible apply Keep.takeTs
    | refine Keep.of_fst (by assumption) ?_ | refine Keep.of_snd (by assumption) ?_ | intro _ | split
    | dsimp only

theorem Keep.trainingStart {fs : List Field} {s t : State} (h : Keep fs s t) (p)
    (hl : Sub [.ports] fs := by exact Sub.trans (by assumption) (by rfl)) :
    Keep fs s (State.trainingStart t p) := by
  unfold State.trainingStart
  try dsimp only
  repeat' first
    | with_reducible exact h | with_reducible assumption | exact Sub.trans (by assumption) (by rfl)
    | with_reducible apply Keep.beginTraining | intro _ | split | dsimp only

theorem Keep.pwakeRise {fs : List Field} {s t : State} (h : Keep fs s t) (p palive)
    (hl : Sub [.ports] fs := by exact Sub.trans (by assumption) (by rfl)) :
    Keep fs s (State.pwakeRise t p palive) := by
  unfold State.pwakeRise
  try dsimp only
  repeat' first
    | with_reducible exact h | with_reducible assumption | exact Sub.trans (by assumption) (by rfl)
    | with_reducible apply Keep.setPort | with_reducible apply Keep.retrain
    | with_reducible apply Keep.trainingStart | intro _ | split | dsimp only

theorem Keep.trainPort {fs : List Field} {s t : State} (h : Keep fs s t) (v)
    (hl : Sub [.regs, .ports, .out, .outst, .vecBusy, .power, .health, .injected] fs :=
        by exact Sub.trans (by assumption) (by rfl)) :
    Keep fs s (State.trainPort t v) := by
  unfold State.trainPort
  try dsimp only
  repeat' first
    | with_reducible exact h | with_reducible assumption | exact Sub.trans (by assumption) (by rfl)
    | with_reducible apply Keep.beginTraining | with_reducible apply Keep.trainingNext
    | with_reducible apply Keep.takeTs | with_reducible apply Keep.setPort | with_reducible apply Keep.foldl
    | with_reducible refine Keep.foldl' Prod.fst ?_ ?_ | intro _ | split | dsimp only

theorem Keep.trainAll {fs : List Field} {s t : State} (h : Keep fs s t) (obs)
    (hl : Sub [.regs, .ports, .out, .outst, .vecBusy, .power, .health, .injected] fs :=
        by exact Sub.trans (by assumption) (by rfl)) :
    Keep fs s (State.trainAll t obs).1 := by
  unfold State.trainAll
  try dsimp only
  repeat' first
    | with_reducible exact h | with_reducible assumption | exact Sub.trans (by assumption) (by rfl)
    | with_reducible apply Keep.beginTraining | with_reducible apply Keep.portFails
    | with_reducible apply Keep.trainPort | with_reducible apply Keep.foldl
    | with_reducible refine Keep.foldl' Prod.fst ?_ ?_ | intro _ | split | dsimp only

theorem Keep.failOutst {fs : List Field} {s t : State} (h : Keep fs s t) (x)
    (hl : Sub [.regs, .shad, .store, .full, .banks, .xbar, .parked, .owners, .endedOwners, .stage, .cores,
      .islands, .queues, .ops, .nextOp, .ports, .out, .outst, .vecBusy, .groups, .securing, .power, .health,
      .replay, .journal, .jfloor, .shut, .shutResult, .commitHold, .injected, .free] fs :=
        by exact Sub.trans (by assumption) (by rfl)) :
    Keep fs s (State.failOutst t x) := by
  unfold State.failOutst
  try dsimp only
  repeat' first
    | with_reducible exact h | with_reducible assumption | exact Sub.trans (by assumption) (by rfl)
    | with_reducible apply Keep.dropOutst | with_reducible apply Keep.readReturned
    | with_reducible apply Keep.atomicReturned | with_reducible apply Keep.windowAnswered
    | with_reducible apply Keep.messageAnswered | with_reducible apply Keep.flushReturned | intro _ | split
    | dsimp only

theorem Keep.owe {fs : List Field} {s t : State} (h : Keep fs s t) (p y)
    (hl : Sub [.ports] fs := by exact Sub.trans (by assumption) (by rfl)) :
    Keep fs s (State.owe t p y) := by
  unfold State.owe
  try dsimp only
  repeat' first
    | with_reducible exact h | with_reducible assumption | exact Sub.trans (by assumption) (by rfl)
    | with_reducible apply Keep.setPort | intro _ | split | dsimp only

theorem Keep.overrun {fs : List Field} {s t : State} (h : Keep fs s t) (p words)
    (hl : Sub [.regs, .ports, .out, .outst, .vecBusy, .power] fs :=
        by exact Sub.trans (by assumption) (by rfl)) :
    Keep fs s (State.overrun t p words) := by
  unfold State.overrun
  try dsimp only
  repeat' first
    | with_reducible exact h | with_reducible assumption | exact Sub.trans (by assumption) (by rfl)
    | with_reducible apply Keep.capture | with_reducible apply Keep.raise | with_reducible apply Keep.retrain
    | intro _ | split | dsimp only

theorem Keep.takeHeader {fs : List Field} {s t : State} (h : Keep fs s t) (p h')
    (hl : Sub [.regs, .shad, .store, .full, .banks, .xbar, .parked, .owners, .endedOwners, .stage, .cores,
      .islands, .queues, .ops, .nextOp, .ports, .out, .outst, .vecBusy, .groups, .securing, .power, .health,
      .replay, .journal, .jfloor, .shut, .shutResult, .commitHold, .injected, .free] fs :=
        by exact Sub.trans (by assumption) (by rfl)) :
    Keep fs s (State.takeHeader t p h') := by
  unfold State.takeHeader
  try dsimp only
  repeat' first
    | with_reducible exact h | with_reducible assumption | exact Sub.trans (by assumption) (by rfl)
    | with_reducible apply Keep.protocolError | with_reducible apply Keep.owe
    | with_reducible apply Keep.overrun | with_reducible apply Keep.setPort | with_reducible apply Keep.cross
    | with_reducible apply Keep.failOutst | intro _ | split | dsimp only

theorem Keep.takeData {fs : List Field} {s t : State} (h : Keep fs s t) (p f)
    (hl : Sub [.regs, .ports, .out, .outst, .vecBusy, .power] fs :=
        by exact Sub.trans (by assumption) (by rfl)) :
    Keep fs s (State.takeData t p f) := by
  unfold State.takeData
  try dsimp only
  repeat' first
    | with_reducible exact h | with_reducible assumption | exact Sub.trans (by assumption) (by rfl)
    | with_reducible apply Keep.linkLoad | with_reducible apply Keep.cross | with_reducible apply Keep.setPort
    | with_reducible apply Keep.overrun | intro _ | split | dsimp only

theorem Keep.replayRequest {fs : List Field} {s t : State} (h : Keep fs s t) (p ack)
    (hl : Sub [.regs, .shad, .store, .full, .banks, .xbar, .parked, .stage, .cores, .islands, .queues, .ops,
      .ports, .out, .outst, .vecBusy, .sb, .latched, .power, .health, .mute, .shut, .injected] fs :=
        by exact Sub.trans (by assumption) (by rfl)) :
    Keep fs s (State.replayRequest t p ack) := by
  unfold State.replayRequest
  try dsimp only
  repeat' first
    | with_reducible exact h | with_reducible assumption | exact Sub.trans (by assumption) (by rfl)
    | with_reducible apply Keep.injectWord | with_reducible apply Keep.portDown
    | with_reducible apply Keep.correctedError | with_reducible apply Keep.putSent
    | with_reducible apply Keep.retrain | refine Keep.of_fst (by assumption) ?_
    | refine Keep.of_snd (by assumption) ?_ | intro _ | split | dsimp only

theorem Keep.takeHeaderFlit {fs : List Field} {s t : State} (h : Keep fs s t) (p f)
    (hl : Sub [.regs, .shad, .store, .full, .banks, .xbar, .parked, .owners, .endedOwners, .stage, .cores,
      .islands, .queues, .ops, .nextOp, .ports, .out, .outst, .vecBusy, .groups, .sb, .latched, .securing,
      .power, .health, .replay, .journal, .jfloor, .mute, .shut, .shutResult, .commitHold, .injected,
      .free] fs :=
        by exact Sub.trans (by assumption) (by rfl)) :
    Keep fs s (State.takeHeaderFlit t p f) := by
  unfold State.takeHeaderFlit
  try dsimp only
  repeat' first
    | with_reducible exact h | with_reducible assumption | exact Sub.trans (by assumption) (by rfl)
    | with_reducible apply Keep.takeHeader | with_reducible apply Keep.setPort
    | with_reducible apply Keep.replayRequest | with_reducible apply Keep.foldl
    | with_reducible refine Keep.foldl' Prod.fst ?_ ?_ | intro _ | split | dsimp only

theorem Keep.crcFailed {fs : List Field} {s t : State} (h : Keep fs s t) (p lane)
    (hl : Sub [.regs, .ports, .power] fs := by exact Sub.trans (by assumption) (by rfl)) :
    Keep fs s (State.crcFailed t p lane) := by
  unfold State.crcFailed
  try dsimp only
  repeat' first
    | with_reducible exact h | with_reducible assumption | exact Sub.trans (by assumption) (by rfl)
    | with_reducible apply Keep.incReg | with_reducible apply Keep.setPort | with_reducible apply Keep.putSent
    | with_reducible apply Keep.retrain | intro _ | split | dsimp only

theorem Keep.numberedFlit {fs : List Field} {s t : State} (h : Keep fs s t) (p lane active f crc)
    (hl : Sub [.regs, .shad, .store, .full, .banks, .xbar, .parked, .owners, .endedOwners, .stage, .cores,
      .islands, .queues, .ops, .nextOp, .ports, .out, .outst, .vecBusy, .groups, .sb, .latched, .securing,
      .power, .health, .replay, .journal, .jfloor, .mute, .shut, .shutResult, .commitHold, .injected,
      .free] fs :=
        by exact Sub.trans (by assumption) (by rfl)) :
    Keep fs s (State.numberedFlit t p lane active f crc) := by
  unfold State.numberedFlit
  try dsimp only
  repeat' first
    | with_reducible exact h | with_reducible assumption | exact Sub.trans (by assumption) (by rfl)
    | with_reducible apply Keep.setPort | with_reducible apply Keep.linkLoad
    | with_reducible apply Keep.takeHeaderFlit | with_reducible apply Keep.takeData
    | with_reducible apply Keep.crcFailed | intro _ | split | dsimp only

theorem Keep.alignFlit {fs : List Field} {s t : State} (h : Keep fs s t) (p lane f crc)
    (hl : Sub [.ports] fs := by exact Sub.trans (by assumption) (by rfl)) :
    Keep fs s (State.alignFlit t p lane f crc) := by
  unfold State.alignFlit
  try dsimp only
  repeat' first
    | with_reducible exact h | with_reducible assumption | exact Sub.trans (by assumption) (by rfl)
    | with_reducible apply Keep.setPort | intro _ | split | dsimp only

theorem Keep.flitReceive {fs : List Field} {s t : State} (h : Keep fs s t) (p lane flit crc)
    (hl : Sub [.regs, .shad, .store, .full, .banks, .xbar, .parked, .owners, .endedOwners, .stage, .cores,
      .islands, .queues, .ops, .nextOp, .ports, .out, .outst, .vecBusy, .groups, .sb, .latched, .securing,
      .power, .health, .replay, .journal, .jfloor, .mute, .shut, .shutResult, .commitHold, .injected,
      .free] fs :=
        by exact Sub.trans (by assumption) (by rfl)) :
    Keep fs s (State.flitReceive t p lane flit crc) := by
  unfold State.flitReceive
  try dsimp only
  repeat' first
    | with_reducible exact h | with_reducible assumption | exact Sub.trans (by assumption) (by rfl)
    | with_reducible apply Keep.throughLane | with_reducible apply Keep.retrain
    | with_reducible apply Keep.alignFlit | with_reducible apply Keep.injectDone
    | with_reducible apply Keep.crcFailed | with_reducible apply Keep.numberedFlit
    | refine Keep.of_fst (by assumption) ?_ | refine Keep.of_snd (by assumption) ?_ | intro _ | split
    | dsimp only

theorem Keep.strobeLost {fs : List Field} {s t : State} (h : Keep fs s t) (p a2)
    (hl : Sub [.ports] fs := by exact Sub.trans (by assumption) (by rfl)) :
    Keep fs s (State.strobeLost t p a2) := by
  unfold State.strobeLost
  try dsimp only
  repeat' first
    | with_reducible exact h | with_reducible assumption | exact Sub.trans (by assumption) (by rfl)
    | with_reducible apply Keep.retrain | intro _ | split | dsimp only

theorem Keep.loadPart {fs : List Field} {s t : State} (h : Keep fs s t) (jcb q)
    (hl : Sub [.regs, .images] fs := by exact Sub.trans (by assumption) (by rfl)) :
    Keep fs s (State.loadPart t jcb q) := by
  unfold State.loadPart
  try dsimp only
  repeat' first
    | with_reducible exact h | with_reducible assumption | exact Sub.trans (by assumption) (by rfl)
    | with_reducible apply Keep.setRegN | intro _ | split | dsimp only | with_reducible apply Keep.upd
    | exact ⟨fun f hf => by cases f <;> first | with_reducible exact rfl |
        exact absurd (Sub.mem (by assumption) _ (by decide)) hf⟩

theorem Keep.journalStart {fs : List Field} {s t : State} (h : Keep fs s t) (v)
    (hl : Sub [.regs, .ports, .out, .outst, .vecBusy, .power, .health, .journal, .jfloor, .images, .free] fs :=
        by exact Sub.trans (by assumption) (by rfl)) : Keep fs s (State.journalStart t v) := by
  unfold State.journalStart
  extract_lets s1
  have h1 : Keep fs s s1 := Keep.viewReads h _ _ _ _ _ _
  split
  next floor s2 e2 =>
  have h2 : Keep fs s s2 := by
    split at e2
    · exact (Prod.mk.inj e2).2 ▸ Keep.foldl h1 fun u q hu => Keep.loadPart hu _ _
    · exact Keep.of_snd e2 (Keep.freshWord h1)
  extract_lets l s3 s4 s5
  have h3 : Keep fs s s3 := Keep.foldl h2 fun u e hu => Keep.viewReads hu _ _ _ _ _ _
  have h4 : Keep fs s s4 := Keep.setReg (Keep.setReg h3 _ _) _ _
  have h5 : Keep fs s s5 := Keep.congr h4 rfl rfl rfl rfl rfl
  split
  · exact Keep.raise h5 _ _
  · exact h5

theorem Keep.journalStop {fs : List Field} {s t : State} (h : Keep fs s t)
    (hl : Sub [.regs, .journal, .jfloor] fs := by exact Sub.trans (by assumption) (by rfl)) :
    Keep fs s (State.journalStop t) := by
  unfold State.journalStop
  try dsimp only
  repeat' first
    | with_reducible exact h | with_reducible assumption | exact Sub.trans (by assumption) (by rfl)
    | with_reducible apply Keep.setReg | intro _ | split | dsimp only | with_reducible apply Keep.upd
    | exact ⟨fun f hf => by cases f <;> first | with_reducible exact rfl |
        exact absurd (Sub.mem (by assumption) _ (by decide)) hf⟩

theorem Keep.retireTo {fs : List Field} {s t : State} (h : Keep fs s t) (q v)
    (hl : Sub [.regs, .ports, .out, .outst, .power, .journal] fs :=
        by exact Sub.trans (by assumption) (by rfl)) :
    Keep fs s (State.retireTo t q v) := by
  unfold State.retireTo
  try dsimp only
  repeat' first
    | with_reducible exact h | with_reducible assumption | exact Sub.trans (by assumption) (by rfl)
    | with_reducible apply Keep.setReg | with_reducible apply Keep.writeJcbPart
    | with_reducible apply Keep.moveFloor | intro _ | split | dsimp only

theorem Keep.reread {fs : List Field} {s t : State} (h : Keep fs s t) (i v)
    (hl : Sub [.regs, .shad, .store, .full, .banks, .xbar, .parked, .stage, .cores, .islands, .queues, .ops,
      .ports, .out, .outst, .vecBusy, .power, .health, .injected, .free] fs :=
        by exact Sub.trans (by assumption) (by rfl)) : Keep fs s (State.reread t i v).st := by
  unfold State.reread
  extract_lets a s1 b good q sa s2 d x
  have h1 : Keep fs s s1 := Keep.viewReads h _ _ _ _ _ _
  have h2 : Keep fs s s2 := by
    show Keep fs s (if _ then _ else _)
    split
    · exact Keep.viewReads h1 _ _ _ _ _ _
    · exact h1
  split
  next s3 gone e3 =>
  have h3 : Keep fs s s3 := Keep.of_fst e3 (Keep.readChain h2 _)
  split
  next f l e =>
  dsimp only
  split at e
  · exact (Prod.mk.inj e).1 ▸ Keep.fetchAll h3 _ _
  · exact (Prod.mk.inj e).1 ▸ h3

theorem Keep.countReplay {fs : List Field} {s t : State} (h : Keep fs s t)
    (hl : Sub [.regs, .health] fs := by exact Sub.trans (by assumption) (by rfl)) :
    Keep fs s (State.countReplay t) := by
  unfold State.countReplay
  try dsimp only
  repeat' first
    | with_reducible exact h | with_reducible assumption | exact Sub.trans (by assumption) (by rfl)
    | with_reducible apply Keep.incReg | intro _ | split | dsimp only | with_reducible apply Keep.upd
    | exact ⟨fun f hf => by cases f <;> first | with_reducible exact rfl |
        exact absurd (Sub.mem (by assumption) _ (by decide)) hf⟩

theorem Keep.dropMarks {fs : List Field} {s t : State} (h : Keep fs s t) (id)
    (hl : Sub [.cores, .ops] fs := by exact Sub.trans (by assumption) (by rfl)) :
    Keep fs s (State.dropMarks t id) := by
  unfold State.dropMarks
  try dsimp only
  repeat' first
    | with_reducible exact h | with_reducible assumption | exact Sub.trans (by assumption) (by rfl)
    | with_reducible apply Keep.mapCores | with_reducible apply Keep.modOp | intro _ | split | dsimp only

theorem Keep.rerun {fs : List Field} {s t : State} (h : Keep fs s t) (o v)
    (hl : Sub [.regs, .shad, .store, .full, .banks, .xbar, .closing, .owners, .endedOwners, .stage, .cores,
      .islands, .ops, .ports, .out, .outst, .vecBusy, .groups, .securing, .power, .health, .free] fs :=
        by exact Sub.trans (by assumption) (by rfl)) : Keep fs s (State.rerun t o v) := by
  unfold State.rerun
  extract_lets s1
  have h1 : Keep fs s s1 := Keep.modOp h _ _
  split
  · exact Keep.settle (Keep.launch h1 _) _
  · exact Keep.settle (Keep.foldl (Keep.modOp h1 _ _) fun u x hu => Keep.windowNext hu _ _) _
  · split
    · split
      · exact Keep.beginClose h1 _ _
      · exact h1
    · exact h1
  · exact h1
  · exact Keep.finish h1 _ _
  · exact Keep.flush (Keep.modOp h1 _ _) _ _ _
  · split
    · exact Keep.finish h1 _ _
    · exact Keep.fenceGo (Keep.modOp h1 _ _) _
  · exact Keep.secureRestart h1
  · exact Keep.finish h1 _ _
  · exact Keep.finish (Keep.restoreWork h1 _ _) _ _
  · exact Keep.scrubRun h1 _
  · exact Keep.finish h1 _ _
  · exact Keep.finish h1 _ _

theorem Keep.replayOp {fs : List Field} {s t : State} (h : Keep fs s t) (o v)
    (hl : Sub [.regs, .shad, .store, .full, .banks, .xbar, .parked, .closing, .owners, .endedOwners, .stage,
      .cores, .islands, .queues, .ops, .ports, .out, .outst, .vecBusy, .groups, .securing, .power, .health,
      .injected, .free] fs :=
        by exact Sub.trans (by assumption) (by rfl)) :
    Keep fs s (State.replayOp t o v) := by
  unfold State.replayOp
  try dsimp only
  repeat' first
    | with_reducible exact h | with_reducible assumption | exact Sub.trans (by assumption) (by rfl)
    | with_reducible apply Keep.countReplay | with_reducible apply Keep.replayFailed
    | with_reducible apply Keep.failWith | with_reducible apply Keep.reread
    | with_reducible apply Keep.dropMarks | with_reducible apply Keep.rerun | intro _ | split | dsimp only

theorem Keep.replayFlight {fs : List Field} {s t : State} (h : Keep fs s t) (v)
    (hl : Sub [.regs, .shad, .store, .full, .banks, .xbar, .parked, .closing, .owners, .endedOwners, .stage,
      .cores, .islands, .queues, .ops, .ports, .out, .outst, .vecBusy, .groups, .securing, .power, .health,
      .injected, .free] fs :=
        by exact Sub.trans (by assumption) (by rfl)) :
    Keep fs s (State.replayFlight t v) := by
  unfold State.replayFlight
  try dsimp only
  repeat' first
    | with_reducible exact h | with_reducible assumption | exact Sub.trans (by assumption) (by rfl)
    | with_reducible apply Keep.replayOp | intro _ | split | dsimp only

theorem Keep.setCursor {fs : List Field} {s t : State} (h : Keep fs s t) (jcb es q)
    (hl : Sub [.regs] fs := by exact Sub.trans (by assumption) (by rfl)) :
    Keep fs s (State.setCursor t jcb es q) := by
  unfold State.setCursor
  try dsimp only
  repeat' first
    | with_reducible exact h | with_reducible assumption | exact Sub.trans (by assumption) (by rfl)
    | with_reducible apply Keep.setReg | with_reducible apply Keep.foldl
    | with_reducible refine Keep.foldl' Prod.fst ?_ ?_ | intro _ | split | dsimp only

theorem Keep.restoreImage {fs : List Field} {s : State} {a : State × Option Nat} (h : Keep fs s a.1) (v es q)
    (hl : Sub [.regs, .shad, .store, .full, .banks, .owners, .endedOwners, .stage, .cores, .islands, .queues,
      .ports, .out, .outst, .vecBusy, .groups, .power, .health, .free] fs :=
        by exact Sub.trans (by assumption) (by rfl)) :
    Keep fs s (State.restoreImage a v es q).1 := by
  obtain ⟨t, st⟩ := a
  unfold State.restoreImage
  dsimp only
  split
  · exact Keep.restore h _ _ _ _ _ _ fun u k hu =>
      Keep.foldl (Keep.claimAll (Keep.taskAccepted hu _ _ _ _) _ _ _ _ _ _) fun w x hw => Keep.bumpGen hw _ _
  · exact h

theorem Keep.replayStart {fs : List Field} {s t : State} (h : Keep fs s t) (v)
    (hl : Sub [.regs, .shad, .store, .full, .banks, .owners, .endedOwners, .stage, .cores, .islands, .queues,
      .ports, .out, .outst, .vecBusy, .groups, .power, .health, .replay, .images, .free] fs :=
        by exact Sub.trans (by assumption) (by rfl)) : Keep fs s (State.replayStart t v) := by
  unfold State.replayStart
  extract_lets s1 jcb es s2 s3
  have h1 : Keep fs s s1 := Keep.viewReads h _ _ _ _ _ _
  have h2 : Keep fs s s2 := Keep.foldl h1 fun u q hu => Keep.setCursor (Keep.loadPart hu _ _) _ _ _
  have h3 : Keep fs s s3 := Keep.setReg h2 _ _
  split
  next s4 bad e =>
  have hf := Keep.foldl' (as := List.range 16) (g := fun acc q => State.restoreImage acc v es q) (b := (s3, none))
    Prod.fst h3 fun a q ha => Keep.restoreImage ha _ _ _
  rw [e] at hf
  split <;> exact Keep.congr hf rfl rfl rfl rfl rfl

theorem Keep.replayOver {fs : List Field} {s t : State} (h : Keep fs s t)
    (hl : Sub [.regs, .ports, .out, .outst, .vecBusy, .power, .replay, .recovery] fs :=
        by exact Sub.trans (by assumption) (by rfl)) :
    Keep fs s (State.replayOver t) := by
  unfold State.replayOver
  try dsimp only
  repeat' first
    | with_reducible exact h | with_reducible assumption | exact Sub.trans (by assumption) (by rfl)
    | with_reducible apply Keep.setReg | with_reducible apply Keep.raise | intro _ | split | dsimp only
    | with_reducible apply Keep.upd
    | exact ⟨fun f hf => by cases f <;> first | with_reducible exact rfl |
        exact absurd (Sub.mem (by assumption) _ (by decide)) hf⟩

theorem Keep.replayHalt {fs : List Field} {s t : State} (h : Keep fs s t) (q)
    (hl : Sub [.regs, .queues, .ports, .out, .outst, .vecBusy, .power] fs :=
        by exact Sub.trans (by assumption) (by rfl)) :
    Keep fs s (State.replayHalt t q) := by
  unfold State.replayHalt
  try dsimp only
  repeat' first
    | with_reducible exact h | with_reducible assumption | exact Sub.trans (by assumption) (by rfl)
    | with_reducible apply Keep.setQueue | with_reducible apply Keep.raise | intro _ | split | dsimp only

theorem Keep.replayStops {fs : List Field} {s t : State} (h : Keep fs s t) (i status v)
    (hl : Sub [.regs, .queues, .ops, .nextOp, .ports, .out, .outst, .vecBusy, .power, .replay, .recovery] fs :=
        by exact Sub.trans (by assumption) (by rfl)) :
    Keep fs s (State.replayStops t i status v) := by
  unfold State.replayStops
  try dsimp only
  repeat' first
    | with_reducible exact h | with_reducible assumption | exact Sub.trans (by assumption) (by rfl)
    | with_reducible apply Keep.setReg | with_reducible apply Keep.setRegN | with_reducible apply Keep.raise
    | with_reducible apply Keep.replayHalt | with_reducible apply Keep.foldl
    | with_reducible refine Keep.foldl' Prod.fst ?_ ?_ | intro _ | split | dsimp only
    | with_reducible apply Keep.upd
    | exact ⟨fun f hf => by cases f <;> first | with_reducible exact rfl |
        exact absurd (Sub.mem (by assumption) _ (by decide)) hf⟩

theorem Keep.entryFails {fs : List Field} {s t : State} (h : Keep fs s t) (i)
    (hl : Sub [.regs, .health, .replay] fs := by exact Sub.trans (by assumption) (by rfl)) :
    Keep fs s (State.entryFails t i) := by
  unfold State.entryFails
  try dsimp only
  repeat' first
    | with_reducible exact h | with_reducible assumption | exact Sub.trans (by assumption) (by rfl)
    | with_reducible apply Keep.replayFailed | intro _ | split | dsimp only | with_reducible apply Keep.upd
    | exact ⟨fun f hf => by cases f <;> first | with_reducible exact rfl |
        exact absurd (Sub.mem (by assumption) _ (by decide)) hf⟩

theorem Keep.putReplayed {fs : List Field} {s t : State} (h : Keep fs s t) (i e entry o)
    (hl : Sub [.ops] fs := by exact Sub.trans (by assumption) (by rfl)) :
    Keep fs s (State.putReplayed t i e entry o) := by
  unfold State.putReplayed
  try dsimp only
  repeat' first
    | with_reducible exact h | with_reducible assumption | exact Sub.trans (by assumption) (by rfl)
    | intro _ | split | dsimp only | with_reducible apply Keep.upd
    | exact ⟨fun f hf => by cases f <;> first | with_reducible exact rfl |
        exact absurd (Sub.mem (by assumption) _ (by decide)) hf⟩

theorem Keep.runSample {fs : List Field} {s t : State} (h : Keep fs s t) (i e v r id dark)
    (hl : Sub [.regs, .shad, .store, .full, .moved, .banks, .xbar, .closing, .owners, .endedOwners, .stage,
      .cores, .islands, .queues, .ops, .ports, .out, .outst, .vecBusy, .groups, .sec, .securing, .power,
      .health, .replay, .free] fs :=
        by exact Sub.trans (by assumption) (by rfl)) :
    Keep fs s (State.runSample t i e v r id dark) := by
  unfold State.runSample
  dsimp only
  split
  · exact Keep.finish (Keep.putReplayed h _ _ _ _) _ _
  · split
    · exact Keep.entryFails h _
    · have h2 := fun o dp => Keep.putReplayed (Keep.setQueue (Keep.claimAll h o r.sample.q r.sample.desc.job
        r.sample.context dark r.sample.desc.inherit) r.sample.q dp) i e r.entry
      split
      · exact Keep.startRun (Keep.firstWork (h2 _ _ _) _ _ _) _
      · exact h2 _ _ _

theorem Keep.enterEntry {fs : List Field} {s t : State} (h : Keep fs s t) (x)
    (hl : Sub [.regs, .shad, .store, .full, .banks, .owners, .endedOwners, .stage, .cores, .islands, .queues,
      .nextOp, .ports, .out, .outst, .vecBusy, .power] fs :=
        by exact Sub.trans (by assumption) (by rfl)) :
    Keep fs s (State.enterEntry t x) := by
  unfold State.enterEntry
  try dsimp only
  repeat' first
    | with_reducible exact h | with_reducible assumption | exact Sub.trans (by assumption) (by rfl)
    | with_reducible apply Keep.taskAccepted | with_reducible apply Keep.takeTicket | intro _ | split
    | dsimp only | with_reducible apply Keep.upd
    | exact ⟨fun f hf => by cases f <;> first | with_reducible exact rfl |
        exact absurd (Sub.mem (by assumption) _ (by decide)) hf⟩

theorem Keep.runEntry {fs : List Field} {s t : State} (h : Keep fs s t) (i e v)
    (hl : Sub [.regs, .shad, .store, .full, .moved, .banks, .xbar, .parked, .closing, .owners, .endedOwners,
      .stage, .cores, .islands, .queues, .ops, .nextOp, .ports, .out, .outst, .vecBusy, .groups, .sec,
      .securing, .power, .health, .replay, .injected, .free] fs :=
        by exact Sub.trans (by assumption) (by rfl)) : Keep fs s (State.runEntry t i e v) := by
  have hr := Keep.reread (Keep.countReplay h) i v
  unfold State.runEntry
  dsimp only
  split
  · exact Keep.entryFails hr _
  · refine Keep.runSample (Keep.takeTicket (Keep.taskAccepted ?_ _ _ _ _) _) _ _ _ _ _ _
    exact Keep.congr hr rfl rfl rfl rfl rfl

theorem Keep.replayEntry {fs : List Field} {s t : State} (h : Keep fs s t) (v)
    (hl : Sub [.regs, .shad, .store, .full, .moved, .banks, .xbar, .parked, .closing, .owners, .endedOwners,
      .stage, .cores, .islands, .queues, .ops, .nextOp, .ports, .out, .outst, .vecBusy, .groups, .sec,
      .securing, .power, .health, .replay, .recovery, .injected, .free] fs :=
        by exact Sub.trans (by assumption) (by rfl)) :
    Keep fs s (State.replayEntry t v) := by
  unfold State.replayEntry
  try dsimp only
  repeat' first
    | with_reducible exact h | with_reducible assumption | exact Sub.trans (by assumption) (by rfl)
    | with_reducible apply Keep.replayStops | with_reducible apply Keep.countReplay
    | with_reducible apply Keep.reread | with_reducible apply Keep.dropMarks | with_reducible apply Keep.rerun
    | with_reducible apply Keep.replayFailed | with_reducible apply Keep.failWith
    | with_reducible apply Keep.replayOver | with_reducible apply Keep.runEntry | intro _ | split | dsimp only
    | with_reducible apply Keep.upd
    | exact ⟨fun f hf => by cases f <;> first | with_reducible exact rfl |
        exact absurd (Sub.mem (by assumption) _ (by decide)) hf⟩

theorem Keep.tbaseFrame {fs : List Field} {s t : State} (h : Keep fs s t) (copy f)
    (hl : Sub [.regs, .shad, .store, .full, .banks, .xbar, .parked, .stage, .cores, .islands, .queues, .ops,
      .ports, .out, .outst, .vecBusy, .time, .sb, .latched, .power, .mute, .shut] fs :=
        by exact Sub.trans (by assumption) (by rfl)) : Keep fs s (State.tbaseFrame t copy f) := by
  have ht : ∀ (u : State) x, Keep fs s u → Keep fs s { u with time := x } :=
    fun u x hu => Keep.congr hu rfl rfl rfl rfl rfl
  have hi : ∀ (c : Bool), Keep fs s (if c then t.incReg 0x5110C else t) := by
    intro c
    split
    · exact Keep.incReg h _ _
    · exact h
  have hr : ∀ (c : Bool) (u : State) v, Keep fs s u → Keep fs s (if c then u.setReg 0x51110 v else u) := by
    intro c u v hu
    split
    · exact Keep.setReg hu _ _
    · exact hu
  have hc : ∀ (c : Prop) [Decidable c] (u v : State), Keep fs s u → Keep fs s v → Keep fs s (if c then u else v)
      := by
    intro c _ u v hu hv
    split
    · exact hu
    · exact hv
  unfold State.tbaseFrame
  refine hc _ _ _ h (hc _ _ _ (Keep.isolate (ht _ _ ?_) _ _) ?_) <;>
    exact hc _ _ _ (ht _ _ (hr _ _ _ (hi _))) (ht _ _ (hi _))

theorem Keep.timeBaseLost {fs : List Field} {s t : State} (h : Keep fs s t)
    (hl : Sub [.regs, .shad, .store, .full, .banks, .xbar, .parked, .stage, .cores, .islands, .queues, .ops,
      .ports, .out, .outst, .vecBusy, .time, .sb, .latched, .power, .mute, .shut] fs :=
        by exact Sub.trans (by assumption) (by rfl)) :
    Keep fs s (State.timeBaseLost t) := by
  unfold State.timeBaseLost
  try dsimp only
  repeat' first
    | with_reducible exact h | with_reducible assumption | exact Sub.trans (by assumption) (by rfl)
    | with_reducible apply Keep.isolate | intro _ | split | dsimp only | with_reducible apply Keep.upd
    | exact ⟨fun f hf => by cases f <;> first | with_reducible exact rfl |
        exact absurd (Sub.mem (by assumption) _ (by decide)) hf⟩

theorem Keep.setReference {fs : List Field} {s t : State} (h : Keep fs s t) (present)
    (hl : Sub [.regs, .time] fs := by exact Sub.trans (by assumption) (by rfl)) :
    Keep fs s (State.setReference t present) := by
  unfold State.setReference
  try dsimp only
  repeat' first
    | with_reducible exact h | with_reducible assumption | exact Sub.trans (by assumption) (by rfl)
    | with_reducible apply Keep.setRegF | intro _ | split | dsimp only | with_reducible apply Keep.upd
    | exact ⟨fun f hf => by cases f <;> first | with_reducible exact rfl |
        exact absurd (Sub.mem (by assumption) _ (by decide)) hf⟩

theorem Keep.refclkLost {fs : List Field} {s t : State} (h : Keep fs s t) (present)
    (hl : Sub [.regs, .shad, .store, .full, .banks, .xbar, .parked, .stage, .cores, .islands, .queues, .ops,
      .ports, .out, .outst, .vecBusy, .time, .sb, .latched, .power, .mute, .shut] fs :=
        by exact Sub.trans (by assumption) (by rfl)) :
    Keep fs s (State.refclkLost t present) := by
  unfold State.refclkLost
  try dsimp only
  repeat' first
    | with_reducible exact h | with_reducible assumption | exact Sub.trans (by assumption) (by rfl)
    | with_reducible apply Keep.setReference | with_reducible apply Keep.isolate | intro _ | split | dsimp only

theorem Keep.signalled {fs : List Field} {s t : State} (h : Keep fs s t) (a f) (hf : ∀ u, Keep fs s u → Keep fs s
      (f u))
    (hl : Sub [.ports, .out, .power] fs := by exact Sub.trans (by assumption) (by rfl)) :
    Keep fs s (State.signalled t a f) := by
  unfold State.signalled
  try dsimp only
  repeat' first
    | with_reducible exact h | with_reducible assumption | exact Sub.trans (by assumption) (by rfl)
    | with_reducible apply Keep.send | with_reducible apply hf | intro _ | split | dsimp only

theorem Keep.setPeer {fs : List Field} {s t : State} (h : Keep fs s t) (pos pkg st)
    (hl : Sub [.regs] fs := by exact Sub.trans (by assumption) (by rfl)) :
    Keep fs s (State.setPeer t pos pkg st) := by
  unfold State.setPeer
  try dsimp only
  repeat' first
    | with_reducible exact h | with_reducible assumption | exact Sub.trans (by assumption) (by rfl)
    | with_reducible apply Keep.setRegF | intro _ | split | dsimp only

theorem Keep.groupLost {fs : List Field} {s t : State} (h : Keep fs s t) (gi pos pkg)
    (hl : Sub [.regs, .ops, .ports, .out, .outst, .vecBusy, .groups, .securing, .power] fs :=
        by exact Sub.trans (by assumption) (by rfl)) :
    Keep fs s (State.groupLost t gi pos pkg) := by
  unfold State.groupLost
  try dsimp only
  repeat' first
    | with_reducible exact h | with_reducible assumption | exact Sub.trans (by assumption) (by rfl)
    | with_reducible apply Keep.setGroup | with_reducible apply Keep.raise | with_reducible apply Keep.failWith
    | with_reducible apply Keep.foldl | with_reducible refine Keep.foldl' Prod.fst ?_ ?_ | intro _ | split
    | dsimp only

theorem Keep.peerLost {fs : List Field} {s t : State} (h : Keep fs s t) (pos pkg)
    (hl : Sub [.regs, .ops, .ports, .out, .outst, .vecBusy, .groups, .securing, .power] fs :=
        by exact Sub.trans (by assumption) (by rfl)) :
    Keep fs s (State.peerLost t pos pkg) := by
  unfold State.peerLost
  try dsimp only
  repeat' first
    | with_reducible exact h | with_reducible assumption | exact Sub.trans (by assumption) (by rfl)
    | with_reducible apply Keep.setPeer | with_reducible apply Keep.incReg | with_reducible apply Keep.raise
    | with_reducible apply Keep.groupLost | with_reducible apply Keep.foldl
    | with_reducible refine Keep.foldl' Prod.fst ?_ ?_ | intro _ | split | dsimp only

theorem Keep.peerBack {fs : List Field} {s t : State} (h : Keep fs s t) (pos pkg)
    (hl : Sub [.regs] fs := by exact Sub.trans (by assumption) (by rfl)) :
    Keep fs s (State.peerBack t pos pkg) := by
  unfold State.peerBack
  try dsimp only
  repeat' first
    | with_reducible exact h | with_reducible assumption | exact Sub.trans (by assumption) (by rfl)
    | with_reducible apply Keep.setPeer | with_reducible apply Keep.incReg | intro _ | split | dsimp only

theorem Keep.peerSpare {fs : List Field} {s t : State} (h : Keep fs s t)
    (hl : Sub [.regs] fs := by exact Sub.trans (by assumption) (by rfl)) :
    Keep fs s (State.peerSpare t) := by
  unfold State.peerSpare
  try dsimp only
  repeat' first
    | with_reducible exact h | with_reducible assumption | exact Sub.trans (by assumption) (by rfl)
    | with_reducible apply Keep.incReg | intro _ | split | dsimp only

theorem Keep.resumeOps {fs : List Field} {s t : State} (h : Keep fs s t)
    (hl : Sub [.regs, .ops, .securing, .health, .replay] fs := by exact Sub.trans (by assumption) (by rfl)) :
    Keep fs s (State.resumeOps t) := by
  unfold State.resumeOps
  try dsimp only
  repeat' first
    | with_reducible exact h | with_reducible assumption | exact Sub.trans (by assumption) (by rfl)
    | with_reducible apply Keep.replayFailed | with_reducible apply Keep.failWith
    | with_reducible apply Keep.setRegF | with_reducible apply Keep.foldl
    | with_reducible refine Keep.foldl' Prod.fst ?_ ?_ | intro _ | split | dsimp only
    | with_reducible apply Keep.upd
    | exact ⟨fun f hf => by cases f <;> first | with_reducible exact rfl |
        exact absurd (Sub.mem (by assumption) _ (by decide)) hf⟩

theorem Keep.discordOps {fs : List Field} {s t : State} (h : Keep fs s t)
    (hl : Sub [.regs, .queues, .ops, .ports, .out, .outst, .vecBusy, .securing, .power, .replay] fs :=
        by exact Sub.trans (by assumption) (by rfl)) :
    Keep fs s (State.discordOps t) := by
  unfold State.discordOps
  try dsimp only
  repeat' first
    | with_reducible exact h | with_reducible assumption | exact Sub.trans (by assumption) (by rfl)
    | with_reducible apply Keep.failWith | with_reducible apply Keep.haltQueue | with_reducible apply Keep.foldl
    | with_reducible refine Keep.foldl' Prod.fst ?_ ?_ | intro _ | split | dsimp only
    | with_reducible apply Keep.upd
    | exact ⟨fun f hf => by cases f <;> first | with_reducible exact rfl |
        exact absurd (Sub.mem (by assumption) _ (by decide)) hf⟩

theorem Keep.groupsCut {fs : List Field} {s t : State} (h : Keep fs s t)
    (hl : Sub [.regs, .ports, .out, .outst, .vecBusy, .groups, .power] fs :=
        by exact Sub.trans (by assumption) (by rfl)) :
    Keep fs s (State.groupsCut t) := by
  unfold State.groupsCut
  try dsimp only
  repeat' first
    | with_reducible exact h | with_reducible assumption | exact Sub.trans (by assumption) (by rfl)
    | with_reducible apply Keep.setGroup | with_reducible apply Keep.raise | with_reducible apply Keep.foldl
    | with_reducible refine Keep.foldl' Prod.fst ?_ ?_ | intro _ | split | dsimp only

theorem Keep.setPosition {fs : List Field} {s t : State} (h : Keep fs s t) (v)
    (hl : Sub [.regs] fs := by exact Sub.trans (by assumption) (by rfl)) :
    Keep fs s (State.setPosition t v) := by
  unfold State.setPosition
  try dsimp only
  repeat' first
    | with_reducible exact h | with_reducible assumption | exact Sub.trans (by assumption) (by rfl)
    | with_reducible apply Keep.setRegN | intro _ | split | dsimp only

theorem Keep.dropCursor {fs : List Field} {s t : State} (h : Keep fs s t)
    (hl : Sub [.regs, .ops, .journal, .jfloor] fs := by exact Sub.trans (by assumption) (by rfl)) :
    Keep fs s (State.dropCursor t) := by
  unfold State.dropCursor
  try dsimp only
  repeat' first
    | with_reducible exact h | with_reducible assumption | exact Sub.trans (by assumption) (by rfl)
    | with_reducible apply Keep.journalStop | with_reducible apply Keep.setRegF | intro _ | split | dsimp only
    | with_reducible apply Keep.upd
    | exact ⟨fun f hf => by cases f <;> first | with_reducible exact rfl |
        exact absurd (Sub.mem (by assumption) _ (by decide)) hf⟩

theorem Keep.resendAll {fs : List Field} {s t : State} (h : Keep fs s t)
    (hl : Sub [.regs, .ports, .out, .outst, .vecBusy, .power] fs :=
        by exact Sub.trans (by assumption) (by rfl)) :
    Keep fs s (State.resendAll t) := by
  unfold State.resendAll
  try dsimp only
  repeat' first
    | with_reducible exact h | with_reducible assumption | exact Sub.trans (by assumption) (by rfl)
    | with_reducible apply Keep.vectorResend | with_reducible apply Keep.foldl
    | with_reducible refine Keep.foldl' Prod.fst ?_ ?_ | intro _ | split | dsimp only

theorem Keep.grant {fs : List Field} {s t : State} (h : Keep fs s t) (v)
    (hl : Sub [.regs, .queues, .ops, .ports, .out, .outst, .vecBusy, .groups, .sb, .securing, .power, .health,
      .replay, .journal, .jfloor, .recovery, .free] fs :=
        by exact Sub.trans (by assumption) (by rfl)) :
    Keep fs s (State.grant t v) := by
  unfold State.grant
  try dsimp only
  repeat' first
    | with_reducible exact h | with_reducible assumption | exact Sub.trans (by assumption) (by rfl)
    | with_reducible apply Keep.setPosition | with_reducible apply Keep.nextStep
    | with_reducible apply Keep.raiseIbi | with_reducible apply Keep.resendAll
    | with_reducible apply Keep.dropCursor | with_reducible apply Keep.groupsCut
    | with_reducible apply Keep.resumeOps | with_reducible apply Keep.discordOps
    | with_reducible apply Keep.writeJcbHeader | intro _ | split | dsimp only | with_reducible apply Keep.upd
    | exact ⟨fun f hf => by cases f <;> first | with_reducible exact rfl |
        exact absurd (Sub.mem (by assumption) _ (by decide)) hf⟩

theorem Keep.deny {fs : List Field} {s t : State} (h : Keep fs s t)
    (hl : Sub [.regs, .shad, .store, .full, .banks, .xbar, .parked, .stage, .cores, .islands, .queues, .ops,
      .ports, .out, .outst, .vecBusy, .sb, .latched, .power, .mute, .shut] fs :=
        by exact Sub.trans (by assumption) (by rfl)) :
    Keep fs s (State.deny t) := by
  unfold State.deny
  try dsimp only
  repeat' first
    | with_reducible exact h | with_reducible assumption | exact Sub.trans (by assumption) (by rfl)
    | with_reducible apply Keep.bootFail | with_reducible apply Keep.goIsolated | intro _ | split | dsimp only

theorem Keep.readmit {fs : List Field} {s t : State} (h : Keep fs s t)
    (hl : Sub [.regs] fs := by exact Sub.trans (by assumption) (by rfl)) :
    Keep fs s (State.readmit t) := by
  unfold State.readmit
  try dsimp only
  repeat' first
    | with_reducible exact h | with_reducible assumption | exact Sub.trans (by assumption) (by rfl)
    | with_reducible apply Keep.setRegN | intro _ | split | dsimp only

theorem Keep.readmitTrain {fs : List Field} {s t : State} (h : Keep fs s t) (copies obs)
    (hl : Sub [.regs, .shad, .store, .full, .banks, .xbar, .parked, .stage, .cores, .islands, .queues, .ops,
      .ports, .out, .outst, .vecBusy, .time, .sb, .latched, .power, .health, .mute, .shut, .injected] fs :=
        by exact Sub.trans (by assumption) (by rfl)) :
    Keep fs s (State.readmitTrain t copies obs) := by
  unfold State.readmitTrain
  try dsimp only
  repeat' first
    | with_reducible exact h | with_reducible assumption | exact Sub.trans (by assumption) (by rfl)
    | with_reducible apply Keep.setReference | with_reducible apply Keep.latchIso
    | with_reducible apply Keep.setRegN | with_reducible apply Keep.setRung | with_reducible apply Keep.trainAll
    | with_reducible apply Keep.goIsolated | with_reducible apply Keep.sideSignal
    | with_reducible apply Keep.raiseIbi | refine Keep.of_fst (by assumption) ?_
    | refine Keep.of_snd (by assumption) ?_ | intro _ | split | dsimp only | with_reducible apply Keep.upd
    | exact ⟨fun f hf => by cases f <;> first | with_reducible exact rfl |
        exact absurd (Sub.mem (by assumption) _ (by decide)) hf⟩

theorem Keep.takePosition {fs : List Field} {s t : State} (h : Keep fs s t) (v)
    (hl : Sub [.regs, .ports, .out, .outst, .power] fs := by exact Sub.trans (by assumption) (by rfl)) :
    Keep fs s (State.takePosition t v) := by
  unfold State.takePosition
  try dsimp only
  repeat' first
    | with_reducible exact h | with_reducible assumption | exact Sub.trans (by assumption) (by rfl)
    | with_reducible apply Keep.setRegF | with_reducible apply Keep.setRegN
    | with_reducible apply Keep.sideSignal | intro _ | split | dsimp only

theorem Keep.softSignal {fs : List Field} {s t : State} (h : Keep fs s t) (a code)
    (hl : Sub [.regs, .ports, .out, .outst, .vecBusy, .power] fs :=
        by exact Sub.trans (by assumption) (by rfl)) : Keep fs s (State.softSignal t a code) := by
  unfold State.softSignal
  split
  · split
    · exact Keep.protocolError h _ _ _
    · exact h
  · exact Keep.signalled h _ _ fun u hu => Keep.incReg (Keep.setRegN hu _ _) _ _

theorem Keep.form {fs : List Field} {s t : State} (h : Keep fs s t) (gi)
    (hl : Sub [.ports, .out, .outst, .groups, .power] fs := by exact Sub.trans (by assumption) (by rfl)) :
    Keep fs s (State.form t gi) := by
  unfold State.form
  try dsimp only
  repeat' first
    | with_reducible exact h | with_reducible assumption | exact Sub.trans (by assumption) (by rfl)
    | with_reducible apply Keep.setGroup | with_reducible apply Keep.concordStart | intro _ | split | dsimp only

theorem Keep.dissolve {fs : List Field} {s t : State} (h : Keep fs s t) (gi)
    (hl : Sub [.ops, .groups, .securing] fs := by exact Sub.trans (by assumption) (by rfl)) :
    Keep fs s (State.dissolve t gi) := by
  unfold State.dissolve
  try dsimp only
  repeat' first
    | with_reducible exact h | with_reducible assumption | exact Sub.trans (by assumption) (by rfl)
    | with_reducible apply Keep.setGroup | with_reducible apply Keep.failWith | intro _ | split | dsimp only

theorem Keep.concordRound {fs : List Field} {s t : State} (h : Keep fs s t) (gi)
    (hl : Sub [.ports, .out, .outst, .groups, .power] fs := by exact Sub.trans (by assumption) (by rfl)) :
    Keep fs s (State.concordRound t gi) := by
  unfold State.concordRound
  try dsimp only
  repeat' first
    | with_reducible exact h | with_reducible assumption | exact Sub.trans (by assumption) (by rfl)
    | with_reducible apply Keep.concordSecond | intro _ | split | dsimp only

theorem Keep.concordEvaluate {fs : List Field} {s t : State} (h : Keep fs s t) (gi)
    (hl : Sub [.regs, .ops, .ports, .out, .outst, .vecBusy, .groups, .securing, .power, .free] fs :=
        by exact Sub.trans (by assumption) (by rfl)) :
    Keep fs s (State.concordEvaluate t gi) := by
  unfold State.concordEvaluate
  try dsimp only
  repeat' first
    | with_reducible exact h | with_reducible assumption | exact Sub.trans (by assumption) (by rfl)
    | with_reducible apply Keep.freshWord | with_reducible apply Keep.setGroup
    | with_reducible apply Keep.groupVerdict | refine Keep.of_fst (by assumption) ?_
    | refine Keep.of_snd (by assumption) ?_ | with_reducible apply Keep.foldl
    | with_reducible refine Keep.foldl' Prod.fst ?_ ?_ | intro _ | split | dsimp only

end Sys2Proof.Machine
end

