-- ==== Sys2Proof/Laws/KeepBlock.lean ====
section
/-!
SUPPORT. Power, heat, the cryptographic boundary, commits, resets, start-up and register accesses: what each does to
the parts of the state that the invariants speak of (`Keep`).
-/

namespace Sys2Proof.Machine

set_option Elab.async false
set_option linter.unusedTactic false
set_option linter.unreachableTactic false
set_option linter.unusedVariables false

theorem Keep.setDomainStep {fs : List Field} {s t : State} (h : Keep fs s t) (d v)
    (hl : Sub [.regs] fs := by exact Sub.trans (by assumption) (by rfl)) :
    Keep fs s (State.setDomainStep t d v) := by
  unfold State.setDomainStep
  try dsimp only
  repeat' first
    | with_reducible exact h | with_reducible assumption | exact Sub.trans (by assumption) (by rfl)
    | with_reducible apply Keep.setRegF | intro _ | split | dsimp only

theorem Keep.credit {fs : List Field} {s t : State} (h : Keep fs s t) (job e)
    (hl : Sub [.power] fs := by exact Sub.trans (by assumption) (by rfl)) :
    Keep fs s (State.credit t job e).1 := by
  unfold State.credit
  try dsimp only
  repeat' first
    | with_reducible exact h | with_reducible assumption | exact Sub.trans (by assumption) (by rfl)
    | intro _ | split | dsimp only | with_reducible apply Keep.upd
    | exact ⟨fun f hf => by cases f <;> first | with_reducible exact rfl |
        exact absurd (Sub.mem (by assumption) _ (by decide)) hf⟩

theorem Keep.addInterval {fs : List Field} {s t : State} (h : Keep fs s t) (e)
    (hl : Sub [.power] fs := by exact Sub.trans (by assumption) (by rfl)) :
    Keep fs s (State.addInterval t e) := by
  unfold State.addInterval
  try dsimp only
  repeat' first
    | with_reducible exact h | with_reducible assumption | exact Sub.trans (by assumption) (by rfl)
    | refine Keep.of_fst (by assumption) ?_ | refine Keep.of_snd (by assumption) ?_
    | with_reducible apply Keep.foldl | with_reducible refine Keep.foldl' Prod.fst ?_ ?_ | intro _ | split
    | dsimp only | with_reducible apply Keep.upd
    | exact ⟨fun f hf => by cases f <;> first | with_reducible exact rfl |
        exact absurd (Sub.mem (by assumption) _ (by decide)) hf⟩

theorem Keep.showPower {fs : List Field} {s t : State} (h : Keep fs s t)
    (hl : Sub [.regs] fs := by exact Sub.trans (by assumption) (by rfl)) :
    Keep fs s (State.showPower t) := by
  unfold State.showPower
  try dsimp only
  repeat' first
    | with_reducible exact h | with_reducible assumption | exact Sub.trans (by assumption) (by rfl)
    | with_reducible apply Keep.setRegN | with_reducible apply Keep.foldl
    | with_reducible refine Keep.foldl' Prod.fst ?_ ?_ | intro _ | split | dsimp only

theorem Keep.showEstimates {fs : List Field} {s t : State} (h : Keep fs s t) (e)
    (hl : Sub [.regs, .power] fs := by exact Sub.trans (by assumption) (by rfl)) :
    Keep fs s (State.showEstimates t e) := by
  unfold State.showEstimates
  try dsimp only
  repeat' first
    | with_reducible exact h | with_reducible assumption | exact Sub.trans (by assumption) (by rfl)
    | with_reducible apply Keep.setRegN | with_reducible apply Keep.addInterval
    | with_reducible apply Keep.foldl | with_reducible refine Keep.foldl' Prod.fst ?_ ?_ | intro _ | split
    | dsimp only

theorem Keep.account {fs : List Field} {s t : State} (h : Keep fs s t) (e)
    (hl : Sub [.regs, .power] fs :=
        by exact Sub.trans (by assumption) (by rfl)) :
    Keep fs s (State.account t e) := by
  unfold State.account
  extract_lets total
  split
  next s1 dyn given e1 =>
  have h1 : Keep fs s s1 := by
    rw [← show _ = s1 from congrArg Prod.fst e1]
    exact Keep.foldl' (β := State × Nat × Nat) Prod.fst h fun x a hx => Keep.credit hx _ _
  extract_lets link static
  split
  next s2 given2 e2 =>
  have h2 : Keep fs s s2 := by
    rw [← show _ = s2 from congrArg Prod.fst e2]
    exact Keep.foldl' (β := State × Nat) Prod.fst h1 fun x p hx => Keep.credit hx _ _
  split
  next s3 given3 e3 =>
  have h3 : Keep fs s s3 := by
    rw [← show _ = s3 from congrArg Prod.fst e3]
    exact Keep.foldl' (β := State × Nat) Prod.fst h2 fun x p hx => Keep.credit hx _ _
  refine Keep.showPower ?_
  with_reducible apply Keep.upd
  · exact ⟨fun f hf => by cases f <;> first | with_reducible exact rfl |
      exact absurd (Sub.mem (by assumption) _ (by decide)) hf⟩
  · exact Keep.showEstimates h3 e

theorem Keep.emergency {fs : List Field} {s t : State} (h : Keep fs s t) (mw)
    (hl : Sub [.regs, .islands, .ports, .out, .outst, .vecBusy, .power] fs :=
        by exact Sub.trans (by assumption) (by rfl)) :
    Keep fs s (State.emergency t mw) := by
  unfold State.emergency
  try dsimp only
  repeat' first
    | with_reducible exact h | with_reducible assumption | exact Sub.trans (by assumption) (by rfl)
    | with_reducible apply Keep.setIsland | with_reducible apply Keep.incReg | with_reducible apply Keep.raise
    | with_reducible apply Keep.foldl | with_reducible refine Keep.foldl' Prod.fst ?_ ?_ | intro _ | split
    | dsimp only

theorem Keep.emergencyLift {fs : List Field} {s t : State} (h : Keep fs s t)
    (hl : Sub [.islands] fs := by exact Sub.trans (by assumption) (by rfl)) :
    Keep fs s (State.emergencyLift t) := by
  unfold State.emergencyLift
  try dsimp only
  repeat' first
    | with_reducible exact h | with_reducible assumption | exact Sub.trans (by assumption) (by rfl)
    | with_reducible apply Keep.setIsland | with_reducible apply Keep.foldl
    | with_reducible refine Keep.foldl' Prod.fst ?_ ?_ | intro _ | split | dsimp only

theorem Keep.setSplit {fs : List Field} {s t : State} (h : Keep fs s t) (e l m)
    (hl : Sub [.regs] fs := by exact Sub.trans (by assumption) (by rfl)) :
    Keep fs s (State.setSplit t e l m) := by
  unfold State.setSplit
  try dsimp only
  repeat' first
    | with_reducible exact h | with_reducible assumption | exact Sub.trans (by assumption) (by rfl)
    | with_reducible apply Keep.setRegN | intro _ | split | dsimp only

theorem Keep.learnAllocate {fs : List Field} {s t : State} (h : Keep fs s t)
    (hl : Sub [.regs, .power] fs := by exact Sub.trans (by assumption) (by rfl)) :
    Keep fs s (State.learnAllocate t) := by
  unfold State.learnAllocate
  try dsimp only
  repeat' first
    | with_reducible exact h | with_reducible assumption | exact Sub.trans (by assumption) (by rfl)
    | with_reducible apply Keep.setRegN | with_reducible apply Keep.setSplit | with_reducible apply Keep.foldl
    | with_reducible refine Keep.foldl' Prod.fst ?_ ?_ | intro _ | split | dsimp only
    | with_reducible apply Keep.upd
    | exact ⟨fun f hf => by cases f <;> first | with_reducible exact rfl |
        exact absurd (Sub.mem (by assumption) _ (by decide)) hf⟩

theorem Keep.learnUpdate {fs : List Field} {s t : State} (h : Keep fs s t) (i)
    (hl : Sub [.regs] fs := by exact Sub.trans (by assumption) (by rfl)) :
    Keep fs s (State.learnUpdate t i) := by
  unfold State.learnUpdate
  try dsimp only
  repeat' first
    | with_reducible exact h | with_reducible assumption | exact Sub.trans (by assumption) (by rfl)
    | with_reducible apply Keep.setSplit | with_reducible apply Keep.foldl
    | with_reducible refine Keep.foldl' Prod.fst ?_ ?_ | intro _ | split | dsimp only

theorem Keep.steerDomain {fs : List Field} {s t : State} (h : Keep fs s t) (d target)
    (hl : Sub [.sb, .power] fs := by exact Sub.trans (by assumption) (by rfl)) :
    Keep fs s (State.steerDomain t d target) := by
  unfold State.steerDomain
  try dsimp only
  repeat' first
    | with_reducible exact h | with_reducible assumption | exact Sub.trans (by assumption) (by rfl)
    | intro _ | split | dsimp only | with_reducible apply Keep.upd
    | exact ⟨fun f hf => by cases f <;> first | with_reducible exact rfl |
        exact absurd (Sub.mem (by assumption) _ (by decide)) hf⟩

theorem Keep.control {fs : List Field} {s t : State} (h : Keep fs s t) (e run)
    (hl : Sub [.regs, .islands, .sb, .power] fs := by exact Sub.trans (by assumption) (by rfl)) :
    Keep fs s (State.control t e run) := by
  unfold State.control
  try dsimp only
  repeat' first
    | with_reducible exact h | with_reducible assumption | exact Sub.trans (by assumption) (by rfl)
    | with_reducible apply Keep.setIsland | with_reducible apply Keep.steerDomain
    | with_reducible apply Keep.setRegN | with_reducible apply Keep.foldl
    | with_reducible refine Keep.foldl' Prod.fst ?_ ?_ | intro _ | split | dsimp only
    | with_reducible apply Keep.upd
    | exact ⟨fun f hf => by cases f <;> first | with_reducible exact rfl |
        exact absurd (Sub.mem (by assumption) _ (by decide)) hf⟩

theorem Keep.controlPeriod {fs : List Field} {s t : State} (h : Keep fs s t)
    (hl : Sub [.regs, .islands, .ports, .out, .outst, .vecBusy, .sb, .power] fs :=
        by exact Sub.trans (by assumption) (by rfl)) :
    Keep fs s (State.controlPeriod t) := by
  unfold State.controlPeriod
  try dsimp only
  repeat' first
    | with_reducible exact h | with_reducible assumption | exact Sub.trans (by assumption) (by rfl)
    | with_reducible apply Keep.account | with_reducible apply Keep.emergency
    | with_reducible apply Keep.learnAllocate | with_reducible apply Keep.setRegN
    | with_reducible apply Keep.control | with_reducible apply Keep.foldl
    | with_reducible refine Keep.foldl' Prod.fst ?_ ?_ | intro _ | split | dsimp only

theorem Keep.calibrate {fs : List Field} {s t : State} (h : Keep fs s t) (i d)
    (hl : Sub [.regs, .ports, .out, .outst, .vecBusy, .power] fs :=
        by exact Sub.trans (by assumption) (by rfl)) :
    Keep fs s (State.calibrate t i d) := by
  unfold State.calibrate
  try dsimp only
  repeat' first
    | with_reducible exact h | with_reducible assumption | exact Sub.trans (by assumption) (by rfl)
    | with_reducible apply Keep.setRegN | with_reducible apply Keep.capture | with_reducible apply Keep.raise
    | intro _ | split | dsimp only

theorem Keep.measure {fs : List Field} {s t : State} (h : Keep fs s t) (n)
    (hl : Sub [.regs, .ports, .out, .outst, .vecBusy, .power] fs :=
        by exact Sub.trans (by assumption) (by rfl)) :
    Keep fs s (State.measure t n) := by
  unfold State.measure
  try dsimp only
  repeat' first
    | with_reducible exact h | with_reducible assumption | exact Sub.trans (by assumption) (by rfl)
    | with_reducible apply Keep.capture | with_reducible apply Keep.setRegF
    | with_reducible apply Keep.calibrate | with_reducible apply Keep.learnUpdate
    | with_reducible apply Keep.foldl | with_reducible refine Keep.foldl' Prod.fst ?_ ?_ | intro _ | split
    | dsimp only

theorem Keep.calStale {fs : List Field} {s t : State} (h : Keep fs s t)
    (hl : Sub [.regs, .ports, .out, .outst, .vecBusy, .power] fs :=
        by exact Sub.trans (by assumption) (by rfl)) :
    Keep fs s (State.calStale t) := by
  unfold State.calStale
  try dsimp only
  repeat' first
    | with_reducible exact h | with_reducible assumption | exact Sub.trans (by assumption) (by rfl)
    | with_reducible apply Keep.setRegF | with_reducible apply Keep.raise | intro _ | split | dsimp only

theorem Keep.learnClear {fs : List Field} {s t : State} (h : Keep fs s t)
    (hl : Sub [.regs, .power] fs := by exact Sub.trans (by assumption) (by rfl)) :
    Keep fs s (State.learnClear t) := by
  unfold State.learnClear
  try dsimp only
  repeat' first
    | with_reducible exact h | with_reducible assumption | exact Sub.trans (by assumption) (by rfl)
    | with_reducible apply Keep.setReg | with_reducible apply Keep.foldl
    | with_reducible refine Keep.foldl' Prod.fst ?_ ?_ | intro _ | split | dsimp only
    | with_reducible apply Keep.upd
    | exact ⟨fun f hf => by cases f <;> first | with_reducible exact rfl |
        exact absurd (Sub.mem (by assumption) _ (by decide)) hf⟩

theorem Keep.stepConfirm {fs : List Field} {s t : State} (h : Keep fs s t) (d)
    (hl : Sub [.regs, .sb, .power] fs := by exact Sub.trans (by assumption) (by rfl)) :
    Keep fs s (State.stepConfirm t d) := by
  unfold State.stepConfirm
  try dsimp only
  repeat' first
    | with_reducible exact h | with_reducible assumption | exact Sub.trans (by assumption) (by rfl)
    | with_reducible apply Keep.setDomainStep | intro _ | split | dsimp only | with_reducible apply Keep.upd
    | exact ⟨fun f hf => by cases f <;> first | with_reducible exact rfl |
        exact absurd (Sub.mem (by assumption) _ (by decide)) hf⟩

theorem Keep.vokRise {fs : List Field} {s t : State} (h : Keep fs s t) (d)
    (hl : Sub [.regs, .sb] fs := by exact Sub.trans (by assumption) (by rfl)) :
    Keep fs s (State.vokRise t d) := by
  unfold State.vokRise
  try dsimp only
  repeat' first
    | with_reducible exact h | with_reducible assumption | exact Sub.trans (by assumption) (by rfl)
    | with_reducible apply Keep.setDomainStep | with_reducible apply Keep.vreqZero | intro _ | split
    | dsimp only | with_reducible apply Keep.upd
    | exact ⟨fun f hf => by cases f <;> first | with_reducible exact rfl |
        exact absurd (Sub.mem (by assumption) _ (by decide)) hf⟩

theorem Keep.supplyHold {fs : List Field} {s t : State} (h : Keep fs s t) (d cause bits)
    (hl : Sub [.regs, .islands, .ports, .out, .outst, .vecBusy, .power] fs :=
        by exact Sub.trans (by assumption) (by rfl)) :
    Keep fs s (State.supplyHold t d cause bits) := by
  unfold State.supplyHold
  try dsimp only
  repeat' first
    | with_reducible exact h | with_reducible assumption | exact Sub.trans (by assumption) (by rfl)
    | with_reducible apply Keep.setIsland | with_reducible apply Keep.setRegF
    | with_reducible apply Keep.capture | with_reducible apply Keep.raise | with_reducible apply Keep.foldl
    | with_reducible refine Keep.foldl' Prod.fst ?_ ?_ | intro _ | split | dsimp only

theorem Keep.supplyFault {fs : List Field} {s t : State} (h : Keep fs s t) (d)
    (hl : Sub [.regs, .islands, .ports, .out, .outst, .vecBusy, .sb, .power] fs :=
        by exact Sub.trans (by assumption) (by rfl)) :
    Keep fs s (State.supplyFault t d) := by
  unfold State.supplyFault
  try dsimp only
  repeat' first
    | with_reducible exact h | with_reducible assumption | exact Sub.trans (by assumption) (by rfl)
    | with_reducible apply Keep.supplyHold | intro _ | split | dsimp only | with_reducible apply Keep.upd
    | exact ⟨fun f hf => by cases f <;> first | with_reducible exact rfl |
        exact absurd (Sub.mem (by assumption) _ (by decide)) hf⟩

theorem Keep.vokLate {fs : List Field} {s t : State} (h : Keep fs s t) (d)
    (hl : Sub [.regs, .islands, .ports, .out, .outst, .vecBusy, .power] fs :=
        by exact Sub.trans (by assumption) (by rfl)) :
    Keep fs s (State.vokLate t d) := by
  unfold State.vokLate
  try dsimp only
  repeat' first
    | with_reducible exact h | with_reducible assumption | exact Sub.trans (by assumption) (by rfl)
    | with_reducible apply Keep.supplyHold | intro _ | split | dsimp only

theorem Keep.supplyFaultEnd {fs : List Field} {s t : State} (h : Keep fs s t) (d)
    (hl : Sub [.regs, .islands, .sb] fs := by exact Sub.trans (by assumption) (by rfl)) :
    Keep fs s (State.supplyFaultEnd t d) := by
  unfold State.supplyFaultEnd
  try dsimp only
  repeat' first
    | with_reducible exact h | with_reducible assumption | exact Sub.trans (by assumption) (by rfl)
    | with_reducible apply Keep.setIsland | with_reducible apply Keep.vokRise
    | with_reducible apply Keep.setRegF | with_reducible apply Keep.foldl
    | with_reducible refine Keep.foldl' Prod.fst ?_ ?_ | intro _ | split | dsimp only

theorem Keep.droopDetect {fs : List Field} {s t : State} (h : Keep fs s t) (i)
    (hl : Sub [.regs, .islands, .ports, .out, .outst, .vecBusy, .power, .health] fs :=
        by exact Sub.trans (by assumption) (by rfl)) :
    Keep fs s (State.droopDetect t i) := by
  unfold State.droopDetect
  try dsimp only
  repeat' first
    | with_reducible exact h | with_reducible assumption | exact Sub.trans (by assumption) (by rfl)
    | with_reducible apply Keep.incReg | with_reducible apply Keep.setIsland | with_reducible apply Keep.raise
    | intro _ | split | dsimp only | with_reducible apply Keep.upd
    | exact ⟨fun f hf => by cases f <;> first | with_reducible exact rfl |
        exact absurd (Sub.mem (by assumption) _ (by decide)) hf⟩

theorem Keep.droopQuiet {fs : List Field} {s t : State} (h : Keep fs s t) (i)
    (hl : Sub [.islands] fs := by exact Sub.trans (by assumption) (by rfl)) :
    Keep fs s (State.droopQuiet t i) := by
  unfold State.droopQuiet
  try dsimp only
  repeat' first
    | with_reducible exact h | with_reducible assumption | exact Sub.trans (by assumption) (by rfl)
    | with_reducible apply Keep.setIsland | intro _ | split | dsimp only

theorem Keep.setThrottled {fs : List Field} {s t : State} (h : Keep fs s t) (n b)
    (hl : Sub [.regs] fs := by exact Sub.trans (by assumption) (by rfl)) :
    Keep fs s (State.setThrottled t n b) := by
  unfold State.setThrottled
  try dsimp only
  repeat' first
    | with_reducible exact h | with_reducible assumption | exact Sub.trans (by assumption) (by rfl)
    | with_reducible apply Keep.setRegF | intro _ | split | dsimp only

theorem Keep.setSensorFailed {fs : List Field} {s t : State} (h : Keep fs s t) (n b)
    (hl : Sub [.regs] fs := by exact Sub.trans (by assumption) (by rfl)) :
    Keep fs s (State.setSensorFailed t n b) := by
  unfold State.setSensorFailed
  try dsimp only
  repeat' first
    | with_reducible exact h | with_reducible assumption | exact Sub.trans (by assumption) (by rfl)
    | with_reducible apply Keep.setRegF | intro _ | split | dsimp only

theorem Keep.failSensor {fs : List Field} {s t : State} (h : Keep fs s t) (n)
    (hl : Sub [.regs, .ports, .out, .outst, .vecBusy, .power] fs :=
        by exact Sub.trans (by assumption) (by rfl)) :
    Keep fs s (State.failSensor t n) := by
  unfold State.failSensor
  try dsimp only
  repeat' first
    | with_reducible exact h | with_reducible assumption | exact Sub.trans (by assumption) (by rfl)
    | with_reducible apply Keep.setSensorFailed | with_reducible apply Keep.setThrottled
    | with_reducible apply Keep.capture | with_reducible apply Keep.raise | intro _ | split | dsimp only

theorem Keep.showTemp {fs : List Field} {s t : State} (h : Keep fs s t) (n x)
    (hl : Sub [.regs, .free] fs := by exact Sub.trans (by assumption) (by rfl)) :
    Keep fs s (State.showTemp t n x) := by
  unfold State.showTemp
  try dsimp only
  repeat' first
    | with_reducible exact h | with_reducible assumption | exact Sub.trans (by assumption) (by rfl)
    | with_reducible apply Keep.setRegN | with_reducible apply Keep.freshWord
    | refine Keep.of_fst (by assumption) ?_ | refine Keep.of_snd (by assumption) ?_ | intro _ | split
    | dsimp only

theorem Keep.workingSample {fs : List Field} {s t : State} (h : Keep fs s t) (n x)
    (hl : Sub [.regs, .shad, .store, .full, .moved, .banks, .xbar, .parked, .stage, .cores, .islands, .queues,
      .ops, .ports, .out, .outst, .vecBusy, .sb, .power, .therm, .mute, .stopped, .free] fs :=
        by exact Sub.trans (by assumption) (by rfl)) :
    Keep fs s (State.workingSample t n x) := by
  unfold State.workingSample
  try dsimp only
  repeat' first
    | with_reducible exact h | with_reducible assumption | exact Sub.trans (by assumption) (by rfl)
    | with_reducible apply Keep.setSensorFailed | with_reducible apply Keep.showTemp
    | with_reducible apply Keep.raise | with_reducible apply Keep.setThrottled
    | with_reducible apply Keep.stopDie | intro _ | split | dsimp only | with_reducible apply Keep.upd
    | exact ⟨fun f hf => by cases f <;> first | with_reducible exact rfl |
        exact absurd (Sub.mem (by assumption) _ (by decide)) hf⟩

theorem Keep.sampleSensor {fs : List Field} {s t : State} (h : Keep fs s t) (n r)
    (hl : Sub [.regs, .shad, .store, .full, .moved, .banks, .xbar, .parked, .stage, .cores, .islands, .queues,
      .ops, .ports, .out, .outst, .vecBusy, .sb, .power, .therm, .mute, .stopped, .free] fs :=
        by exact Sub.trans (by assumption) (by rfl)) :
    Keep fs s (State.sampleSensor t n r) := by
  unfold State.sampleSensor
  try dsimp only
  repeat' first
    | with_reducible exact h | with_reducible assumption | exact Sub.trans (by assumption) (by rfl)
    | with_reducible apply Keep.workingSample | with_reducible apply Keep.showTemp
    | with_reducible apply Keep.failSensor | intro _ | split | dsimp only | with_reducible apply Keep.upd
    | exact ⟨fun f hf => by cases f <;> first | with_reducible exact rfl |
        exact absurd (Sub.mem (by assumption) _ (by decide)) hf⟩

theorem Keep.thermalSample {fs : List Field} {s t : State} (h : Keep fs s t) (rs)
    (hl : Sub [.regs, .shad, .store, .full, .moved, .banks, .xbar, .parked, .stage, .cores, .islands, .queues,
      .ops, .ports, .out, .outst, .vecBusy, .sb, .power, .therm, .mute, .stopped, .free] fs :=
        by exact Sub.trans (by assumption) (by rfl)) :
    Keep fs s (State.thermalSample t rs) := by
  unfold State.thermalSample
  try dsimp only
  repeat' first
    | with_reducible exact h | with_reducible assumption | exact Sub.trans (by assumption) (by rfl)
    | with_reducible apply Keep.sampleSensor | with_reducible apply Keep.setRegN
    | with_reducible apply Keep.foldl | with_reducible refine Keep.foldl' Prod.fst ?_ ?_ | intro _ | split
    | dsimp only

theorem Keep.throttleStep {fs : List Field} {s t : State} (h : Keep fs s t) (n)
    (hl : Sub [.islands] fs := by exact Sub.trans (by assumption) (by rfl)) :
    Keep fs s (State.throttleStep t n) := by
  unfold State.throttleStep
  try dsimp only
  repeat' first
    | with_reducible exact h | with_reducible assumption | exact Sub.trans (by assumption) (by rfl)
    | with_reducible apply Keep.setIsland | with_reducible apply Keep.foldl
    | with_reducible refine Keep.foldl' Prod.fst ?_ ?_ | intro _ | split | dsimp only

theorem Keep.throttleRelease {fs : List Field} {s t : State} (h : Keep fs s t) (n)
    (hl : Sub [.islands] fs := by exact Sub.trans (by assumption) (by rfl)) :
    Keep fs s (State.throttleRelease t n) := by
  unfold State.throttleRelease
  try dsimp only
  repeat' first
    | with_reducible exact h | with_reducible assumption | exact Sub.trans (by assumption) (by rfl)
    | with_reducible apply Keep.setIsland | with_reducible apply Keep.foldl
    | with_reducible refine Keep.foldl' Prod.fst ?_ ?_ | intro _ | split | dsimp only

theorem Keep.stillEntry {fs : List Field} {s t : State} (h : Keep fs s t) (c)
    (hl : Sub [.regs] fs := by exact Sub.trans (by assumption) (by rfl)) :
    Keep fs s (State.stillEntry t c) := by
  unfold State.stillEntry
  try dsimp only
  repeat' first
    | with_reducible exact h | with_reducible assumption | exact Sub.trans (by assumption) (by rfl)
    | with_reducible apply Keep.setRegF | intro _ | split | dsimp only

theorem Keep.keepEntry {fs : List Field} {s t : State} (h : Keep fs s t) (c)
    (hl : Sub [.regs] fs := by exact Sub.trans (by assumption) (by rfl)) :
    Keep fs s (State.keepEntry t c) := by
  unfold State.keepEntry
  try dsimp only
  repeat' first
    | with_reducible exact h | with_reducible assumption | exact Sub.trans (by assumption) (by rfl)
    | with_reducible apply Keep.setRegF | intro _ | split | dsimp only

theorem Keep.resumeBank {fs : List Field} {s t : State} (h : Keep fs s t) (c bank)
    (hl : Sub [.regs, .shad, .store, .full, .banks, .stage, .cores, .islands, .ports, .out, .outst, .vecBusy,
      .power] fs :=
        by exact Sub.trans (by assumption) (by rfl)) :
    Keep fs s (State.resumeBank t c bank) := by
  unfold State.resumeBank
  try dsimp only
  repeat' first
    | with_reducible exact h | with_reducible assumption | exact Sub.trans (by assumption) (by rfl)
    | with_reducible apply Keep.setBank | with_reducible apply Keep.bankTo | intro _ | split | dsimp only

theorem Keep.wakeIsland {fs : List Field} {s t : State} (h : Keep fs s t) (c)
    (hl : Sub [.regs, .shad, .store, .full, .banks, .stage, .cores, .islands, .ports, .out, .outst, .vecBusy,
      .power] fs :=
        by exact Sub.trans (by assumption) (by rfl)) :
    Keep fs s (State.wakeIsland t c) := by
  unfold State.wakeIsland
  try dsimp only
  repeat' first
    | with_reducible exact h | with_reducible assumption | exact Sub.trans (by assumption) (by rfl)
    | with_reducible apply Keep.setRegF | with_reducible apply Keep.resumeBank | with_reducible apply Keep.foldl
    | with_reducible refine Keep.foldl' Prod.fst ?_ ?_ | intro _ | split | dsimp only

theorem Keep.autoFail {fs : List Field} {s t : State} (h : Keep fs s t) (cause)
    (hl : Sub [.regs, .ports, .out, .outst, .vecBusy, .power, .free] fs :=
        by exact Sub.trans (by assumption) (by rfl)) :
    Keep fs s (State.autoFail t cause) := by
  unfold State.autoFail
  try dsimp only
  repeat' first
    | with_reducible exact h | with_reducible assumption | exact Sub.trans (by assumption) (by rfl)
    | with_reducible apply Keep.healthCapture | with_reducible apply Keep.raise | intro _ | split | dsimp only

theorem Keep.placeTemplate {fs : List Field} {s t : State} (h : Keep fs s t) (v)
    (hl : Sub [.regs, .queues, .ports, .out, .outst, .vecBusy, .power, .health, .free] fs :=
        by exact Sub.trans (by assumption) (by rfl)) : Keep fs s (State.placeTemplate t v).1 := by
  unfold State.placeTemplate
  extract_lets q addr s1 d
  have h1 : Keep fs s s1 := Keep.viewReads h _ _ _ _ _ _
  split
  · split
    · exact Keep.autoFail h1 _
    · split
      · exact Keep.autoFail h1 _
      · exact Keep.setQueue h1 _ _
  · exact Keep.autoFail h1 _

theorem Keep.healthEvaluate {fs : List Field} {s t : State} (h : Keep fs s t) (v)
    (hl : Sub [.regs, .queues, .ports, .out, .outst, .vecBusy, .power, .health, .free] fs :=
        by exact Sub.trans (by assumption) (by rfl)) :
    Keep fs s (State.healthEvaluate t v) := by
  unfold State.healthEvaluate
  try dsimp only
  repeat' first
    | with_reducible exact h | with_reducible assumption | exact Sub.trans (by assumption) (by rfl)
    | with_reducible apply Keep.setRegN | with_reducible apply Keep.raise
    | with_reducible apply Keep.placeTemplate | with_reducible apply Keep.autoFail
    | with_reducible apply Keep.foldl | with_reducible refine Keep.foldl' Prod.fst ?_ ?_ | intro _ | split
    | dsimp only | with_reducible apply Keep.upd
    | exact ⟨fun f hf => by cases f <;> first | with_reducible exact rfl |
        exact absurd (Sub.mem (by assumption) _ (by decide)) hf⟩

theorem Keep.postRecord {fs : List Field} {s t : State} (h : Keep fs s t) (seq r)
    (hl : Sub [.ports, .out, .outst, .power] fs := by exact Sub.trans (by assumption) (by rfl)) :
    Keep fs s (State.postRecord t seq r) := by
  unfold State.postRecord
  try dsimp only
  repeat' first
    | with_reducible exact h | with_reducible assumption | exact Sub.trans (by assumption) (by rfl)
    | with_reducible apply Keep.writeMem | intro _ | split | dsimp only

theorem Keep.audited {fs : List Field} {s t : State} (h : Keep fs s t) (kind priv port arg data)
    (hl : Sub [.regs, .ports, .out, .outst, .vecBusy, .audit, .power] fs :=
        by exact Sub.trans (by assumption) (by rfl)) :
    Keep fs s (State.audited t kind priv port arg data) := by
  unfold State.audited
  extract_lets full unread seq r s1 a1 s2 held a2 s3 s4
  have h1 : Keep fs s s1 := Keep.setReg h _ _
  have h2 : Keep fs s s2 := by
    obtain ⟨x, a, b, c, d, e⟩ := h1
    exact ⟨x.trans ⟨fun f hf => by cases f <;> first | with_reducible exact rfl |
            exact absurd (hl.mem _ (by decide)) hf⟩,
      a, b, c, d, e⟩
  have h3 : Keep fs s s3 := by
    show Keep fs s (if _ then _ else _)
    split
    · exact Keep.postRecord h2 _ _
    · exact Keep.heldOnto h2 r _ rfl (hl.mem _ (by decide))
  have h4 : Keep fs s s4 := by
    show Keep fs s (if _ then _ else _)
    split
    · exact Keep.raise h3 _ _
    · exact h3
  split
  · exact Keep.raise h4 _ _
  · exact h4

theorem Keep.configureAudit {fs : List Field} {s t : State} (h : Keep fs s t) (priv port)
    (hl : Sub [.regs, .ports, .out, .outst, .vecBusy, .audit, .power] fs :=
        by exact Sub.trans (by assumption) (by rfl)) : Keep fs s (State.configureAudit t priv port) := by
  unfold State.configureAudit
  extract_lets held s1 a1 s2
  have h1 : Keep fs s s1 := Keep.foldl h fun u r hu => Keep.postRecord hu _ _
  have h2 : Keep fs s s2 := by
    obtain ⟨x, a, b, c, d, _⟩ := h1
    exact ⟨x.trans ⟨fun f hf => by cases f <;> first | with_reducible exact rfl |
            exact absurd (hl.mem _ (by decide)) hf⟩,
      a, b, c, d, fun _ => Nat.zero_le _⟩
  exact Keep.audited h2 _ _ _ _ _

theorem Keep.applyEntry {fs : List Field} {s t : State} (h : Keep fs s t) (v priv port)
    (hl : Sub [.regs, .ports, .out, .outst, .vecBusy, .prot, .audit, .power] fs :=
        by exact Sub.trans (by assumption) (by rfl)) :
    Keep fs s (State.applyEntry t v priv port) := by
  unfold State.applyEntry
  try dsimp only
  repeat' first
    | with_reducible exact h | with_reducible assumption | exact Sub.trans (by assumption) (by rfl)
    | with_reducible apply Keep.audited | with_reducible apply Keep.incReg | with_reducible apply Keep.raise
    | intro _ | split | dsimp only | with_reducible apply Keep.upd
    | exact ⟨fun f hf => by cases f <;> first | with_reducible exact rfl |
        exact absurd (Sub.mem (by assumption) _ (by decide)) hf⟩

theorem Keep.endNamed {fs : List Field} {s t : State} (h : Keep fs s t) (v)
    (hl : Sub [.regs, .shad, .store, .full, .banks, .owners, .endedOwners, .stage, .cores, .islands, .queues,
      .ports, .out, .outst, .vecBusy, .power] fs :=
        by exact Sub.trans (by assumption) (by rfl)) :
    Keep fs s (State.endNamed t v) := by
  unfold State.endNamed
  try dsimp only
  repeat' first
    | with_reducible exact h | with_reducible assumption | exact Sub.trans (by assumption) (by rfl)
    | with_reducible apply Keep.endTask | intro _ | split | dsimp only

theorem Keep.selfTestFailed {fs : List Field} {s t : State} (h : Keep fs s t) (cause test)
    (hl : Sub [.regs, .shad, .store, .full, .banks, .xbar, .parked, .stage, .cores, .islands, .queues, .ops,
      .ports, .out, .outst, .vecBusy, .sec, .audit, .power, .health, .free] fs :=
        by exact Sub.trans (by assumption) (by rfl)) :
    Keep fs s (State.selfTestFailed t cause test) := by
  unfold State.selfTestFailed
  try dsimp only
  repeat' first
    | with_reducible exact h | with_reducible assumption | exact Sub.trans (by assumption) (by rfl)
    | with_reducible apply Keep.capture | with_reducible apply Keep.raise | with_reducible apply Keep.audited
    | with_reducible apply Keep.controlLost | intro _ | split | dsimp only | with_reducible apply Keep.upd
    | exact ⟨fun f hf => by cases f <;> first | with_reducible exact rfl |
        exact absurd (Sub.mem (by assumption) _ (by decide)) hf⟩

theorem Keep.selfTest {fs : List Field} {s t : State} (h : Keep fs s t) (r)
    (hl : Sub [.regs, .shad, .store, .full, .banks, .xbar, .parked, .stage, .cores, .islands, .queues, .ops,
      .ports, .out, .outst, .vecBusy, .sec, .audit, .power, .health, .free] fs :=
        by exact Sub.trans (by assumption) (by rfl)) :
    Keep fs s (State.selfTest t r) := by
  unfold State.selfTest
  try dsimp only
  repeat' first
    | with_reducible exact h | with_reducible assumption | exact Sub.trans (by assumption) (by rfl)
    | with_reducible apply Keep.selfTestFailed | intro _ | split | dsimp only | with_reducible apply Keep.upd
    | exact ⟨fun f hf => by cases f <;> first | with_reducible exact rfl |
        exact absurd (Sub.mem (by assumption) _ (by decide)) hf⟩

theorem Keep.entropyFailed {fs : List Field} {s t : State} (h : Keep fs s t)
    (hl : Sub [.regs, .shad, .store, .full, .banks, .xbar, .parked, .stage, .cores, .islands, .queues, .ops,
      .ports, .out, .outst, .vecBusy, .sec, .audit, .power, .health, .free] fs :=
        by exact Sub.trans (by assumption) (by rfl)) :
    Keep fs s (State.entropyFailed t) := by
  unfold State.entropyFailed
  try dsimp only
  repeat' first
    | with_reducible exact h | with_reducible assumption | exact Sub.trans (by assumption) (by rfl)
    | with_reducible apply Keep.freshWord | with_reducible apply Keep.selfTestFailed
    | refine Keep.of_fst (by assumption) ?_ | refine Keep.of_snd (by assumption) ?_ | intro _ | split
    | dsimp only

theorem Keep.newKeyPair {fs : List Field} {s t : State} (h : Keep fs s t)
    (hl : Sub [.regs, .sec] fs := by exact Sub.trans (by assumption) (by rfl)) :
    Keep fs s (State.newKeyPair t) := by
  unfold State.newKeyPair
  try dsimp only
  repeat' first
    | with_reducible exact h | with_reducible assumption | exact Sub.trans (by assumption) (by rfl)
    | with_reducible apply Keep.draw | refine Keep.of_fst (by assumption) ?_
    | refine Keep.of_snd (by assumption) ?_ | intro _ | split | dsimp only | with_reducible apply Keep.upd
    | exact ⟨fun f hf => by cases f <;> first | with_reducible exact rfl |
        exact absurd (Sub.mem (by assumption) _ (by decide)) hf⟩

theorem Keep.putMbox {fs : List Field} {s t : State} (h : Keep fs s t) (d)
    (hl : Sub [.regs] fs := by exact Sub.trans (by assumption) (by rfl)) :
    Keep fs s (State.putMbox t d) := by
  unfold State.putMbox
  try dsimp only
  repeat' first
    | with_reducible exact h | with_reducible assumption | exact Sub.trans (by assumption) (by rfl)
    | with_reducible apply Keep.setRegN | with_reducible apply Keep.foldl
    | with_reducible refine Keep.foldl' Prod.fst ?_ ?_ | intro _ | split | dsimp only

theorem Keep.Service_logged {fs : List Field} {s t : State} (h : Keep fs s t) (kind priv port arg data f)
    (hf : Keep fs s (t.audited kind priv port arg data) → Keep fs s (f (t.audited kind priv port arg data)).st)
    (hl : Sub [.regs, .ports, .out, .outst, .vecBusy, .audit, .power, .free] fs :=
        by exact Sub.trans (by assumption) (by rfl)) :
    Keep fs s (Service.logged t kind priv port arg data f).st := by
  unfold Service.logged
  split
  · exact hf (Keep.audited h _ _ _ _ _)
  · exact Keep.freshWord h

theorem Keep.zeroise {fs : List Field} {s t : State} (h : Keep fs s t)
    (hl : Sub [.regs, .sec] fs := by exact Sub.trans (by assumption) (by rfl)) :
    Keep fs s (State.zeroise t) := by
  unfold State.zeroise
  exact Keep.newKeyPair (Keep.instantiate (Keep.setSec h _))

theorem Keep.serveRandom {fs : List Field} {s t : State} (h : Keep fs s t)
    (hl : Sub [.regs, .sec] fs := by exact Sub.trans (by assumption) (by rfl)) :
    Keep fs s (State.serveRandom t).st := by
  unfold State.serveRandom
  try dsimp only
  repeat' first
    | with_reducible exact h | with_reducible assumption | exact Sub.trans (by assumption) (by rfl)
    | with_reducible apply Keep.draw | intro _ | split | dsimp only

theorem Keep.serveAttest {fs : List Field} {s t : State} (h : Keep fs s t)
    (hl : Sub [.regs, .sec] fs := by exact Sub.trans (by assumption) (by rfl)) :
    Keep fs s (State.serveAttest t).st := by
  unfold State.serveAttest
  try dsimp only
  repeat' first
    | with_reducible exact h | with_reducible assumption | exact Sub.trans (by assumption) (by rfl)
    | with_reducible apply Keep.draw | with_reducible apply Keep.incReg | intro _ | split | dsimp only

theorem Keep.serveChallenge {fs : List Field} {s t : State} (h : Keep fs s t)
    (hl : Sub [.regs, .sec] fs := by exact Sub.trans (by assumption) (by rfl)) :
    Keep fs s (State.serveChallenge t).st := by
  unfold State.serveChallenge
  try dsimp only
  repeat' first
    | with_reducible exact h | with_reducible assumption | exact Sub.trans (by assumption) (by rfl)
    | with_reducible apply Keep.draw | intro _ | split | dsimp only | with_reducible apply Keep.upd
    | exact ⟨fun f hf => by cases f <;> first | with_reducible exact rfl |
        exact absurd (Sub.mem (by assumption) _ (by decide)) hf⟩

theorem Keep.serveLogin {fs : List Field} {s t : State} (h : Keep fs s t) (priv port)
    (hl : Sub [.regs, .ports, .out, .outst, .vecBusy, .sec, .audit, .power, .free] fs :=
        by exact Sub.trans (by assumption) (by rfl)) : Keep fs s (State.serveLogin t priv port).st := by
  unfold State.serveLogin
  split
  · exact h
  · refine Keep.Service_logged h _ _ _ _ _ _ fun hu => ?_
    split
    · exact Keep.congr hu rfl rfl rfl rfl rfl
    · exact Keep.congr hu rfl rfl rfl rfl rfl

theorem Keep.serveLoadKey {fs : List Field} {s t : State} (h : Keep fs s t) (priv port)
    (hl : Sub [.regs, .ports, .out, .outst, .vecBusy, .sec, .audit, .power, .free] fs :=
        by exact Sub.trans (by assumption) (by rfl)) : Keep fs s (State.serveLoadKey t priv port).st := by
  unfold State.serveLoadKey
  dsimp only
  split
  · exact h
  · split
    · exact h
    · refine Keep.Service_logged h _ _ _ _ _ _ fun hu => ?_
      exact Keep.congr hu rfl rfl rfl rfl rfl

theorem Keep.serveClearKey {fs : List Field} {s t : State} (h : Keep fs s t) (priv port)
    (hl : Sub [.regs, .ports, .out, .outst, .vecBusy, .sec, .audit, .power, .free] fs :=
        by exact Sub.trans (by assumption) (by rfl)) : Keep fs s (State.serveClearKey t priv port).st := by
  unfold State.serveClearKey
  dsimp only
  split
  · exact h
  · refine Keep.Service_logged h _ _ _ _ _ _ fun hu => ?_
    exact Keep.congr hu rfl rfl rfl rfl rfl

theorem Keep.serveFuseOwner {fs : List Field} {s t : State} (h : Keep fs s t) (priv port)
    (hl : Sub [.regs, .ports, .out, .outst, .vecBusy, .fuses, .audit, .power, .free] fs :=
        by exact Sub.trans (by assumption) (by rfl)) :
    Keep fs s (State.serveFuseOwner t priv port).st := by
  unfold State.serveFuseOwner
  split
  · exact h
  next hn =>
  refine Keep.Service_logged h _ _ _ _ _ _ fun hu => ?_
  obtain ⟨x, a, b, c, d, e⟩ := hu
  refine ⟨x.trans ⟨fun f hf => by cases f <;> first | with_reducible exact rfl |
          exact absurd (hl.mem _ (by decide)) hf⟩, a, b, 
      ⟨c.identity, c.serial, c.root, c.svn, fun x hx => ?_, c.killed⟩, d, e⟩
  have hx := h.fuses.owner x hx
  rw [hx] at hn
  exact absurd rfl hn

theorem Keep.serveRaiseSvn {fs : List Field} {s t : State} (h : Keep fs s t) (priv port)
    (hl : Sub [.regs, .ports, .out, .outst, .vecBusy, .fuses, .audit, .power, .free] fs :=
        by exact Sub.trans (by assumption) (by rfl)) :
    Keep fs s (State.serveRaiseSvn t priv port).st := by
  unfold State.serveRaiseSvn
  refine Keep.Service_logged h _ _ _ _ _ _ fun hu => ?_
  obtain ⟨x, a, b, c, d, e⟩ := hu
  exact ⟨x.trans ⟨fun f hf => by cases f <;> first | with_reducible exact rfl |
          exact absurd (hl.mem _ (by decide)) hf⟩, a, b, 
      ⟨c.identity, c.serial, c.root, c.svn.trans (Fuses.svnMin_le_raise _ _), c.owner, c.killed⟩, d, e⟩

theorem Keep.serveKill {fs : List Field} {s t : State} (h : Keep fs s t) (priv port)
    (hl : Sub [.regs, .ports, .out, .outst, .vecBusy, .fuses, .audit, .power, .free] fs :=
        by exact Sub.trans (by assumption) (by rfl)) : Keep fs s (State.serveKill t priv port).st := by
  unfold State.serveKill
  split
  · exact h
  · refine Keep.Service_logged h _ _ _ _ _ _ fun hu => ?_
    obtain ⟨x, a, b, c, d, e⟩ := hu
    exact ⟨x.trans ⟨fun f hf => by cases f <;> first | with_reducible exact rfl |
            exact absurd (hl.mem _ (by decide)) hf⟩, a, b, 
      ⟨c.identity, c.serial, c.root, c.svn, c.owner, fun _ => rfl⟩, d, e⟩

theorem Keep.serve {fs : List Field} {s t : State} (h : Keep fs s t) (code priv port r)
    (hl : Sub [.regs, .shad, .store, .full, .banks, .xbar, .parked, .stage, .cores, .islands, .queues, .ops,
      .ports, .out, .outst, .vecBusy, .fuses, .sec, .audit, .power, .health, .free] fs :=
        by exact Sub.trans (by assumption) (by rfl)) : Keep fs s (State.serve t code priv port r).st := by
  unfold State.serve
  split
  · exact Keep.selfTest h _
  · exact Keep.serveRandom h
  · exact Keep.serveAttest h
  · exact Keep.serveChallenge h
  · exact Keep.serveLogin h _ _
  · refine Keep.Service_logged h _ _ _ _ _ _ fun hu => ?_
    exact Keep.congr hu rfl rfl rfl rfl rfl
  · exact Keep.serveLoadKey h _ _
  · exact Keep.serveClearKey h _ _
  · split
    · exact Keep.zeroise (Keep.audited h _ _ _ _ _)
    · exact Keep.Service_logged h _ _ _ _ _ _ fun hu => Keep.zeroise hu
  · exact Keep.serveFuseOwner h _ _
  · exact Keep.serveRaiseSvn h _ _
  · exact Keep.serveKill h _ _
  · exact h

theorem Keep.secCommand {fs : List Field} {s t : State} (h : Keep fs s t) (v priv port r)
    (hl : Sub [.regs, .shad, .store, .full, .banks, .xbar, .parked, .stage, .cores, .islands, .queues, .ops,
      .ports, .out, .outst, .vecBusy, .fuses, .sec, .audit, .power, .health, .free] fs :=
        by exact Sub.trans (by assumption) (by rfl)) :
    Keep fs s (State.secCommand t v priv port r) := by
  unfold State.secCommand
  try dsimp only
  repeat' first
    | with_reducible exact h | with_reducible assumption | exact Sub.trans (by assumption) (by rfl)
    | with_reducible apply Keep.serve | with_reducible apply Keep.putMbox | with_reducible apply Keep.capture
    | with_reducible apply Keep.setRegN | with_reducible apply Keep.raise | intro _ | split | dsimp only

theorem Keep.holdCommit {fs : List Field} {s t : State} (h : Keep fs s t) (base)
    (hl : Sub [.commitHold] fs := by exact Sub.trans (by assumption) (by rfl)) :
    Keep fs s (State.holdCommit t base) := by
  unfold State.holdCommit
  try dsimp only
  repeat' first
    | with_reducible exact h | with_reducible assumption | exact Sub.trans (by assumption) (by rfl)
    | with_reducible apply Keep.commitMoments | intro _ | split | dsimp only | with_reducible apply Keep.upd
    | exact ⟨fun f hf => by cases f <;> first | with_reducible exact rfl |
        exact absurd (Sub.mem (by assumption) _ (by decide)) hf⟩

theorem Keep.requestCommit {fs : List Field} {s t : State} (h : Keep fs s t) (p)
    (hl : Sub [.regs, .commitHold] fs := by exact Sub.trans (by assumption) (by rfl)) :
    Keep fs s (State.requestCommit t p) := by
  unfold State.requestCommit
  try dsimp only
  repeat' first
    | with_reducible exact h | with_reducible assumption | exact Sub.trans (by assumption) (by rfl)
    | with_reducible apply Keep.setRegF | with_reducible apply Keep.holdCommit | intro _ | split | dsimp only

theorem Keep.dropShadows {fs : List Field} {s t : State} (h : Keep fs s t) (base)
    (hl : Sub [.shad] fs := by exact Sub.trans (by assumption) (by rfl)) :
    Keep fs s (State.dropShadows t base) := by
  unfold State.dropShadows
  try dsimp only
  repeat' first
    | with_reducible exact h | with_reducible assumption | exact Sub.trans (by assumption) (by rfl)
    | intro _ | split | dsimp only | with_reducible apply Keep.upd
    | exact ⟨fun f hf => by cases f <;> first | with_reducible exact rfl |
        exact absurd (Sub.mem (by assumption) _ (by decide)) hf⟩

theorem Keep.shadowCtrl {fs : List Field} {s t : State} (h : Keep fs s t) (p v)
    (hl : Sub [.regs, .shad] fs := by exact Sub.trans (by assumption) (by rfl)) :
    Keep fs s (State.shadowCtrl t p v) := by
  unfold State.shadowCtrl
  try dsimp only
  repeat' first
    | with_reducible exact h | with_reducible assumption | exact Sub.trans (by assumption) (by rfl)
    | with_reducible apply Keep.dropShadows | with_reducible apply Keep.setRegF | intro _ | split | dsimp only

theorem Keep.writeShadow {fs : List Field} {s t : State} (h : Keep fs s t) (p key v)
    (hl : Sub [.regs, .shad] fs := by exact Sub.trans (by assumption) (by rfl)) :
    Keep fs s (State.writeShadow t p key v) := by
  unfold State.writeShadow
  try dsimp only
  repeat' first
    | with_reducible exact h | with_reducible assumption | exact Sub.trans (by assumption) (by rfl)
    | with_reducible apply Keep.setShadow | with_reducible apply Keep.setRegF | intro _ | split | dsimp only

theorem Keep.setEpoch {fs : List Field} {s t : State} (h : Keep fs s t) (number lag)
    (hl : Sub [.regs] fs := by exact Sub.trans (by assumption) (by rfl)) :
    Keep fs s (State.setEpoch t number lag) := by
  unfold State.setEpoch
  try dsimp only
  repeat' first
    | with_reducible exact h | with_reducible assumption | exact Sub.trans (by assumption) (by rfl)
    | with_reducible apply Keep.setRegN | intro _ | split | dsimp only

theorem Keep.dieCommit {fs : List Field} {s t : State} (h : Keep fs s t)
    (hl : Sub [.regs, .commitHold] fs := by exact Sub.trans (by assumption) (by rfl)) :
    Keep fs s (State.dieCommit t) := by
  unfold State.dieCommit
  try dsimp only
  repeat' first
    | with_reducible exact h | with_reducible assumption | exact Sub.trans (by assumption) (by rfl)
    | with_reducible apply Keep.setRegF | with_reducible apply Keep.holdCommit
    | with_reducible apply Keep.setEpoch | with_reducible apply Keep.foldl
    | with_reducible refine Keep.foldl' Prod.fst ?_ ?_ | intro _ | split | dsimp only

theorem Keep.adoptEntry {fs : List Field} {s t : State} (h : Keep fs s t) (c h' new)
    (hl : Sub [.regs, .shad, .owners, .endedOwners] fs := by exact Sub.trans (by assumption) (by rfl)) :
    Keep fs s (State.adoptEntry t c h' new) := by
  unfold State.adoptEntry
  try dsimp only
  repeat' first
    | with_reducible exact h | with_reducible assumption | exact Sub.trans (by assumption) (by rfl)
    | with_reducible apply Keep.setReg | with_reducible apply Keep.bumpGen
    | with_reducible apply Keep.clearOwner | with_reducible apply Keep.foldl
    | with_reducible refine Keep.foldl' Prod.fst ?_ ?_ | intro _ | split | dsimp only
    | with_reducible apply Keep.upd
    | exact ⟨fun f hf => by cases f <;> first | with_reducible exact rfl |
        exact absurd (Sub.mem (by assumption) _ (by decide)) hf⟩

theorem Keep.adoptHandle {fs : List Field} {s t : State} (h : Keep fs s t) (c h')
    (hl : Sub [.regs, .shad, .owners, .endedOwners, .ports, .out, .outst, .vecBusy, .power] fs :=
        by exact Sub.trans (by assumption) (by rfl)) :
    Keep fs s (State.adoptHandle t c h') := by
  unfold State.adoptHandle
  try dsimp only
  repeat' first
    | with_reducible exact h | with_reducible assumption | exact Sub.trans (by assumption) (by rfl)
    | with_reducible apply Keep.capture | with_reducible apply Keep.noteRefusal
    | with_reducible apply Keep.adoptEntry | intro _ | split | dsimp only

theorem Keep.copyShadows {fs : List Field} {s t : State} (h : Keep fs s t) (base)
    (hl : Sub [.regs, .shad] fs := by exact Sub.trans (by assumption) (by rfl)) :
    Keep fs s (State.copyShadows t base) := by
  unfold State.copyShadows
  try dsimp only
  repeat' first
    | with_reducible exact h | with_reducible assumption | exact Sub.trans (by assumption) (by rfl)
    | with_reducible apply Keep.setReg | with_reducible apply Keep.dropShadows | with_reducible apply Keep.foldl
    | with_reducible refine Keep.foldl' Prod.fst ?_ ?_ | intro _ | split | dsimp only

theorem Keep.adoptLadder {fs : List Field} {s t : State} (h : Keep fs s t) (c)
    (hl : Sub [.regs, .shad, .store, .full, .banks, .stage, .cores, .islands, .ports, .out, .outst, .vecBusy,
      .power] fs :=
        by exact Sub.trans (by assumption) (by rfl)) :
    Keep fs s (State.adoptLadder t c) := by
  unfold State.adoptLadder
  try dsimp only
  repeat' first
    | with_reducible exact h | with_reducible assumption | exact Sub.trans (by assumption) (by rfl)
    | with_reducible apply Keep.setReg | with_reducible apply Keep.capture
    | with_reducible apply Keep.noteRefusal | with_reducible apply Keep.copyShadows
    | with_reducible apply Keep.setIsland | with_reducible apply Keep.retarget
    | with_reducible apply Keep.finishDark | with_reducible apply Keep.setRegN | intro _ | split | dsimp only

theorem Keep.adoptPage {fs : List Field} {s t : State} (h : Keep fs s t) (p)
    (hl : Sub [.regs, .shad, .store, .full, .banks, .owners, .endedOwners, .stage, .cores, .islands, .ports,
      .out, .outst, .vecBusy, .power] fs :=
        by exact Sub.trans (by assumption) (by rfl)) :
    Keep fs s (State.adoptPage t p) := by
  unfold State.adoptPage
  try dsimp only
  repeat' first
    | with_reducible exact h | with_reducible assumption | exact Sub.trans (by assumption) (by rfl)
    | with_reducible apply Keep.adoptHandle | with_reducible apply Keep.setReg
    | with_reducible apply Keep.retarget | with_reducible apply Keep.copyShadows
    | with_reducible apply Keep.adoptLadder | with_reducible apply Keep.foldl
    | with_reducible refine Keep.foldl' Prod.fst ?_ ?_ | intro _ | split | dsimp only
    | with_reducible apply Keep.upd
    | exact ⟨fun f hf => by cases f <;> first | with_reducible exact rfl |
        exact absurd (Sub.mem (by assumption) _ (by decide)) hf⟩

theorem Keep.adopt {fs : List Field} {s t : State} (h : Keep fs s t) (p)
    (hl : Sub [.regs, .shad, .store, .full, .banks, .owners, .endedOwners, .stage, .cores, .islands, .ports,
      .out, .outst, .vecBusy, .power, .commitHold] fs :=
        by exact Sub.trans (by assumption) (by rfl)) :
    Keep fs s (State.adopt t p) := by
  unfold State.adopt
  try dsimp only
  repeat' first
    | with_reducible exact h | with_reducible assumption | exact Sub.trans (by assumption) (by rfl)
    | with_reducible apply Keep.adoptPage | with_reducible apply Keep.setRegN
    | with_reducible apply Keep.setRegF | with_reducible apply Keep.setEpoch | intro _ | split | dsimp only
    | with_reducible apply Keep.upd
    | exact ⟨fun f hf => by cases f <;> first | with_reducible exact rfl |
        exact absurd (Sub.mem (by assumption) _ (by decide)) hf⟩

theorem Keep.commitAdoption {fs : List Field} {s t : State} (h : Keep fs s t) (base)
    (hl : Sub [.regs, .shad, .store, .full, .banks, .owners, .endedOwners, .stage, .cores, .islands, .ports,
      .out, .outst, .vecBusy, .power, .commitHold] fs :=
        by exact Sub.trans (by assumption) (by rfl)) :
    Keep fs s (State.commitAdoption t base) := by
  unfold State.commitAdoption
  try dsimp only
  repeat' first
    | with_reducible exact h | with_reducible assumption | exact Sub.trans (by assumption) (by rfl)
    | with_reducible apply Keep.adopt | intro _ | split | dsimp only

theorem Keep.contact {fs : List Field} {s t : State} (h : Keep fs s t)
    (hl : Sub [.regs, .free] fs := by exact Sub.trans (by assumption) (by rfl)) :
    Keep fs s (State.contact t) := by
  unfold State.contact
  try dsimp only
  repeat' first
    | with_reducible exact h | with_reducible assumption | exact Sub.trans (by assumption) (by rfl)
    | with_reducible apply Keep.nextStep | intro _ | split | dsimp only

theorem Keep.contactEnds {fs : List Field} {s t : State} (h : Keep fs s t)
    (hl : Sub [.regs, .free] fs := by exact Sub.trans (by assumption) (by rfl)) :
    Keep fs s (State.contactEnds t) := by
  unfold State.contactEnds
  try dsimp only
  repeat' first
    | with_reducible exact h | with_reducible assumption | exact Sub.trans (by assumption) (by rfl)
    | with_reducible apply Keep.nextStep | intro _ | split | dsimp only

theorem Keep.sbUcode {fs : List Field} {s t : State} (h : Keep fs s t) (hi v)
    (hl : Sub [.regs, .sb, .free] fs := by exact Sub.trans (by assumption) (by rfl)) :
    Keep fs s (State.sbUcode t hi v) := by
  unfold State.sbUcode
  try dsimp only
  repeat' first
    | with_reducible exact h | with_reducible assumption | exact Sub.trans (by assumption) (by rfl)
    | with_reducible apply Keep.contact | with_reducible apply Keep.contactEnds | intro _ | split | dsimp only
    | with_reducible apply Keep.upd
    | exact ⟨fun f hf => by cases f <;> first | with_reducible exact rfl |
        exact absurd (Sub.mem (by assumption) _ (by decide)) hf⟩

theorem Keep.setDynAddr {fs : List Field} {s t : State} (h : Keep fs s t) (a)
    (hl : Sub [.regs, .sb, .free] fs := by exact Sub.trans (by assumption) (by rfl)) :
    Keep fs s (State.setDynAddr t a) := by
  unfold State.setDynAddr
  try dsimp only
  repeat' first
    | with_reducible exact h | with_reducible assumption | exact Sub.trans (by assumption) (by rfl)
    | with_reducible apply Keep.contact | intro _ | split | dsimp only | with_reducible apply Keep.upd
    | exact ⟨fun f hf => by cases f <;> first | with_reducible exact rfl |
        exact absurd (Sub.mem (by assumption) _ (by decide)) hf⟩

theorem Keep.enableIbi {fs : List Field} {s t : State} (h : Keep fs s t) (b)
    (hl : Sub [.regs, .sb, .free] fs := by exact Sub.trans (by assumption) (by rfl)) :
    Keep fs s (State.enableIbi t b) := by
  unfold State.enableIbi
  try dsimp only
  repeat' first
    | with_reducible exact h | with_reducible assumption | exact Sub.trans (by assumption) (by rfl)
    | with_reducible apply Keep.contact | intro _ | split | dsimp only | with_reducible apply Keep.upd
    | exact ⟨fun f hf => by cases f <;> first | with_reducible exact rfl |
        exact absurd (Sub.mem (by assumption) _ (by decide)) hf⟩

theorem Keep.sbReply {fs : List Field} {s t : State} (h : Keep fs s t) (l)
    (hl : Sub [.regs, .sb, .free] fs := by exact Sub.trans (by assumption) (by rfl)) :
    Keep fs s (State.sbReply t l) := by
  unfold State.sbReply
  try dsimp only
  repeat' first
    | with_reducible exact h | with_reducible assumption | exact Sub.trans (by assumption) (by rfl)
    | with_reducible apply Keep.contact | intro _ | split | dsimp only | with_reducible apply Keep.upd
    | exact ⟨fun f hf => by cases f <;> first | with_reducible exact rfl |
        exact absurd (Sub.mem (by assumption) _ (by decide)) hf⟩

theorem Keep.sbStatus {fs : List Field} {s t : State} (h : Keep fs s t)
    (hl : Sub [.regs, .sb, .free] fs := by exact Sub.trans (by assumption) (by rfl)) :
    Keep fs s (State.sbStatus t) := by
  unfold State.sbStatus
  try dsimp only
  repeat' first
    | with_reducible exact h | with_reducible assumption | exact Sub.trans (by assumption) (by rfl)
    | with_reducible apply Keep.freshBytes | with_reducible apply Keep.sbReply
    | refine Keep.of_fst (by assumption) ?_ | refine Keep.of_snd (by assumption) ?_ | intro _ | split
    | dsimp only

theorem Keep.configureRst {fs : List Field} {s t : State} (h : Keep fs s t) (action)
    (hl : Sub [.regs, .sb, .free] fs := by exact Sub.trans (by assumption) (by rfl)) :
    Keep fs s (State.configureRst t action) := by
  unfold State.configureRst
  try dsimp only
  repeat' first
    | with_reducible exact h | with_reducible assumption | exact Sub.trans (by assumption) (by rfl)
    | with_reducible apply Keep.contact | intro _ | split | dsimp only | with_reducible apply Keep.upd
    | exact ⟨fun f hf => by cases f <;> first | with_reducible exact rfl |
        exact absurd (Sub.mem (by assumption) _ (by decide)) hf⟩

theorem Keep.tapLoad {fs : List Field} {s t : State} (h : Keep fs s t) (i)
    (hl : Sub [.sb] fs := by exact Sub.trans (by assumption) (by rfl)) :
    Keep fs s (State.tapLoad t i) := by
  unfold State.tapLoad
  try dsimp only
  repeat' first
    | with_reducible exact h | with_reducible assumption | exact Sub.trans (by assumption) (by rfl)
    | intro _ | split | dsimp only | with_reducible apply Keep.upd
    | exact ⟨fun f hf => by cases f <;> first | with_reducible exact rfl |
        exact absurd (Sub.mem (by assumption) _ (by decide)) hf⟩

theorem Keep.tapScan {fs : List Field} {s t : State} (h : Keep fs s t) (x)
    (hl : Sub [.sb] fs := by exact Sub.trans (by assumption) (by rfl)) :
    Keep fs s (State.tapScan t x) := by
  unfold State.tapScan
  try dsimp only
  repeat' first
    | with_reducible exact h | with_reducible assumption | exact Sub.trans (by assumption) (by rfl)
    | intro _ | split | dsimp only | with_reducible apply Keep.upd
    | exact ⟨fun f hf => by cases f <;> first | with_reducible exact rfl |
        exact absurd (Sub.mem (by assumption) _ (by decide)) hf⟩

theorem Keep.coldReset {fs : List Field} {s t : State} (h : Keep fs s t)
    (hl : Sub [.regs, .shad, .store, .full, .moved, .banks, .xbar, .parked, .closing, .owners, .endedOwners,
      .stage, .cores, .islands, .queues, .ops, .nextOp, .ports, .outst, .vecBusy, .prot, .groups, .time, .sb,
      .sec, .audit, .latched, .securing, .power, .therm, .health, .replay, .journal, .jfloor, .images,
      .recovery, .mute, .stopped, .shut, .shutResult, .commitHold, .injected, .turn] fs :=
        by exact Sub.trans (by assumption) (by rfl)) : Keep fs s (State.coldReset t) :=
  ⟨h.same.trans ⟨fun f hf => by cases f <;> first | exact absurd (hl.mem _ (by decide)) hf | exact rfl⟩,
    h.pending, h.out, h.fuses, fun _ => rfl, fun _ => Nat.zero_le _⟩

theorem Keep.supplyStart {fs : List Field} {s t : State} (h : Keep fs s t) (d)
    (hl : Sub [.sb] fs := by exact Sub.trans (by assumption) (by rfl)) :
    Keep fs s (State.supplyStart t d) := by
  unfold State.supplyStart
  try dsimp only
  repeat' first
    | with_reducible exact h | with_reducible assumption | exact Sub.trans (by assumption) (by rfl)
    | intro _ | split | dsimp only | with_reducible apply Keep.upd
    | exact ⟨fun f hf => by cases f <;> first | with_reducible exact rfl |
        exact absurd (Sub.mem (by assumption) _ (by decide)) hf⟩

theorem Keep.warmState {fs : List Field} {s t : State} (h : Keep fs s t)
    (hl : Sub [.regs, .shad, .store, .full, .moved, .banks, .xbar, .parked, .closing, .owners, .endedOwners,
      .stage, .cores, .islands, .queues, .ops, .nextOp, .ports, .outst, .vecBusy, .groups, .time, .sb, .sec,
      .latched, .securing, .power, .therm, .health, .replay, .journal, .jfloor, .images, .recovery, .mute,
      .stopped, .shut, .shutResult, .commitHold, .injected, .turn] fs :=
        by exact Sub.trans (by assumption) (by rfl)) : Keep fs s (State.warmState t) := by
  unfold State.warmState
  extract_lets step a0 a1 a2 a3 a4 r1 r2
  have h1 : Keep fs s r1 := by
    obtain ⟨x, a, b, c, d, e⟩ := h
    exact ⟨x.trans ⟨fun f hf => by cases f <;> first | exact absurd (hl.mem _ (by decide)) hf | exact rfl⟩,
      a, b, c, fun _ => rfl, e⟩
  have h2 : Keep fs s r2 := Keep.setRegF (Keep.setRegN (Keep.setRegF h1 _ _ _ _) _ _) _ _ _ _
  with_reducible refine Keep.foldl h2 fun u d hu => ?_
  exact Keep.supplyStart hu d

theorem Keep.bondLevel {fs : List Field} {s t : State} (h : Keep fs s t)
    (hl : Sub [.sb, .free] fs := by exact Sub.trans (by assumption) (by rfl)) :
    Keep fs s (State.bondLevel t) := by
  unfold State.bondLevel
  try dsimp only
  repeat' first
    | with_reducible exact h | with_reducible assumption | exact Sub.trans (by assumption) (by rfl)
    | with_reducible apply Keep.freshWord | refine Keep.of_fst (by assumption) ?_
    | refine Keep.of_snd (by assumption) ?_ | intro _ | split | dsimp only | with_reducible apply Keep.upd
    | exact ⟨fun f hf => by cases f <;> first | with_reducible exact rfl |
        exact absurd (Sub.mem (by assumption) _ (by decide)) hf⟩

theorem Keep.warmReset {fs : List Field} {s t : State} (h : Keep fs s t)
    (hl : Sub [.regs, .shad, .store, .full, .moved, .banks, .xbar, .parked, .closing, .owners, .endedOwners,
      .stage, .cores, .islands, .queues, .ops, .nextOp, .ports, .out, .outst, .vecBusy, .groups, .time, .sb,
      .sec, .audit, .latched, .securing, .power, .therm, .health, .replay, .journal, .jfloor, .images,
      .recovery, .mute, .stopped, .shut, .shutResult, .commitHold, .injected, .turn, .free] fs :=
        by exact Sub.trans (by assumption) (by rfl)) :
    Keep fs s (State.warmReset t) := by
  unfold State.warmReset
  try dsimp only
  repeat' first
    | with_reducible exact h | with_reducible assumption | exact Sub.trans (by assumption) (by rfl)
    | with_reducible apply Keep.bondLevel | with_reducible apply Keep.audited
    | with_reducible apply Keep.warmState | intro _ | split | dsimp only

theorem Keep.resetPattern {fs : List Field} {s t : State} (h : Keep fs s t)
    (hl : Sub [.regs, .shad, .store, .full, .moved, .banks, .xbar, .parked, .closing, .owners, .endedOwners,
      .stage, .cores, .islands, .queues, .ops, .nextOp, .ports, .out, .outst, .vecBusy, .groups, .time, .sb,
      .sec, .audit, .latched, .securing, .power, .therm, .health, .replay, .journal, .jfloor, .images,
      .recovery, .mute, .stopped, .shut, .shutResult, .commitHold, .injected, .turn, .free] fs :=
        by exact Sub.trans (by assumption) (by rfl)) :
    Keep fs s (State.resetPattern t) := by
  unfold State.resetPattern
  try dsimp only
  repeat' first
    | with_reducible exact h | with_reducible assumption | exact Sub.trans (by assumption) (by rfl)
    | with_reducible apply Keep.warmReset | intro _ | split | dsimp only

theorem Keep.fuseRead {fs : List Field} {s t : State} (h : Keep fs s t) (agree)
    (hl : Sub [.regs, .sb, .free] fs := by exact Sub.trans (by assumption) (by rfl)) :
    Keep fs s (State.fuseRead t agree) := by
  unfold State.fuseRead
  try dsimp only
  repeat' first
    | with_reducible exact h | with_reducible assumption | exact Sub.trans (by assumption) (by rfl)
    | with_reducible apply Keep.nextStep | with_reducible apply Keep.bootFail | intro _ | split | dsimp only

theorem Keep.stewardBoot {fs : List Field} {s t : State} (h : Keep fs s t) (r)
    (hl : Sub [.regs, .shad, .store, .full, .banks, .xbar, .parked, .stage, .cores, .islands, .queues, .ops,
      .ports, .out, .outst, .vecBusy, .sb, .sec, .audit, .power, .health, .free] fs :=
        by exact Sub.trans (by assumption) (by rfl)) :
    Keep fs s (State.stewardBoot t r) := by
  unfold State.stewardBoot
  try dsimp only
  repeat' first
    | with_reducible exact h | with_reducible assumption | exact Sub.trans (by assumption) (by rfl)
    | with_reducible apply Keep.newKeyPair | with_reducible apply Keep.selfTest | with_reducible apply Keep.instantiate
    | with_reducible apply Keep.setRegF | with_reducible apply Keep.nextStep
    | with_reducible apply Keep.bootFail | intro _ | split | dsimp only

theorem Keep.portsStartup {fs : List Field} {s t : State} (h : Keep fs s t) (obs)
    (hl : Sub [.regs, .shad, .store, .full, .banks, .xbar, .parked, .stage, .cores, .islands, .queues, .ops,
      .ports, .out, .outst, .vecBusy, .sb, .latched, .power, .health, .mute, .shut, .injected, .free] fs :=
        by exact Sub.trans (by assumption) (by rfl)) :
    Keep fs s (State.portsStartup t obs) := by
  unfold State.portsStartup
  try dsimp only
  repeat' first
    | with_reducible exact h | with_reducible assumption | exact Sub.trans (by assumption) (by rfl)
    | with_reducible apply Keep.setRegN | with_reducible apply Keep.trainAll | with_reducible apply Keep.isolate
    | with_reducible apply Keep.nextStep | refine Keep.of_fst (by assumption) ?_
    | refine Keep.of_snd (by assumption) ?_ | with_reducible apply Keep.foldl
    | with_reducible refine Keep.foldl' Prod.fst ?_ ?_ | intro _ | split | dsimp only

theorem Keep.bootReads {fs : List Field} {s t : State} (h : Keep fs s t) (addr n)
    (hl : Sub [.ports, .out, .power] fs := by exact Sub.trans (by assumption) (by rfl)) :
    Keep fs s (State.bootReads t addr n) := by
  unfold State.bootReads
  try dsimp only
  repeat' first
    | with_reducible exact h | with_reducible assumption | exact Sub.trans (by assumption) (by rfl)
    | with_reducible apply Keep.send | with_reducible apply Keep.foldl
    | with_reducible refine Keep.foldl' Prod.fst ?_ ?_ | intro _ | split | dsimp only

theorem Keep.microcodeFetch {fs : List Field} {s t : State} (h : Keep fs s t) (v)
    (hl : Sub [.regs, .ports, .out, .outst, .vecBusy, .sb, .sec, .audit, .power, .free] fs :=
        by exact Sub.trans (by assumption) (by rfl)) :
    Keep fs s (State.microcodeFetch t v) := by
  unfold State.microcodeFetch
  try dsimp only
  repeat' first
    | with_reducible exact h | with_reducible assumption | exact Sub.trans (by assumption) (by rfl)
    | with_reducible apply Keep.bootReads | with_reducible apply Keep.bootFail
    | with_reducible apply Keep.audited | with_reducible apply Keep.setRegN | with_reducible apply Keep.nextStep
    | intro _ | split | dsimp only | with_reducible apply Keep.upd
    | exact ⟨fun f hf => by cases f <;> first | with_reducible exact rfl |
        exact absurd (Sub.mem (by assumption) _ (by decide)) hf⟩

theorem Keep.storeSelfTest {fs : List Field} {s t : State} (h : Keep fs s t) (obs)
    (hl : Sub [.regs, .store, .full, .banks, .sb, .free] fs :=
        by exact Sub.trans (by assumption) (by rfl)) : Keep fs s (State.storeSelfTest t obs) := by
  unfold State.storeSelfTest
  split
  · split
    · exact Keep.bootFail h _
    · split
      · exact Keep.bootFail h _
      · exact Keep.nextStep
          (Keep.setRegN (h.withStore (u := { t with store := [], full := [], banks := t.restingBanks }) rfl rfl rfl (fun _ =>
      rfl) rfl) _ _) _
  · exact h

theorem Keep.numericSelfTest {fs : List Field} {s t : State} (h : Keep fs s t) (agree)
    (hl : Sub [.regs, .cores, .sb, .free] fs := by exact Sub.trans (by assumption) (by rfl)) :
    Keep fs s (State.numericSelfTest t agree) := by
  unfold State.numericSelfTest
  try dsimp only
  repeat' first
    | with_reducible exact h | with_reducible assumption | exact Sub.trans (by assumption) (by rfl)
    | with_reducible apply Keep.nextStep | with_reducible apply Keep.bootFail | intro _ | split | dsimp only
    | with_reducible apply Keep.upd
    | exact ⟨fun f hf => by cases f <;> first | with_reducible exact rfl |
        exact absurd (Sub.mem (by assumption) _ (by decide)) hf⟩

theorem Keep.admission {fs : List Field} {s t : State} (h : Keep fs s t)
    (hl : Sub [.regs, .ports, .out, .outst, .sb, .latched, .power] fs :=
        by exact Sub.trans (by assumption) (by rfl)) :
    Keep fs s (State.admission t) := by
  unfold State.admission
  try dsimp only
  repeat' first
    | with_reducible exact h | with_reducible assumption | exact Sub.trans (by assumption) (by rfl)
    | with_reducible apply Keep.latchConcord | with_reducible apply Keep.setRegN
    | with_reducible apply Keep.sideSignal | with_reducible apply Keep.raiseIbi | intro _ | split | dsimp only

theorem Keep.blockResetDone {fs : List Field} {s t : State} (h : Keep fs s t) (target)
    (hl : Sub [.regs, .ports, .out, .outst, .vecBusy, .power] fs :=
        by exact Sub.trans (by assumption) (by rfl)) :
    Keep fs s (State.blockResetDone t target) := by
  unfold State.blockResetDone
  try dsimp only
  repeat' first
    | with_reducible exact h | with_reducible assumption | exact Sub.trans (by assumption) (by rfl)
    | with_reducible apply Keep.setRegN | with_reducible apply Keep.raise | intro _ | split | dsimp only

theorem Keep.clearCapture {fs : List Field} {s t : State} (h : Keep fs s t) (base)
    (hl : Sub [.regs] fs := by exact Sub.trans (by assumption) (by rfl)) :
    Keep fs s (State.clearCapture t base) := by
  unfold State.clearCapture
  try dsimp only
  repeat' first
    | with_reducible exact h | with_reducible assumption | exact Sub.trans (by assumption) (by rfl)
    | with_reducible apply Keep.setRegN | with_reducible apply Keep.foldl
    | with_reducible refine Keep.foldl' Prod.fst ?_ ?_ | intro _ | split | dsimp only

theorem Keep.resetQueue {fs : List Field} {s t : State} (h : Keep fs s t) (q)
    (hl : Sub [.regs, .ports, .out, .outst, .vecBusy, .power] fs :=
        by exact Sub.trans (by assumption) (by rfl)) :
    Keep fs s (State.resetQueue t q) := by
  unfold State.resetQueue
  try dsimp only
  repeat' first
    | with_reducible exact h | with_reducible assumption | exact Sub.trans (by assumption) (by rfl)
    | with_reducible apply Keep.setRegN | with_reducible apply Keep.clearCapture
    | with_reducible apply Keep.blockResetDone | with_reducible apply Keep.foldl
    | with_reducible refine Keep.foldl' Prod.fst ?_ ?_ | intro _ | split | dsimp only

theorem Keep.resetPort {fs : List Field} {s t : State} (h : Keep fs s t) (p)
    (hl : Sub [.regs, .ports, .out, .outst, .vecBusy, .power] fs :=
        by exact Sub.trans (by assumption) (by rfl)) :
    Keep fs s (State.resetPort t p) := by
  unfold State.resetPort
  try dsimp only
  repeat' first
    | with_reducible exact h | with_reducible assumption | exact Sub.trans (by assumption) (by rfl)
    | with_reducible apply Keep.clearCapture | with_reducible apply Keep.setRegN
    | with_reducible apply Keep.setPort | with_reducible apply Keep.retrain
    | with_reducible apply Keep.blockResetDone | intro _ | split | dsimp only

theorem Keep.mailboxRefused {fs : List Field} {s t : State} (h : Keep fs s t) (v)
    (hl : Sub [.regs, .ports, .out, .outst, .vecBusy, .power] fs :=
        by exact Sub.trans (by assumption) (by rfl)) :
    Keep fs s (State.mailboxRefused t v) := by
  unfold State.mailboxRefused
  try dsimp only
  repeat' first
    | with_reducible exact h | with_reducible assumption | exact Sub.trans (by assumption) (by rfl)
    | with_reducible apply Keep.capture | with_reducible apply Keep.mailboxDone | intro _ | split | dsimp only

theorem Keep.mbIslandReset {fs : List Field} {s t : State} (h : Keep fs s t) (v)
    (hl : Sub [.regs, .shad, .store, .full, .banks, .xbar, .parked, .stage, .cores, .islands, .ops, .ports,
      .out, .outst, .vecBusy, .securing, .power, .health, .replay] fs :=
        by exact Sub.trans (by assumption) (by rfl)) :
    Keep fs s (State.mbIslandReset t v) := by
  unfold State.mbIslandReset
  try dsimp only
  repeat' first
    | with_reducible exact h | with_reducible assumption | exact Sub.trans (by assumption) (by rfl)
    | with_reducible apply Keep.mailboxDone | with_reducible apply Keep.mailboxRefused
    | with_reducible apply Keep.islandReset | intro _ | split | dsimp only

theorem Keep.mbBlockReset {fs : List Field} {s t : State} (h : Keep fs s t) (v)
    (hl : Sub [.regs, .shad, .store, .full, .banks, .xbar, .parked, .stage, .cores, .islands, .ops, .ports,
      .out, .outst, .vecBusy, .securing, .power, .health, .replay] fs :=
        by exact Sub.trans (by assumption) (by rfl)) :
    Keep fs s (State.mbBlockReset t v) := by
  unfold State.mbBlockReset
  try dsimp only
  repeat' first
    | with_reducible exact h | with_reducible assumption | exact Sub.trans (by assumption) (by rfl)
    | with_reducible apply Keep.mailboxDone | with_reducible apply Keep.resetCore
    | with_reducible apply Keep.resetQueue | with_reducible apply Keep.mailboxRefused
    | with_reducible apply Keep.resetPort | intro _ | split | dsimp only

theorem Keep.mbShutdown {fs : List Field} {s t : State} (h : Keep fs s t) (v view)
    (hl : Sub [.regs, .queues, .ports, .out, .outst, .vecBusy, .power, .health, .shut, .shutResult, .free] fs :=
        by exact Sub.trans (by assumption) (by rfl)) : Keep fs s (State.mbShutdown t v view) := by
  have h1 : Keep fs s { t.setRegN mbStatKey 1 with shut := .stopping, shutResult := 0 } :=
    Keep.congr (Keep.setRegN h mbStatKey 1) rfl rfl rfl rfl rfl
  unfold State.mbShutdown
  extract_lets arg
  split
  · exact Keep.mailboxDone h _
  · split
    · exact Keep.mailboxRefused h _
    · split
      · exact h1
      · split
        next u placed e =>
        have hu : Keep fs s u := Keep.of_fst e (Keep.placeTemplate h1 _)
        split <;> exact Keep.congr hu rfl rfl rfl rfl rfl

theorem Keep.mailbox {fs : List Field} {s t : State} (h : Keep fs s t) (v view)
    (hl : Sub [.regs, .shad, .store, .full, .banks, .xbar, .parked, .stage, .cores, .islands, .queues, .ops,
      .ports, .out, .outst, .vecBusy, .securing, .power, .health, .replay, .shut, .shutResult, .free] fs :=
        by exact Sub.trans (by assumption) (by rfl)) :
    Keep fs s (State.mailbox t v view) := by
  unfold State.mailbox
  try dsimp only
  repeat' first
    | with_reducible exact h | with_reducible assumption | exact Sub.trans (by assumption) (by rfl)
    | with_reducible apply Keep.mbIslandReset | with_reducible apply Keep.mbBlockReset
    | with_reducible apply Keep.mbShutdown | with_reducible apply Keep.mailboxDone | intro _ | split
    | dsimp only

theorem Keep.shutQueue {fs : List Field} {s t : State} (h : Keep fs s t) (q)
    (hl : Sub [.regs, .shad, .store, .full, .banks, .owners, .endedOwners, .stage, .cores, .islands, .queues,
      .ports, .out, .outst, .vecBusy, .power] fs :=
        by exact Sub.trans (by assumption) (by rfl)) :
    Keep fs s (State.shutQueue t q) := by
  unfold State.shutQueue
  try dsimp only
  repeat' first
    | with_reducible exact h | with_reducible assumption | exact Sub.trans (by assumption) (by rfl)
    | with_reducible apply Keep.setQueue | with_reducible apply Keep.setRegF
    | with_reducible apply Keep.endAllTasks | intro _ | split | dsimp only

theorem Keep.shutWindow {fs : List Field} {s t : State} (h : Keep fs s t) (c h')
    (hl : Sub [.regs, .shad, .store, .full, .banks, .closing, .owners, .endedOwners, .stage, .cores, .islands,
      .ops, .ports, .out, .outst, .vecBusy, .power] fs :=
        by exact Sub.trans (by assumption) (by rfl)) :
    Keep fs s (State.shutWindow t c h') := by
  unfold State.shutWindow
  try dsimp only
  repeat' first
    | with_reducible exact h | with_reducible assumption | exact Sub.trans (by assumption) (by rfl)
    | with_reducible apply Keep.closeComplete | intro _ | split | dsimp only | with_reducible apply Keep.upd
    | exact ⟨fun f hf => by cases f <;> first | with_reducible exact rfl |
        exact absurd (Sub.mem (by assumption) _ (by decide)) hf⟩

theorem Keep.shutdownFinish {fs : List Field} {s t : State} (h : Keep fs s t)
    (hl : Sub [.regs, .shad, .store, .full, .moved, .banks, .xbar, .parked, .closing, .owners, .endedOwners,
      .stage, .cores, .islands, .queues, .ops, .ports, .out, .outst, .vecBusy, .sb, .sec, .audit, .power,
      .mute, .shut] fs :=
        by exact Sub.trans (by assumption) (by rfl)) :
    Keep fs s (State.shutdownFinish t) := by
  unfold State.shutdownFinish
  try dsimp only
  repeat' first
    | with_reducible exact h | with_reducible assumption | exact Sub.trans (by assumption) (by rfl)
    | with_reducible apply Keep.shutQueue | with_reducible apply Keep.shutWindow
    | with_reducible apply Keep.writeJcbPart | with_reducible apply Keep.writeJcbHeader
    | with_reducible apply Keep.scrub | with_reducible apply Keep.mapCores | with_reducible apply Keep.audited
    | with_reducible apply Keep.zeroise | with_reducible apply Keep.mailboxDone
    | with_reducible apply Keep.allDark | with_reducible apply Keep.dropTraffic
    | with_reducible apply Keep.setRung | with_reducible apply Keep.vreqZero
    | with_reducible apply Keep.cutPorts | with_reducible apply Keep.setRegF | with_reducible apply Keep.foldl
    | with_reducible refine Keep.foldl' Prod.fst ?_ ?_ | intro _ | split | dsimp only
    | with_reducible apply Keep.upd
    | exact ⟨fun f hf => by cases f <;> first | with_reducible exact rfl |
        exact absurd (Sub.mem (by assumption) _ (by decide)) hf⟩

theorem Keep.watchdogExpiry {fs : List Field} {s t : State} (h : Keep fs s t) (c)
    (hl : Sub [.regs, .shad, .store, .full, .banks, .xbar, .parked, .stage, .cores, .islands, .ops, .ports,
      .out, .outst, .vecBusy, .securing, .power, .health, .replay] fs :=
        by exact Sub.trans (by assumption) (by rfl)) :
    Keep fs s (State.watchdogExpiry t c) := by
  unfold State.watchdogExpiry
  try dsimp only
  repeat' first
    | with_reducible exact h | with_reducible assumption | exact Sub.trans (by assumption) (by rfl)
    | with_reducible apply Keep.capture | with_reducible apply Keep.islandReset | intro _ | split | dsimp only

theorem Keep.readEffect {fs : List Field} {s t : State} (h : Keep fs s t) (p o)
    (hl : Sub [.regs] fs := by exact Sub.trans (by assumption) (by rfl)) :
    Keep fs s (State.readEffect t p o) := by
  unfold State.readEffect
  try dsimp only
  repeat' first
    | with_reducible exact h | with_reducible assumption | exact Sub.trans (by assumption) (by rfl)
    | with_reducible apply Keep.setRegN | intro _ | split | dsimp only

theorem Keep.answerRead {fs : List Field} {s t : State} (h : Keep fs s t) (a v status)
    (hl : Sub [.ports, .out, .power] fs := by exact Sub.trans (by assumption) (by rfl)) :
    Keep fs s (State.answerRead t a v status) := by
  unfold State.answerRead
  try dsimp only
  repeat' first
    | with_reducible exact h | with_reducible assumption | exact Sub.trans (by assumption) (by rfl)
    | with_reducible apply Keep.send | intro _ | split | dsimp only

theorem Keep.wakeFor {fs : List Field} {s t : State} (h : Keep fs s t) (p)
    (hl : Sub [.regs, .shad, .store, .full, .banks, .stage, .cores, .islands, .ports, .out, .outst, .vecBusy,
      .power] fs :=
        by exact Sub.trans (by assumption) (by rfl)) :
    Keep fs s (State.wakeFor t p) := by
  unfold State.wakeFor
  try dsimp only
  repeat' first
    | with_reducible exact h | with_reducible assumption | exact Sub.trans (by assumption) (by rfl)
    | with_reducible apply Keep.wakeIsland | intro _ | split | dsimp only

theorem Keep.pageInject {fs : List Field} {s t : State} (h : Keep fs s t) (p o)
    (hl : Sub [.regs, .shad, .store, .full, .banks, .xbar, .parked, .stage, .cores, .islands, .queues, .ops,
      .ports, .out, .outst, .vecBusy, .power, .health, .injected, .free] fs :=
        by exact Sub.trans (by assumption) (by rfl)) :
    Keep fs s (State.pageInject t p o) := by
  unfold State.pageInject
  try dsimp only
  repeat' first
    | with_reducible exact h | with_reducible assumption | exact Sub.trans (by assumption) (by rfl)
    | with_reducible apply Keep.readControl | intro _ | split | dsimp only

theorem Keep.accessRead {fs : List Field} {s t : State} (h : Keep fs s t) (a off)
    (hl : Sub [.regs, .shad, .store, .full, .banks, .xbar, .parked, .stage, .cores, .islands, .queues, .ops,
      .ports, .out, .outst, .vecBusy, .power, .health, .injected, .free] fs :=
        by exact Sub.trans (by assumption) (by rfl)) :
    Keep fs s (State.accessRead t a off) := by
  unfold State.accessRead
  try dsimp only
  repeat' first
    | with_reducible exact h | with_reducible assumption | exact Sub.trans (by assumption) (by rfl)
    | with_reducible apply Keep.answerRead | with_reducible apply Keep.capture
    | with_reducible apply Keep.wakeFor | with_reducible apply Keep.pageInject
    | with_reducible apply Keep.readEffect | intro _ | split | dsimp only

theorem Keep.store1 {fs : List Field} {s t : State} (h : Keep fs s t) (p r o v)
    (hl : Sub [.regs] fs := by exact Sub.trans (by assumption) (by rfl)) :
    Keep fs s (State.store1 t p r o v) := by
  unfold State.store1
  try dsimp only
  repeat' first
    | with_reducible exact h | with_reducible assumption | exact Sub.trans (by assumption) (by rfl)
    | with_reducible apply Keep.setReg | intro _ | split | dsimp only

theorem Keep.queueControl {fs : List Field} {s t : State} (h : Keep fs s t) (q v)
    (hl : Sub [.regs, .shad, .store, .full, .banks, .owners, .endedOwners, .stage, .cores, .islands, .queues,
      .ports, .out, .outst, .vecBusy, .power, .recovery] fs :=
        by exact Sub.trans (by assumption) (by rfl)) :
    Keep fs s (State.queueControl t q v) := by
  unfold State.queueControl
  try dsimp only
  repeat' first
    | with_reducible exact h | with_reducible assumption | exact Sub.trans (by assumption) (by rfl)
    | with_reducible apply Keep.setReg | with_reducible apply Keep.setQueue
    | with_reducible apply Keep.stopCheck | intro _ | split | dsimp only | with_reducible apply Keep.upd
    | exact ⟨fun f hf => by cases f <;> first | with_reducible exact rfl |
        exact absurd (Sub.mem (by assumption) _ (by decide)) hf⟩

theorem Keep.writeQueue {fs : List Field} {s t : State} (h : Keep fs s t) (p r o v)
    (hl : Sub [.regs, .shad, .store, .full, .banks, .owners, .endedOwners, .stage, .cores, .islands, .queues,
      .ports, .out, .outst, .vecBusy, .power, .recovery] fs :=
        by exact Sub.trans (by assumption) (by rfl)) :
    Keep fs s (State.writeQueue t p r o v) := by
  unfold State.writeQueue
  try dsimp only
  repeat' first
    | with_reducible exact h | with_reducible assumption | exact Sub.trans (by assumption) (by rfl)
    | with_reducible apply Keep.store1 | with_reducible apply Keep.queueControl
    | with_reducible apply Keep.setReg | intro _ | split | dsimp only

theorem Keep.writePort {fs : List Field} {s t : State} (h : Keep fs s t) (p r o v)
    (hl : Sub [.regs, .ports] fs := by exact Sub.trans (by assumption) (by rfl)) :
    Keep fs s (State.writePort t p r o v) := by
  unfold State.writePort
  try dsimp only
  repeat' first
    | with_reducible exact h | with_reducible assumption | exact Sub.trans (by assumption) (by rfl)
    | with_reducible apply Keep.setRegF | with_reducible apply Keep.retrain | with_reducible apply Keep.store1
    | intro _ | split | dsimp only

theorem Keep.writePower {fs : List Field} {s t : State} (h : Keep fs s t) (p r o v)
    (hl : Sub [.regs, .ports, .out, .outst, .vecBusy, .power] fs :=
        by exact Sub.trans (by assumption) (by rfl)) :
    Keep fs s (State.writePower t p r o v) := by
  unfold State.writePower
  try dsimp only
  repeat' first
    | with_reducible exact h | with_reducible assumption | exact Sub.trans (by assumption) (by rfl)
    | with_reducible apply Keep.store1 | with_reducible apply Keep.measure
    | with_reducible apply Keep.learnClear | with_reducible apply Keep.setRegF | intro _ | split | dsimp only

theorem Keep.writeJournal {fs : List Field} {s t : State} (h : Keep fs s t) (p r o v view)
    (hl : Sub [.regs, .shad, .store, .full, .banks, .owners, .endedOwners, .stage, .cores, .islands, .queues,
      .ports, .out, .outst, .vecBusy, .groups, .power, .health, .replay, .journal, .jfloor, .images,
      .free] fs :=
        by exact Sub.trans (by assumption) (by rfl)) :
    Keep fs s (State.writeJournal t p r o v view) := by
  unfold State.writeJournal
  try dsimp only
  repeat' first
    | with_reducible exact h | with_reducible assumption | exact Sub.trans (by assumption) (by rfl)
    | with_reducible apply Keep.store1 | with_reducible apply Keep.journalStart
    | with_reducible apply Keep.replayStart | with_reducible apply Keep.retireTo | intro _ | split | dsimp only

theorem Keep.writeGroup {fs : List Field} {s t : State} (h : Keep fs s t) (p r o v)
    (hl : Sub [.regs, .ops, .ports, .out, .outst, .groups, .securing, .power] fs :=
        by exact Sub.trans (by assumption) (by rfl)) :
    Keep fs s (State.writeGroup t p r o v) := by
  unfold State.writeGroup
  try dsimp only
  repeat' first
    | with_reducible exact h | with_reducible assumption | exact Sub.trans (by assumption) (by rfl)
    | with_reducible apply Keep.form | with_reducible apply Keep.dissolve | with_reducible apply Keep.setGroup
    | with_reducible apply Keep.store1 | intro _ | split | dsimp only

theorem Keep.writeAudit {fs : List Field} {s t : State} (h : Keep fs s t) (p r o v priv port)
    (hl : Sub [.regs, .ports, .out, .outst, .vecBusy, .audit, .power] fs :=
        by exact Sub.trans (by assumption) (by rfl)) :
    Keep fs s (State.writeAudit t p r o v priv port) := by
  unfold State.writeAudit
  try dsimp only
  repeat' first
    | with_reducible exact h | with_reducible assumption | exact Sub.trans (by assumption) (by rfl)
    | with_reducible apply Keep.store1 | with_reducible apply Keep.configureAudit | intro _ | split | dsimp only

theorem Keep.writeProt {fs : List Field} {s t : State} (h : Keep fs s t) (p r o v priv port)
    (hl : Sub [.regs, .shad, .store, .full, .banks, .owners, .endedOwners, .stage, .cores, .islands, .queues,
      .ports, .out, .outst, .vecBusy, .prot, .audit, .power] fs :=
        by exact Sub.trans (by assumption) (by rfl)) :
    Keep fs s (State.writeProt t p r o v priv port) := by
  unfold State.writeProt
  try dsimp only
  repeat' first
    | with_reducible exact h | with_reducible assumption | exact Sub.trans (by assumption) (by rfl)
    | with_reducible apply Keep.applyEntry | with_reducible apply Keep.endNamed
    | with_reducible apply Keep.store1 | intro _ | split | dsimp only

theorem Keep.relock {fs : List Field} {s t : State} (h : Keep fs s t)
    (hl : Sub [.regs, .sb, .injected] fs := by exact Sub.trans (by assumption) (by rfl)) :
    Keep fs s (State.relock t) := by
  unfold State.relock
  try dsimp only
  repeat' first
    | with_reducible exact h | with_reducible assumption | exact Sub.trans (by assumption) (by rfl)
    | intro _ | split | dsimp only | with_reducible apply Keep.upd
    | exact ⟨fun f hf => by cases f <;> first | with_reducible exact rfl |
        exact absurd (Sub.mem (by assumption) _ (by decide)) hf⟩

theorem Keep.writeUnlock {fs : List Field} {s t : State} (h : Keep fs s t) (v priv port)
    (hl : Sub [.regs, .ports, .out, .outst, .vecBusy, .sb, .audit, .power, .injected] fs :=
        by exact Sub.trans (by assumption) (by rfl)) :
    Keep fs s (State.writeUnlock t v priv port) := by
  unfold State.writeUnlock
  try dsimp only
  repeat' first
    | with_reducible exact h | with_reducible assumption | exact Sub.trans (by assumption) (by rfl)
    | with_reducible apply Keep.audited | with_reducible apply Keep.setRegF | with_reducible apply Keep.relock
    | intro _ | split | dsimp only

theorem Keep.writePolicy {fs : List Field} {s t : State} (h : Keep fs s t) (v priv port)
    (hl : Sub [.regs, .ports, .out, .outst, .vecBusy, .audit, .power] fs :=
        by exact Sub.trans (by assumption) (by rfl)) :
    Keep fs s (State.writePolicy t v priv port) := by
  unfold State.writePolicy
  try dsimp only
  repeat' first
    | with_reducible exact h | with_reducible assumption | exact Sub.trans (by assumption) (by rfl)
    | with_reducible apply Keep.audited | with_reducible apply Keep.setRegF | intro _ | split | dsimp only

theorem Keep.writeCore {fs : List Field} {s t : State} (h : Keep fs s t) (p r o v)
    (hl : Sub [.regs] fs := by exact Sub.trans (by assumption) (by rfl)) :
    Keep fs s (State.writeCore t p r o v) := by
  unfold State.writeCore
  try dsimp only
  repeat' first
    | with_reducible exact h | with_reducible assumption | exact Sub.trans (by assumption) (by rfl)
    | with_reducible apply Keep.setReg | with_reducible apply Keep.store1 | intro _ | split | dsimp only

theorem Keep.writeBlock {fs : List Field} {s t : State} (h : Keep fs s t) (p r o v priv port aux)
    (hl : Sub [.regs, .shad, .store, .full, .banks, .xbar, .parked, .owners, .endedOwners, .stage, .cores,
      .islands, .queues, .ops, .ports, .out, .outst, .vecBusy, .prot, .groups, .sb, .fuses, .sec, .audit,
      .securing, .power, .health, .replay, .journal, .jfloor, .images, .recovery, .shut, .shutResult,
      .commitHold, .injected, .free] fs :=
        by exact Sub.trans (by assumption) (by rfl)) :
    Keep fs s (State.writeBlock t p r o v priv port aux) := by
  unfold State.writeBlock
  try dsimp only
  repeat' first
    | with_reducible exact h | with_reducible assumption | exact Sub.trans (by assumption) (by rfl)
    | with_reducible apply Keep.dieCommit | with_reducible apply Keep.store1
    | with_reducible apply Keep.vectorResend | with_reducible apply Keep.mailbox
    | with_reducible apply Keep.writeQueue | with_reducible apply Keep.writePort
    | with_reducible apply Keep.takePosition | with_reducible apply Keep.writePower
    | with_reducible apply Keep.writeJournal | with_reducible apply Keep.writePolicy
    | with_reducible apply Keep.writeGroup | with_reducible apply Keep.secCommand
    | with_reducible apply Keep.writeAudit | with_reducible apply Keep.writeProt
    | with_reducible apply Keep.writeUnlock | with_reducible apply Keep.setTags
    | with_reducible apply Keep.writeCore | intro _ | split | dsimp only

theorem Keep.writeCommon {fs : List Field} {s t : State} (h : Keep fs s t) (p r o v)
    (hl : Sub [.regs, .ports, .out, .outst, .vecBusy, .power] fs :=
        by exact Sub.trans (by assumption) (by rfl)) :
    Keep fs s (State.writeCommon t p r o v) := by
  unfold State.writeCommon
  try dsimp only
  repeat' first
    | with_reducible exact h | with_reducible assumption | exact Sub.trans (by assumption) (by rfl)
    | with_reducible apply Keep.store1 | with_reducible apply Keep.vectorTouched
    | with_reducible apply Keep.setReg | intro _ | split | dsimp only

theorem Keep.writeTest {fs : List Field} {s t : State} (h : Keep fs s t) (p r o v)
    (hl : Sub [.regs, .injected] fs := by exact Sub.trans (by assumption) (by rfl)) :
    Keep fs s (State.writeTest t p r o v) := by
  unfold State.writeTest
  try dsimp only
  repeat' first
    | with_reducible exact h | with_reducible assumption | exact Sub.trans (by assumption) (by rfl)
    | with_reducible apply Keep.store1 | intro _ | split | dsimp only | with_reducible apply Keep.upd
    | exact ⟨fun f hf => by cases f <;> first | with_reducible exact rfl |
        exact absurd (Sub.mem (by assumption) _ (by decide)) hf⟩

theorem Keep.writeEffect {fs : List Field} {s t : State} (h : Keep fs s t) (p r o v priv port aux)
    (hl : Sub [.regs, .shad, .store, .full, .banks, .xbar, .parked, .owners, .endedOwners, .stage, .cores,
      .islands, .queues, .ops, .ports, .out, .outst, .vecBusy, .prot, .groups, .sb, .fuses, .sec, .audit,
      .securing, .power, .health, .replay, .journal, .jfloor, .images, .recovery, .shut, .shutResult,
      .commitHold, .injected, .free] fs :=
        by exact Sub.trans (by assumption) (by rfl)) :
    Keep fs s (State.writeEffect t p r o v priv port aux) := by
  unfold State.writeEffect
  try dsimp only
  repeat' first
    | with_reducible exact h | with_reducible assumption | exact Sub.trans (by assumption) (by rfl)
    | with_reducible apply Keep.writeTest | with_reducible apply Keep.requestCommit
    | with_reducible apply Keep.shadowCtrl | with_reducible apply Keep.writeShadow
    | with_reducible apply Keep.writeCommon | with_reducible apply Keep.writeBlock | intro _ | split
    | dsimp only

theorem Keep.writeRegister {fs : List Field} {s t : State} (h : Keep fs s t) (p r o v priv port aux)
    (hl : Sub [.regs, .shad, .store, .full, .banks, .xbar, .parked, .owners, .endedOwners, .stage, .cores,
      .islands, .queues, .ops, .ports, .out, .outst, .vecBusy, .prot, .groups, .sb, .fuses, .sec, .audit,
      .securing, .power, .health, .replay, .journal, .jfloor, .images, .recovery, .shut, .shutResult,
      .commitHold, .injected, .free] fs :=
        by exact Sub.trans (by assumption) (by rfl)) :
    Keep fs s (State.writeRegister t p r o v priv port aux).1 := by
  unfold State.writeRegister
  try dsimp only
  repeat' first
    | with_reducible exact h | with_reducible assumption | exact Sub.trans (by assumption) (by rfl)
    | with_reducible apply Keep.captureCommon | with_reducible apply Keep.capture
    | with_reducible apply Keep.noteRefusal | with_reducible apply Keep.refuseWrite
    | with_reducible apply Keep.wakeFor | with_reducible apply Keep.pageInject
    | with_reducible apply Keep.openWindows | with_reducible apply Keep.writeEffect | intro _ | split
    | dsimp only

theorem Keep.accessWrite {fs : List Field} {s t : State} (h : Keep fs s t) (a off v aux)
    (hl : Sub [.regs, .shad, .store, .full, .banks, .xbar, .parked, .owners, .endedOwners, .stage, .cores,
      .islands, .queues, .ops, .ports, .out, .outst, .vecBusy, .prot, .groups, .sb, .fuses, .sec, .audit,
      .securing, .power, .health, .replay, .journal, .jfloor, .images, .recovery, .shut, .shutResult,
      .commitHold, .injected, .free] fs :=
        by exact Sub.trans (by assumption) (by rfl)) :
    Keep fs s (State.accessWrite t a off v aux) := by
  unfold State.accessWrite
  try dsimp only
  repeat' first
    | with_reducible exact h | with_reducible assumption | exact Sub.trans (by assumption) (by rfl)
    | with_reducible apply Keep.respond | with_reducible apply Keep.writeRegister
    | refine Keep.of_fst (by assumption) ?_ | refine Keep.of_snd (by assumption) ?_ | intro _ | split
    | dsimp only

theorem Keep.tick {fs : List Field} {s t : State} (h : Keep fs s t)
    (hl : Sub [.regs, .ports, .time, .power] fs :=
        by exact Sub.trans (by assumption) (by rfl)) : Keep fs s (Machine.tick t) := by
  unfold Machine.tick
  refine Keep.pumpPorts ?_
  split
  · exact Keep.congr h rfl rfl rfl rfl rfl
  · exact h

end Sys2Proof.Machine
end

