-- ==== Sys2Proof/Laws/State.lean ====
section
/-!
SUPPORT. What each named update of the state does to each part: the part that it writes, every part that it does not
write, and what each named reader gives after it.
-/

namespace Sys2Proof.Machine

set_option Elab.async false

/-! ## `State.setReg` -/

theorem State.setReg_regs (s : State) (k : Nat) (v : Word) : (s.setReg k v).regs = SMap.putD s.regs k v (regReset k) := rfl
@[simp] theorem State.setReg_shad (s : State) (k : Nat) (v : Word) : (s.setReg k v).shad = s.shad := rfl
@[simp] theorem State.setReg_store (s : State) (k : Nat) (v : Word) : (s.setReg k v).store = s.store := rfl
@[simp] theorem State.setReg_full (s : State) (k : Nat) (v : Word) : (s.setReg k v).full = s.full := rfl
@[simp] theorem State.setReg_moved (s : State) (k : Nat) (v : Word) : (s.setReg k v).moved = s.moved := rfl
@[simp] theorem State.setReg_banks (s : State) (k : Nat) (v : Word) : (s.setReg k v).banks = s.banks := rfl
@[simp] theorem State.setReg_xbar (s : State) (k : Nat) (v : Word) : (s.setReg k v).xbar = s.xbar := rfl
@[simp] theorem State.setReg_parked (s : State) (k : Nat) (v : Word) : (s.setReg k v).parked = s.parked := rfl
@[simp] theorem State.setReg_closing (s : State) (k : Nat) (v : Word) : (s.setReg k v).closing = s.closing := rfl
@[simp] theorem State.setReg_owners (s : State) (k : Nat) (v : Word) : (s.setReg k v).owners = s.owners := rfl
@[simp] theorem State.setReg_endedOwners (s : State) (k : Nat) (v : Word) : (s.setReg k v).endedOwners = s.endedOwners := rfl
@[simp] theorem State.setReg_stage (s : State) (k : Nat) (v : Word) : (s.setReg k v).stage = s.stage := rfl
@[simp] theorem State.setReg_cores (s : State) (k : Nat) (v : Word) : (s.setReg k v).cores = s.cores := rfl
@[simp] theorem State.setReg_islands (s : State) (k : Nat) (v : Word) : (s.setReg k v).islands = s.islands := rfl
@[simp] theorem State.setReg_queues (s : State) (k : Nat) (v : Word) : (s.setReg k v).queues = s.queues := rfl
@[simp] theorem State.setReg_ops (s : State) (k : Nat) (v : Word) : (s.setReg k v).ops = s.ops := rfl
@[simp] theorem State.setReg_nextOp (s : State) (k : Nat) (v : Word) : (s.setReg k v).nextOp = s.nextOp := rfl
@[simp] theorem State.setReg_ports (s : State) (k : Nat) (v : Word) : (s.setReg k v).ports = s.ports := rfl
@[simp] theorem State.setReg_out (s : State) (k : Nat) (v : Word) : (s.setReg k v).out = s.out := rfl
@[simp] theorem State.setReg_outst (s : State) (k : Nat) (v : Word) : (s.setReg k v).outst = s.outst := rfl
@[simp] theorem State.setReg_vecBusy (s : State) (k : Nat) (v : Word) : (s.setReg k v).vecBusy = s.vecBusy := rfl
@[simp] theorem State.setReg_prot (s : State) (k : Nat) (v : Word) : (s.setReg k v).prot = s.prot := rfl
@[simp] theorem State.setReg_groups (s : State) (k : Nat) (v : Word) : (s.setReg k v).groups = s.groups := rfl
@[simp] theorem State.setReg_time (s : State) (k : Nat) (v : Word) : (s.setReg k v).time = s.time := rfl
@[simp] theorem State.setReg_sb (s : State) (k : Nat) (v : Word) : (s.setReg k v).sb = s.sb := rfl
@[simp] theorem State.setReg_fuses (s : State) (k : Nat) (v : Word) : (s.setReg k v).fuses = s.fuses := rfl
@[simp] theorem State.setReg_sec (s : State) (k : Nat) (v : Word) : (s.setReg k v).sec = s.sec := rfl
@[simp] theorem State.setReg_audit (s : State) (k : Nat) (v : Word) : (s.setReg k v).audit = s.audit := rfl
@[simp] theorem State.setReg_latched (s : State) (k : Nat) (v : Word) : (s.setReg k v).latched = s.latched := rfl
@[simp] theorem State.setReg_securing (s : State) (k : Nat) (v : Word) : (s.setReg k v).securing = s.securing := rfl
@[simp] theorem State.setReg_power (s : State) (k : Nat) (v : Word) : (s.setReg k v).power = s.power := rfl
@[simp] theorem State.setReg_therm (s : State) (k : Nat) (v : Word) : (s.setReg k v).therm = s.therm := rfl
@[simp] theorem State.setReg_health (s : State) (k : Nat) (v : Word) : (s.setReg k v).health = s.health := rfl
@[simp] theorem State.setReg_replay (s : State) (k : Nat) (v : Word) : (s.setReg k v).replay = s.replay := rfl
@[simp] theorem State.setReg_journal (s : State) (k : Nat) (v : Word) : (s.setReg k v).journal = s.journal := rfl
@[simp] theorem State.setReg_jfloor (s : State) (k : Nat) (v : Word) : (s.setReg k v).jfloor = s.jfloor := rfl
@[simp] theorem State.setReg_images (s : State) (k : Nat) (v : Word) : (s.setReg k v).images = s.images := rfl
@[simp] theorem State.setReg_recovery (s : State) (k : Nat) (v : Word) : (s.setReg k v).recovery = s.recovery := rfl
@[simp] theorem State.setReg_mute (s : State) (k : Nat) (v : Word) : (s.setReg k v).mute = s.mute := rfl
@[simp] theorem State.setReg_stopped (s : State) (k : Nat) (v : Word) : (s.setReg k v).stopped = s.stopped := rfl
@[simp] theorem State.setReg_shut (s : State) (k : Nat) (v : Word) : (s.setReg k v).shut = s.shut := rfl
@[simp] theorem State.setReg_shutResult (s : State) (k : Nat) (v : Word) : (s.setReg k v).shutResult = s.shutResult := rfl
@[simp] theorem State.setReg_commitHold (s : State) (k : Nat) (v : Word) : (s.setReg k v).commitHold = s.commitHold := rfl
@[simp] theorem State.setReg_injected (s : State) (k : Nat) (v : Word) : (s.setReg k v).injected = s.injected := rfl
@[simp] theorem State.setReg_turn (s : State) (k : Nat) (v : Word) : (s.setReg k v).turn = s.turn := rfl
@[simp] theorem State.setReg_free (s : State) (k : Nat) (v : Word) : (s.setReg k v).free = s.free := rfl
@[simp] theorem State.setReg_pending (s : State) (k : Nat) (v : Word) : (s.setReg k v).pending = s.pending := rfl
@[simp] theorem State.core_setReg (s : State) (k : Nat) (v : Word) (x : Nat) : (s.setReg k v).core x = s.core x := rfl
@[simp] theorem State.queue_setReg (s : State) (k : Nat) (v : Word) (x : Nat) : (s.setReg k v).queue x = s.queue x := rfl
@[simp] theorem State.port_setReg (s : State) (k : Nat) (v : Word) (x : Nat) : (s.setReg k v).port x = s.port x := rfl
@[simp] theorem State.island_setReg (s : State) (k : Nat) (v : Word) (x : Nat) : (s.setReg k v).island x = s.island x := rfl
@[simp] theorem State.group_setReg (s : State) (k : Nat) (v : Word) (x : Nat) : (s.setReg k v).group x = s.group x := rfl
@[simp] theorem State.protEntry_setReg (s : State) (k : Nat) (v : Word) (x : Nat) : (s.setReg k v).protEntry x = s.protEntry x := rfl
@[simp] theorem State.op_setReg (s : State) (k : Nat) (v : Word) (x : Nat) : (s.setReg k v).op x = s.op x := rfl
@[simp] theorem State.isFull_setReg (s : State) (k : Nat) (v : Word) (x : Nat) : (s.setReg k v).isFull x = s.isFull x := rfl
@[simp] theorem State.bank_setReg (s : State) (k : Nat) (v : Word) (x : Nat) : (s.setReg k v).bank x = s.bank x := rfl
@[simp] theorem State.waiting_setReg (s : State) (k : Nat) (v : Word) (x : Nat) : (s.setReg k v).waiting x = s.waiting x := rfl
@[simp] theorem State.parkedAt_setReg (s : State) (k : Nat) (v : Word) (x : Nat) : (s.setReg k v).parkedAt x = s.parkedAt x := rfl
@[simp] theorem State.stageOf_setReg (s : State) (k : Nat) (v : Word) (x : Nat) : (s.setReg k v).stageOf x = s.stageOf x := rfl

/-! ## `State.setRegN` -/

theorem State.setRegN_regs (s : State) (k v : Nat) : (s.setRegN k v).regs = SMap.putD s.regs k (w32 v) (regReset k) := rfl
@[simp] theorem State.setRegN_shad (s : State) (k v : Nat) : (s.setRegN k v).shad = s.shad := rfl
@[simp] theorem State.setRegN_store (s : State) (k v : Nat) : (s.setRegN k v).store = s.store := rfl
@[simp] theorem State.setRegN_full (s : State) (k v : Nat) : (s.setRegN k v).full = s.full := rfl
@[simp] theorem State.setRegN_moved (s : State) (k v : Nat) : (s.setRegN k v).moved = s.moved := rfl
@[simp] theorem State.setRegN_banks (s : State) (k v : Nat) : (s.setRegN k v).banks = s.banks := rfl
@[simp] theorem State.setRegN_xbar (s : State) (k v : Nat) : (s.setRegN k v).xbar = s.xbar := rfl
@[simp] theorem State.setRegN_parked (s : State) (k v : Nat) : (s.setRegN k v).parked = s.parked := rfl
@[simp] theorem State.setRegN_closing (s : State) (k v : Nat) : (s.setRegN k v).closing = s.closing := rfl
@[simp] theorem State.setRegN_owners (s : State) (k v : Nat) : (s.setRegN k v).owners = s.owners := rfl
@[simp] theorem State.setRegN_endedOwners (s : State) (k v : Nat) : (s.setRegN k v).endedOwners = s.endedOwners := rfl
@[simp] theorem State.setRegN_stage (s : State) (k v : Nat) : (s.setRegN k v).stage = s.stage := rfl
@[simp] theorem State.setRegN_cores (s : State) (k v : Nat) : (s.setRegN k v).cores = s.cores := rfl
@[simp] theorem State.setRegN_islands (s : State) (k v : Nat) : (s.setRegN k v).islands = s.islands := rfl
@[simp] theorem State.setRegN_queues (s : State) (k v : Nat) : (s.setRegN k v).queues = s.queues := rfl
@[simp] theorem State.setRegN_ops (s : State) (k v : Nat) : (s.setRegN k v).ops = s.ops := rfl
@[simp] theorem State.setRegN_nextOp (s : State) (k v : Nat) : (s.setRegN k v).nextOp = s.nextOp := rfl
@[simp] theorem State.setRegN_ports (s : State) (k v : Nat) : (s.setRegN k v).ports = s.ports := rfl
@[simp] theorem State.setRegN_out (s : State) (k v : Nat) : (s.setRegN k v).out = s.out := rfl
@[simp] theorem State.setRegN_outst (s : State) (k v : Nat) : (s.setRegN k v).outst = s.outst := rfl
@[simp] theorem State.setRegN_vecBusy (s : State) (k v : Nat) : (s.setRegN k v).vecBusy = s.vecBusy := rfl
@[simp] theorem State.setRegN_prot (s : State) (k v : Nat) : (s.setRegN k v).prot = s.prot := rfl
@[simp] theorem State.setRegN_groups (s : State) (k v : Nat) : (s.setRegN k v).groups = s.groups := rfl
@[simp] theorem State.setRegN_time (s : State) (k v : Nat) : (s.setRegN k v).time = s.time := rfl
@[simp] theorem State.setRegN_sb (s : State) (k v : Nat) : (s.setRegN k v).sb = s.sb := rfl
@[simp] theorem State.setRegN_fuses (s : State) (k v : Nat) : (s.setRegN k v).fuses = s.fuses := rfl
@[simp] theorem State.setRegN_sec (s : State) (k v : Nat) : (s.setRegN k v).sec = s.sec := rfl
@[simp] theorem State.setRegN_audit (s : State) (k v : Nat) : (s.setRegN k v).audit = s.audit := rfl
@[simp] theorem State.setRegN_latched (s : State) (k v : Nat) : (s.setRegN k v).latched = s.latched := rfl
@[simp] theorem State.setRegN_securing (s : State) (k v : Nat) : (s.setRegN k v).securing = s.securing := rfl
@[simp] theorem State.setRegN_power (s : State) (k v : Nat) : (s.setRegN k v).power = s.power := rfl
@[simp] theorem State.setRegN_therm (s : State) (k v : Nat) : (s.setRegN k v).therm = s.therm := rfl
@[simp] theorem State.setRegN_health (s : State) (k v : Nat) : (s.setRegN k v).health = s.health := rfl
@[simp] theorem State.setRegN_replay (s : State) (k v : Nat) : (s.setRegN k v).replay = s.replay := rfl
@[simp] theorem State.setRegN_journal (s : State) (k v : Nat) : (s.setRegN k v).journal = s.journal := rfl
@[simp] theorem State.setRegN_jfloor (s : State) (k v : Nat) : (s.setRegN k v).jfloor = s.jfloor := rfl
@[simp] theorem State.setRegN_images (s : State) (k v : Nat) : (s.setRegN k v).images = s.images := rfl
@[simp] theorem State.setRegN_recovery (s : State) (k v : Nat) : (s.setRegN k v).recovery = s.recovery := rfl
@[simp] theorem State.setRegN_mute (s : State) (k v : Nat) : (s.setRegN k v).mute = s.mute := rfl
@[simp] theorem State.setRegN_stopped (s : State) (k v : Nat) : (s.setRegN k v).stopped = s.stopped := rfl
@[simp] theorem State.setRegN_shut (s : State) (k v : Nat) : (s.setRegN k v).shut = s.shut := rfl
@[simp] theorem State.setRegN_shutResult (s : State) (k v : Nat) : (s.setRegN k v).shutResult = s.shutResult := rfl
@[simp] theorem State.setRegN_commitHold (s : State) (k v : Nat) : (s.setRegN k v).commitHold = s.commitHold := rfl
@[simp] theorem State.setRegN_injected (s : State) (k v : Nat) : (s.setRegN k v).injected = s.injected := rfl
@[simp] theorem State.setRegN_turn (s : State) (k v : Nat) : (s.setRegN k v).turn = s.turn := rfl
@[simp] theorem State.setRegN_free (s : State) (k v : Nat) : (s.setRegN k v).free = s.free := rfl
@[simp] theorem State.setRegN_pending (s : State) (k v : Nat) : (s.setRegN k v).pending = s.pending := rfl
@[simp] theorem State.core_setRegN (s : State) (k v : Nat) (x : Nat) : (s.setRegN k v).core x = s.core x := rfl
@[simp] theorem State.queue_setRegN (s : State) (k v : Nat) (x : Nat) : (s.setRegN k v).queue x = s.queue x := rfl
@[simp] theorem State.port_setRegN (s : State) (k v : Nat) (x : Nat) : (s.setRegN k v).port x = s.port x := rfl
@[simp] theorem State.island_setRegN (s : State) (k v : Nat) (x : Nat) : (s.setRegN k v).island x = s.island x := rfl
@[simp] theorem State.group_setRegN (s : State) (k v : Nat) (x : Nat) : (s.setRegN k v).group x = s.group x := rfl
@[simp] theorem State.protEntry_setRegN (s : State) (k v : Nat) (x : Nat) : (s.setRegN k v).protEntry x = s.protEntry x := rfl
@[simp] theorem State.op_setRegN (s : State) (k v : Nat) (x : Nat) : (s.setRegN k v).op x = s.op x := rfl
@[simp] theorem State.isFull_setRegN (s : State) (k v : Nat) (x : Nat) : (s.setRegN k v).isFull x = s.isFull x := rfl
@[simp] theorem State.bank_setRegN (s : State) (k v : Nat) (x : Nat) : (s.setRegN k v).bank x = s.bank x := rfl
@[simp] theorem State.waiting_setRegN (s : State) (k v : Nat) (x : Nat) : (s.setRegN k v).waiting x = s.waiting x := rfl
@[simp] theorem State.parkedAt_setRegN (s : State) (k v : Nat) (x : Nat) : (s.setRegN k v).parkedAt x = s.parkedAt x := rfl
@[simp] theorem State.stageOf_setRegN (s : State) (k v : Nat) (x : Nat) : (s.setRegN k v).stageOf x = s.stageOf x := rfl

/-! ## `State.setRegF` -/

theorem State.setRegF_regs (s : State) (k lo w v : Nat) : (s.setRegF k lo w v).regs = SMap.putD s.regs k (w32 (putFld (s.regN k) lo w v)) (regReset k) := rfl
@[simp] theorem State.setRegF_shad (s : State) (k lo w v : Nat) : (s.setRegF k lo w v).shad = s.shad := rfl
@[simp] theorem State.setRegF_store (s : State) (k lo w v : Nat) : (s.setRegF k lo w v).store = s.store := rfl
@[simp] theorem State.setRegF_full (s : State) (k lo w v : Nat) : (s.setRegF k lo w v).full = s.full := rfl
@[simp] theorem State.setRegF_moved (s : State) (k lo w v : Nat) : (s.setRegF k lo w v).moved = s.moved := rfl
@[simp] theorem State.setRegF_banks (s : State) (k lo w v : Nat) : (s.setRegF k lo w v).banks = s.banks := rfl
@[simp] theorem State.setRegF_xbar (s : State) (k lo w v : Nat) : (s.setRegF k lo w v).xbar = s.xbar := rfl
@[simp] theorem State.setRegF_parked (s : State) (k lo w v : Nat) : (s.setRegF k lo w v).parked = s.parked := rfl
@[simp] theorem State.setRegF_closing (s : State) (k lo w v : Nat) : (s.setRegF k lo w v).closing = s.closing := rfl
@[simp] theorem State.setRegF_owners (s : State) (k lo w v : Nat) : (s.setRegF k lo w v).owners = s.owners := rfl
@[simp] theorem State.setRegF_endedOwners (s : State) (k lo w v : Nat) : (s.setRegF k lo w v).endedOwners = s.endedOwners := rfl
@[simp] theorem State.setRegF_stage (s : State) (k lo w v : Nat) : (s.setRegF k lo w v).stage = s.stage := rfl
@[simp] theorem State.setRegF_cores (s : State) (k lo w v : Nat) : (s.setRegF k lo w v).cores = s.cores := rfl
@[simp] theorem State.setRegF_islands (s : State) (k lo w v : Nat) : (s.setRegF k lo w v).islands = s.islands := rfl
@[simp] theorem State.setRegF_queues (s : State) (k lo w v : Nat) : (s.setRegF k lo w v).queues = s.queues := rfl
@[simp] theorem State.setRegF_ops (s : State) (k lo w v : Nat) : (s.setRegF k lo w v).ops = s.ops := rfl
@[simp] theorem State.setRegF_nextOp (s : State) (k lo w v : Nat) : (s.setRegF k lo w v).nextOp = s.nextOp := rfl
@[simp] theorem State.setRegF_ports (s : State) (k lo w v : Nat) : (s.setRegF k lo w v).ports = s.ports := rfl
@[simp] theorem State.setRegF_out (s : State) (k lo w v : Nat) : (s.setRegF k lo w v).out = s.out := rfl
@[simp] theorem State.setRegF_outst (s : State) (k lo w v : Nat) : (s.setRegF k lo w v).outst = s.outst := rfl
@[simp] theorem State.setRegF_vecBusy (s : State) (k lo w v : Nat) : (s.setRegF k lo w v).vecBusy = s.vecBusy := rfl
@[simp] theorem State.setRegF_prot (s : State) (k lo w v : Nat) : (s.setRegF k lo w v).prot = s.prot := rfl
@[simp] theorem State.setRegF_groups (s : State) (k lo w v : Nat) : (s.setRegF k lo w v).groups = s.groups := rfl
@[simp] theorem State.setRegF_time (s : State) (k lo w v : Nat) : (s.setRegF k lo w v).time = s.time := rfl
@[simp] theorem State.setRegF_sb (s : State) (k lo w v : Nat) : (s.setRegF k lo w v).sb = s.sb := rfl
@[simp] theorem State.setRegF_fuses (s : State) (k lo w v : Nat) : (s.setRegF k lo w v).fuses = s.fuses := rfl
@[simp] theorem State.setRegF_sec (s : State) (k lo w v : Nat) : (s.setRegF k lo w v).sec = s.sec := rfl
@[simp] theorem State.setRegF_audit (s : State) (k lo w v : Nat) : (s.setRegF k lo w v).audit = s.audit := rfl
@[simp] theorem State.setRegF_latched (s : State) (k lo w v : Nat) : (s.setRegF k lo w v).latched = s.latched := rfl
@[simp] theorem State.setRegF_securing (s : State) (k lo w v : Nat) : (s.setRegF k lo w v).securing = s.securing := rfl
@[simp] theorem State.setRegF_power (s : State) (k lo w v : Nat) : (s.setRegF k lo w v).power = s.power := rfl
@[simp] theorem State.setRegF_therm (s : State) (k lo w v : Nat) : (s.setRegF k lo w v).therm = s.therm := rfl
@[simp] theorem State.setRegF_health (s : State) (k lo w v : Nat) : (s.setRegF k lo w v).health = s.health := rfl
@[simp] theorem State.setRegF_replay (s : State) (k lo w v : Nat) : (s.setRegF k lo w v).replay = s.replay := rfl
@[simp] theorem State.setRegF_journal (s : State) (k lo w v : Nat) : (s.setRegF k lo w v).journal = s.journal := rfl
@[simp] theorem State.setRegF_jfloor (s : State) (k lo w v : Nat) : (s.setRegF k lo w v).jfloor = s.jfloor := rfl
@[simp] theorem State.setRegF_images (s : State) (k lo w v : Nat) : (s.setRegF k lo w v).images = s.images := rfl
@[simp] theorem State.setRegF_recovery (s : State) (k lo w v : Nat) : (s.setRegF k lo w v).recovery = s.recovery := rfl
@[simp] theorem State.setRegF_mute (s : State) (k lo w v : Nat) : (s.setRegF k lo w v).mute = s.mute := rfl
@[simp] theorem State.setRegF_stopped (s : State) (k lo w v : Nat) : (s.setRegF k lo w v).stopped = s.stopped := rfl
@[simp] theorem State.setRegF_shut (s : State) (k lo w v : Nat) : (s.setRegF k lo w v).shut = s.shut := rfl
@[simp] theorem State.setRegF_shutResult (s : State) (k lo w v : Nat) : (s.setRegF k lo w v).shutResult = s.shutResult := rfl
@[simp] theorem State.setRegF_commitHold (s : State) (k lo w v : Nat) : (s.setRegF k lo w v).commitHold = s.commitHold := rfl
@[simp] theorem State.setRegF_injected (s : State) (k lo w v : Nat) : (s.setRegF k lo w v).injected = s.injected := rfl
@[simp] theorem State.setRegF_turn (s : State) (k lo w v : Nat) : (s.setRegF k lo w v).turn = s.turn := rfl
@[simp] theorem State.setRegF_free (s : State) (k lo w v : Nat) : (s.setRegF k lo w v).free = s.free := rfl
@[simp] theorem State.setRegF_pending (s : State) (k lo w v : Nat) : (s.setRegF k lo w v).pending = s.pending := rfl
@[simp] theorem State.core_setRegF (s : State) (k lo w v : Nat) (x : Nat) : (s.setRegF k lo w v).core x = s.core x := rfl
@[simp] theorem State.queue_setRegF (s : State) (k lo w v : Nat) (x : Nat) : (s.setRegF k lo w v).queue x = s.queue x := rfl
@[simp] theorem State.port_setRegF (s : State) (k lo w v : Nat) (x : Nat) : (s.setRegF k lo w v).port x = s.port x := rfl
@[simp] theorem State.island_setRegF (s : State) (k lo w v : Nat) (x : Nat) : (s.setRegF k lo w v).island x = s.island x := rfl
@[simp] theorem State.group_setRegF (s : State) (k lo w v : Nat) (x : Nat) : (s.setRegF k lo w v).group x = s.group x := rfl
@[simp] theorem State.protEntry_setRegF (s : State) (k lo w v : Nat) (x : Nat) : (s.setRegF k lo w v).protEntry x = s.protEntry x := rfl
@[simp] theorem State.op_setRegF (s : State) (k lo w v : Nat) (x : Nat) : (s.setRegF k lo w v).op x = s.op x := rfl
@[simp] theorem State.isFull_setRegF (s : State) (k lo w v : Nat) (x : Nat) : (s.setRegF k lo w v).isFull x = s.isFull x := rfl
@[simp] theorem State.bank_setRegF (s : State) (k lo w v : Nat) (x : Nat) : (s.setRegF k lo w v).bank x = s.bank x := rfl
@[simp] theorem State.waiting_setRegF (s : State) (k lo w v : Nat) (x : Nat) : (s.setRegF k lo w v).waiting x = s.waiting x := rfl
@[simp] theorem State.parkedAt_setRegF (s : State) (k lo w v : Nat) (x : Nat) : (s.setRegF k lo w v).parkedAt x = s.parkedAt x := rfl
@[simp] theorem State.stageOf_setRegF (s : State) (k lo w v : Nat) (x : Nat) : (s.setRegF k lo w v).stageOf x = s.stageOf x := rfl

/-! ## `State.orReg` -/

theorem State.orReg_regs (s : State) (k b : Nat) : (s.orReg k b).regs = SMap.putD s.regs k (s.reg k ||| w32 b) (regReset k) := rfl
@[simp] theorem State.orReg_shad (s : State) (k b : Nat) : (s.orReg k b).shad = s.shad := rfl
@[simp] theorem State.orReg_store (s : State) (k b : Nat) : (s.orReg k b).store = s.store := rfl
@[simp] theorem State.orReg_full (s : State) (k b : Nat) : (s.orReg k b).full = s.full := rfl
@[simp] theorem State.orReg_moved (s : State) (k b : Nat) : (s.orReg k b).moved = s.moved := rfl
@[simp] theorem State.orReg_banks (s : State) (k b : Nat) : (s.orReg k b).banks = s.banks := rfl
@[simp] theorem State.orReg_xbar (s : State) (k b : Nat) : (s.orReg k b).xbar = s.xbar := rfl
@[simp] theorem State.orReg_parked (s : State) (k b : Nat) : (s.orReg k b).parked = s.parked := rfl
@[simp] theorem State.orReg_closing (s : State) (k b : Nat) : (s.orReg k b).closing = s.closing := rfl
@[simp] theorem State.orReg_owners (s : State) (k b : Nat) : (s.orReg k b).owners = s.owners := rfl
@[simp] theorem State.orReg_endedOwners (s : State) (k b : Nat) : (s.orReg k b).endedOwners = s.endedOwners := rfl
@[simp] theorem State.orReg_stage (s : State) (k b : Nat) : (s.orReg k b).stage = s.stage := rfl
@[simp] theorem State.orReg_cores (s : State) (k b : Nat) : (s.orReg k b).cores = s.cores := rfl
@[simp] theorem State.orReg_islands (s : State) (k b : Nat) : (s.orReg k b).islands = s.islands := rfl
@[simp] theorem State.orReg_queues (s : State) (k b : Nat) : (s.orReg k b).queues = s.queues := rfl
@[simp] theorem State.orReg_ops (s : State) (k b : Nat) : (s.orReg k b).ops = s.ops := rfl
@[simp] theorem State.orReg_nextOp (s : State) (k b : Nat) : (s.orReg k b).nextOp = s.nextOp := rfl
@[simp] theorem State.orReg_ports (s : State) (k b : Nat) : (s.orReg k b).ports = s.ports := rfl
@[simp] theorem State.orReg_out (s : State) (k b : Nat) : (s.orReg k b).out = s.out := rfl
@[simp] theorem State.orReg_outst (s : State) (k b : Nat) : (s.orReg k b).outst = s.outst := rfl
@[simp] theorem State.orReg_vecBusy (s : State) (k b : Nat) : (s.orReg k b).vecBusy = s.vecBusy := rfl
@[simp] theorem State.orReg_prot (s : State) (k b : Nat) : (s.orReg k b).prot = s.prot := rfl
@[simp] theorem State.orReg_groups (s : State) (k b : Nat) : (s.orReg k b).groups = s.groups := rfl
@[simp] theorem State.orReg_time (s : State) (k b : Nat) : (s.orReg k b).time = s.time := rfl
@[simp] theorem State.orReg_sb (s : State) (k b : Nat) : (s.orReg k b).sb = s.sb := rfl
@[simp] theorem State.orReg_fuses (s : State) (k b : Nat) : (s.orReg k b).fuses = s.fuses := rfl
@[simp] theorem State.orReg_sec (s : State) (k b : Nat) : (s.orReg k b).sec = s.sec := rfl
@[simp] theorem State.orReg_audit (s : State) (k b : Nat) : (s.orReg k b).audit = s.audit := rfl
@[simp] theorem State.orReg_latched (s : State) (k b : Nat) : (s.orReg k b).latched = s.latched := rfl
@[simp] theorem State.orReg_securing (s : State) (k b : Nat) : (s.orReg k b).securing = s.securing := rfl
@[simp] theorem State.orReg_power (s : State) (k b : Nat) : (s.orReg k b).power = s.power := rfl
@[simp] theorem State.orReg_therm (s : State) (k b : Nat) : (s.orReg k b).therm = s.therm := rfl
@[simp] theorem State.orReg_health (s : State) (k b : Nat) : (s.orReg k b).health = s.health := rfl
@[simp] theorem State.orReg_replay (s : State) (k b : Nat) : (s.orReg k b).replay = s.replay := rfl
@[simp] theorem State.orReg_journal (s : State) (k b : Nat) : (s.orReg k b).journal = s.journal := rfl
@[simp] theorem State.orReg_jfloor (s : State) (k b : Nat) : (s.orReg k b).jfloor = s.jfloor := rfl
@[simp] theorem State.orReg_images (s : State) (k b : Nat) : (s.orReg k b).images = s.images := rfl
@[simp] theorem State.orReg_recovery (s : State) (k b : Nat) : (s.orReg k b).recovery = s.recovery := rfl
@[simp] theorem State.orReg_mute (s : State) (k b : Nat) : (s.orReg k b).mute = s.mute := rfl
@[simp] theorem State.orReg_stopped (s : State) (k b : Nat) : (s.orReg k b).stopped = s.stopped := rfl
@[simp] theorem State.orReg_shut (s : State) (k b : Nat) : (s.orReg k b).shut = s.shut := rfl
@[simp] theorem State.orReg_shutResult (s : State) (k b : Nat) : (s.orReg k b).shutResult = s.shutResult := rfl
@[simp] theorem State.orReg_commitHold (s : State) (k b : Nat) : (s.orReg k b).commitHold = s.commitHold := rfl
@[simp] theorem State.orReg_injected (s : State) (k b : Nat) : (s.orReg k b).injected = s.injected := rfl
@[simp] theorem State.orReg_turn (s : State) (k b : Nat) : (s.orReg k b).turn = s.turn := rfl
@[simp] theorem State.orReg_free (s : State) (k b : Nat) : (s.orReg k b).free = s.free := rfl
@[simp] theorem State.orReg_pending (s : State) (k b : Nat) : (s.orReg k b).pending = s.pending := rfl
@[simp] theorem State.core_orReg (s : State) (k b : Nat) (x : Nat) : (s.orReg k b).core x = s.core x := rfl
@[simp] theorem State.queue_orReg (s : State) (k b : Nat) (x : Nat) : (s.orReg k b).queue x = s.queue x := rfl
@[simp] theorem State.port_orReg (s : State) (k b : Nat) (x : Nat) : (s.orReg k b).port x = s.port x := rfl
@[simp] theorem State.island_orReg (s : State) (k b : Nat) (x : Nat) : (s.orReg k b).island x = s.island x := rfl
@[simp] theorem State.group_orReg (s : State) (k b : Nat) (x : Nat) : (s.orReg k b).group x = s.group x := rfl
@[simp] theorem State.protEntry_orReg (s : State) (k b : Nat) (x : Nat) : (s.orReg k b).protEntry x = s.protEntry x := rfl
@[simp] theorem State.op_orReg (s : State) (k b : Nat) (x : Nat) : (s.orReg k b).op x = s.op x := rfl
@[simp] theorem State.isFull_orReg (s : State) (k b : Nat) (x : Nat) : (s.orReg k b).isFull x = s.isFull x := rfl
@[simp] theorem State.bank_orReg (s : State) (k b : Nat) (x : Nat) : (s.orReg k b).bank x = s.bank x := rfl
@[simp] theorem State.waiting_orReg (s : State) (k b : Nat) (x : Nat) : (s.orReg k b).waiting x = s.waiting x := rfl
@[simp] theorem State.parkedAt_orReg (s : State) (k b : Nat) (x : Nat) : (s.orReg k b).parkedAt x = s.parkedAt x := rfl
@[simp] theorem State.stageOf_orReg (s : State) (k b : Nat) (x : Nat) : (s.orReg k b).stageOf x = s.stageOf x := rfl

/-! ## `State.incReg` -/

theorem State.incReg_regs (s : State) (k n : Nat) : (s.incReg k n).regs = SMap.putD s.regs k (inc (s.reg k) n) (regReset k) := rfl
@[simp] theorem State.incReg_shad (s : State) (k n : Nat) : (s.incReg k n).shad = s.shad := rfl
@[simp] theorem State.incReg_store (s : State) (k n : Nat) : (s.incReg k n).store = s.store := rfl
@[simp] theorem State.incReg_full (s : State) (k n : Nat) : (s.incReg k n).full = s.full := rfl
@[simp] theorem State.incReg_moved (s : State) (k n : Nat) : (s.incReg k n).moved = s.moved := rfl
@[simp] theorem State.incReg_banks (s : State) (k n : Nat) : (s.incReg k n).banks = s.banks := rfl
@[simp] theorem State.incReg_xbar (s : State) (k n : Nat) : (s.incReg k n).xbar = s.xbar := rfl
@[simp] theorem State.incReg_parked (s : State) (k n : Nat) : (s.incReg k n).parked = s.parked := rfl
@[simp] theorem State.incReg_closing (s : State) (k n : Nat) : (s.incReg k n).closing = s.closing := rfl
@[simp] theorem State.incReg_owners (s : State) (k n : Nat) : (s.incReg k n).owners = s.owners := rfl
@[simp] theorem State.incReg_endedOwners (s : State) (k n : Nat) : (s.incReg k n).endedOwners = s.endedOwners := rfl
@[simp] theorem State.incReg_stage (s : State) (k n : Nat) : (s.incReg k n).stage = s.stage := rfl
@[simp] theorem State.incReg_cores (s : State) (k n : Nat) : (s.incReg k n).cores = s.cores := rfl
@[simp] theorem State.incReg_islands (s : State) (k n : Nat) : (s.incReg k n).islands = s.islands := rfl
@[simp] theorem State.incReg_queues (s : State) (k n : Nat) : (s.incReg k n).queues = s.queues := rfl
@[simp] theorem State.incReg_ops (s : State) (k n : Nat) : (s.incReg k n).ops = s.ops := rfl
@[simp] theorem State.incReg_nextOp (s : State) (k n : Nat) : (s.incReg k n).nextOp = s.nextOp := rfl
@[simp] theorem State.incReg_ports (s : State) (k n : Nat) : (s.incReg k n).ports = s.ports := rfl
@[simp] theorem State.incReg_out (s : State) (k n : Nat) : (s.incReg k n).out = s.out := rfl
@[simp] theorem State.incReg_outst (s : State) (k n : Nat) : (s.incReg k n).outst = s.outst := rfl
@[simp] theorem State.incReg_vecBusy (s : State) (k n : Nat) : (s.incReg k n).vecBusy = s.vecBusy := rfl
@[simp] theorem State.incReg_prot (s : State) (k n : Nat) : (s.incReg k n).prot = s.prot := rfl
@[simp] theorem State.incReg_groups (s : State) (k n : Nat) : (s.incReg k n).groups = s.groups := rfl
@[simp] theorem State.incReg_time (s : State) (k n : Nat) : (s.incReg k n).time = s.time := rfl
@[simp] theorem State.incReg_sb (s : State) (k n : Nat) : (s.incReg k n).sb = s.sb := rfl
@[simp] theorem State.incReg_fuses (s : State) (k n : Nat) : (s.incReg k n).fuses = s.fuses := rfl
@[simp] theorem State.incReg_sec (s : State) (k n : Nat) : (s.incReg k n).sec = s.sec := rfl
@[simp] theorem State.incReg_audit (s : State) (k n : Nat) : (s.incReg k n).audit = s.audit := rfl
@[simp] theorem State.incReg_latched (s : State) (k n : Nat) : (s.incReg k n).latched = s.latched := rfl
@[simp] theorem State.incReg_securing (s : State) (k n : Nat) : (s.incReg k n).securing = s.securing := rfl
@[simp] theorem State.incReg_power (s : State) (k n : Nat) : (s.incReg k n).power = s.power := rfl
@[simp] theorem State.incReg_therm (s : State) (k n : Nat) : (s.incReg k n).therm = s.therm := rfl
@[simp] theorem State.incReg_health (s : State) (k n : Nat) : (s.incReg k n).health = s.health := rfl
@[simp] theorem State.incReg_replay (s : State) (k n : Nat) : (s.incReg k n).replay = s.replay := rfl
@[simp] theorem State.incReg_journal (s : State) (k n : Nat) : (s.incReg k n).journal = s.journal := rfl
@[simp] theorem State.incReg_jfloor (s : State) (k n : Nat) : (s.incReg k n).jfloor = s.jfloor := rfl
@[simp] theorem State.incReg_images (s : State) (k n : Nat) : (s.incReg k n).images = s.images := rfl
@[simp] theorem State.incReg_recovery (s : State) (k n : Nat) : (s.incReg k n).recovery = s.recovery := rfl
@[simp] theorem State.incReg_mute (s : State) (k n : Nat) : (s.incReg k n).mute = s.mute := rfl
@[simp] theorem State.incReg_stopped (s : State) (k n : Nat) : (s.incReg k n).stopped = s.stopped := rfl
@[simp] theorem State.incReg_shut (s : State) (k n : Nat) : (s.incReg k n).shut = s.shut := rfl
@[simp] theorem State.incReg_shutResult (s : State) (k n : Nat) : (s.incReg k n).shutResult = s.shutResult := rfl
@[simp] theorem State.incReg_commitHold (s : State) (k n : Nat) : (s.incReg k n).commitHold = s.commitHold := rfl
@[simp] theorem State.incReg_injected (s : State) (k n : Nat) : (s.incReg k n).injected = s.injected := rfl
@[simp] theorem State.incReg_turn (s : State) (k n : Nat) : (s.incReg k n).turn = s.turn := rfl
@[simp] theorem State.incReg_free (s : State) (k n : Nat) : (s.incReg k n).free = s.free := rfl
@[simp] theorem State.incReg_pending (s : State) (k n : Nat) : (s.incReg k n).pending = s.pending := rfl
@[simp] theorem State.core_incReg (s : State) (k n : Nat) (x : Nat) : (s.incReg k n).core x = s.core x := rfl
@[simp] theorem State.queue_incReg (s : State) (k n : Nat) (x : Nat) : (s.incReg k n).queue x = s.queue x := rfl
@[simp] theorem State.port_incReg (s : State) (k n : Nat) (x : Nat) : (s.incReg k n).port x = s.port x := rfl
@[simp] theorem State.island_incReg (s : State) (k n : Nat) (x : Nat) : (s.incReg k n).island x = s.island x := rfl
@[simp] theorem State.group_incReg (s : State) (k n : Nat) (x : Nat) : (s.incReg k n).group x = s.group x := rfl
@[simp] theorem State.protEntry_incReg (s : State) (k n : Nat) (x : Nat) : (s.incReg k n).protEntry x = s.protEntry x := rfl
@[simp] theorem State.op_incReg (s : State) (k n : Nat) (x : Nat) : (s.incReg k n).op x = s.op x := rfl
@[simp] theorem State.isFull_incReg (s : State) (k n : Nat) (x : Nat) : (s.incReg k n).isFull x = s.isFull x := rfl
@[simp] theorem State.bank_incReg (s : State) (k n : Nat) (x : Nat) : (s.incReg k n).bank x = s.bank x := rfl
@[simp] theorem State.waiting_incReg (s : State) (k n : Nat) (x : Nat) : (s.incReg k n).waiting x = s.waiting x := rfl
@[simp] theorem State.parkedAt_incReg (s : State) (k n : Nat) (x : Nat) : (s.incReg k n).parkedAt x = s.parkedAt x := rfl
@[simp] theorem State.stageOf_incReg (s : State) (k n : Nat) (x : Nat) : (s.incReg k n).stageOf x = s.stageOf x := rfl

/-! ## `State.setShadow` -/

theorem State.setShadow_shad (s : State) (k : Nat) (v : Word) : (s.setShadow k v).shad = SMap.put s.shad k v := rfl
@[simp] theorem State.setShadow_regs (s : State) (k : Nat) (v : Word) : (s.setShadow k v).regs = s.regs := rfl
@[simp] theorem State.setShadow_store (s : State) (k : Nat) (v : Word) : (s.setShadow k v).store = s.store := rfl
@[simp] theorem State.setShadow_full (s : State) (k : Nat) (v : Word) : (s.setShadow k v).full = s.full := rfl
@[simp] theorem State.setShadow_moved (s : State) (k : Nat) (v : Word) : (s.setShadow k v).moved = s.moved := rfl
@[simp] theorem State.setShadow_banks (s : State) (k : Nat) (v : Word) : (s.setShadow k v).banks = s.banks := rfl
@[simp] theorem State.setShadow_xbar (s : State) (k : Nat) (v : Word) : (s.setShadow k v).xbar = s.xbar := rfl
@[simp] theorem State.setShadow_parked (s : State) (k : Nat) (v : Word) : (s.setShadow k v).parked = s.parked := rfl
@[simp] theorem State.setShadow_closing (s : State) (k : Nat) (v : Word) : (s.setShadow k v).closing = s.closing := rfl
@[simp] theorem State.setShadow_owners (s : State) (k : Nat) (v : Word) : (s.setShadow k v).owners = s.owners := rfl
@[simp] theorem State.setShadow_endedOwners (s : State) (k : Nat) (v : Word) : (s.setShadow k v).endedOwners = s.endedOwners := rfl
@[simp] theorem State.setShadow_stage (s : State) (k : Nat) (v : Word) : (s.setShadow k v).stage = s.stage := rfl
@[simp] theorem State.setShadow_cores (s : State) (k : Nat) (v : Word) : (s.setShadow k v).cores = s.cores := rfl
@[simp] theorem State.setShadow_islands (s : State) (k : Nat) (v : Word) : (s.setShadow k v).islands = s.islands := rfl
@[simp] theorem State.setShadow_queues (s : State) (k : Nat) (v : Word) : (s.setShadow k v).queues = s.queues := rfl
@[simp] theorem State.setShadow_ops (s : State) (k : Nat) (v : Word) : (s.setShadow k v).ops = s.ops := rfl
@[simp] theorem State.setShadow_nextOp (s : State) (k : Nat) (v : Word) : (s.setShadow k v).nextOp = s.nextOp := rfl
@[simp] theorem State.setShadow_ports (s : State) (k : Nat) (v : Word) : (s.setShadow k v).ports = s.ports := rfl
@[simp] theorem State.setShadow_out (s : State) (k : Nat) (v : Word) : (s.setShadow k v).out = s.out := rfl
@[simp] theorem State.setShadow_outst (s : State) (k : Nat) (v : Word) : (s.setShadow k v).outst = s.outst := rfl
@[simp] theorem State.setShadow_vecBusy (s : State) (k : Nat) (v : Word) : (s.setShadow k v).vecBusy = s.vecBusy := rfl
@[simp] theorem State.setShadow_prot (s : State) (k : Nat) (v : Word) : (s.setShadow k v).prot = s.prot := rfl
@[simp] theorem State.setShadow_groups (s : State) (k : Nat) (v : Word) : (s.setShadow k v).groups = s.groups := rfl
@[simp] theorem State.setShadow_time (s : State) (k : Nat) (v : Word) : (s.setShadow k v).time = s.time := rfl
@[simp] theorem State.setShadow_sb (s : State) (k : Nat) (v : Word) : (s.setShadow k v).sb = s.sb := rfl
@[simp] theorem State.setShadow_fuses (s : State) (k : Nat) (v : Word) : (s.setShadow k v).fuses = s.fuses := rfl
@[simp] theorem State.setShadow_sec (s : State) (k : Nat) (v : Word) : (s.setShadow k v).sec = s.sec := rfl
@[simp] theorem State.setShadow_audit (s : State) (k : Nat) (v : Word) : (s.setShadow k v).audit = s.audit := rfl
@[simp] theorem State.setShadow_latched (s : State) (k : Nat) (v : Word) : (s.setShadow k v).latched = s.latched := rfl
@[simp] theorem State.setShadow_securing (s : State) (k : Nat) (v : Word) : (s.setShadow k v).securing = s.securing := rfl
@[simp] theorem State.setShadow_power (s : State) (k : Nat) (v : Word) : (s.setShadow k v).power = s.power := rfl
@[simp] theorem State.setShadow_therm (s : State) (k : Nat) (v : Word) : (s.setShadow k v).therm = s.therm := rfl
@[simp] theorem State.setShadow_health (s : State) (k : Nat) (v : Word) : (s.setShadow k v).health = s.health := rfl
@[simp] theorem State.setShadow_replay (s : State) (k : Nat) (v : Word) : (s.setShadow k v).replay = s.replay := rfl
@[simp] theorem State.setShadow_journal (s : State) (k : Nat) (v : Word) : (s.setShadow k v).journal = s.journal := rfl
@[simp] theorem State.setShadow_jfloor (s : State) (k : Nat) (v : Word) : (s.setShadow k v).jfloor = s.jfloor := rfl
@[simp] theorem State.setShadow_images (s : State) (k : Nat) (v : Word) : (s.setShadow k v).images = s.images := rfl
@[simp] theorem State.setShadow_recovery (s : State) (k : Nat) (v : Word) : (s.setShadow k v).recovery = s.recovery := rfl
@[simp] theorem State.setShadow_mute (s : State) (k : Nat) (v : Word) : (s.setShadow k v).mute = s.mute := rfl
@[simp] theorem State.setShadow_stopped (s : State) (k : Nat) (v : Word) : (s.setShadow k v).stopped = s.stopped := rfl
@[simp] theorem State.setShadow_shut (s : State) (k : Nat) (v : Word) : (s.setShadow k v).shut = s.shut := rfl
@[simp] theorem State.setShadow_shutResult (s : State) (k : Nat) (v : Word) : (s.setShadow k v).shutResult = s.shutResult := rfl
@[simp] theorem State.setShadow_commitHold (s : State) (k : Nat) (v : Word) : (s.setShadow k v).commitHold = s.commitHold := rfl
@[simp] theorem State.setShadow_injected (s : State) (k : Nat) (v : Word) : (s.setShadow k v).injected = s.injected := rfl
@[simp] theorem State.setShadow_turn (s : State) (k : Nat) (v : Word) : (s.setShadow k v).turn = s.turn := rfl
@[simp] theorem State.setShadow_free (s : State) (k : Nat) (v : Word) : (s.setShadow k v).free = s.free := rfl
@[simp] theorem State.setShadow_pending (s : State) (k : Nat) (v : Word) : (s.setShadow k v).pending = s.pending := rfl
@[simp] theorem State.reg_setShadow (s : State) (k : Nat) (v : Word) (x : Nat) : (s.setShadow k v).reg x = s.reg x := rfl
@[simp] theorem State.core_setShadow (s : State) (k : Nat) (v : Word) (x : Nat) : (s.setShadow k v).core x = s.core x := rfl
@[simp] theorem State.queue_setShadow (s : State) (k : Nat) (v : Word) (x : Nat) : (s.setShadow k v).queue x = s.queue x := rfl
@[simp] theorem State.port_setShadow (s : State) (k : Nat) (v : Word) (x : Nat) : (s.setShadow k v).port x = s.port x := rfl
@[simp] theorem State.island_setShadow (s : State) (k : Nat) (v : Word) (x : Nat) : (s.setShadow k v).island x = s.island x := rfl
@[simp] theorem State.group_setShadow (s : State) (k : Nat) (v : Word) (x : Nat) : (s.setShadow k v).group x = s.group x := rfl
@[simp] theorem State.protEntry_setShadow (s : State) (k : Nat) (v : Word) (x : Nat) : (s.setShadow k v).protEntry x = s.protEntry x := rfl
@[simp] theorem State.op_setShadow (s : State) (k : Nat) (v : Word) (x : Nat) : (s.setShadow k v).op x = s.op x := rfl
@[simp] theorem State.isFull_setShadow (s : State) (k : Nat) (v : Word) (x : Nat) : (s.setShadow k v).isFull x = s.isFull x := rfl
@[simp] theorem State.bank_setShadow (s : State) (k : Nat) (v : Word) (x : Nat) : (s.setShadow k v).bank x = s.bank x := rfl
@[simp] theorem State.waiting_setShadow (s : State) (k : Nat) (v : Word) (x : Nat) : (s.setShadow k v).waiting x = s.waiting x := rfl
@[simp] theorem State.parkedAt_setShadow (s : State) (k : Nat) (v : Word) (x : Nat) : (s.setShadow k v).parkedAt x = s.parkedAt x := rfl
@[simp] theorem State.stageOf_setShadow (s : State) (k : Nat) (v : Word) (x : Nat) : (s.setShadow k v).stageOf x = s.stageOf x := rfl

/-! ## `State.setCore` -/

theorem State.setCore_cores (s : State) (k : Nat) (c : Core) : (s.setCore k c).cores = SMap.putD s.cores k c Core.idle := rfl
@[simp] theorem State.setCore_regs (s : State) (k : Nat) (c : Core) : (s.setCore k c).regs = s.regs := rfl
@[simp] theorem State.setCore_shad (s : State) (k : Nat) (c : Core) : (s.setCore k c).shad = s.shad := rfl
@[simp] theorem State.setCore_store (s : State) (k : Nat) (c : Core) : (s.setCore k c).store = s.store := rfl
@[simp] theorem State.setCore_full (s : State) (k : Nat) (c : Core) : (s.setCore k c).full = s.full := rfl
@[simp] theorem State.setCore_moved (s : State) (k : Nat) (c : Core) : (s.setCore k c).moved = s.moved := rfl
@[simp] theorem State.setCore_banks (s : State) (k : Nat) (c : Core) : (s.setCore k c).banks = s.banks := rfl
@[simp] theorem State.setCore_xbar (s : State) (k : Nat) (c : Core) : (s.setCore k c).xbar = s.xbar := rfl
@[simp] theorem State.setCore_parked (s : State) (k : Nat) (c : Core) : (s.setCore k c).parked = s.parked := rfl
@[simp] theorem State.setCore_closing (s : State) (k : Nat) (c : Core) : (s.setCore k c).closing = s.closing := rfl
@[simp] theorem State.setCore_owners (s : State) (k : Nat) (c : Core) : (s.setCore k c).owners = s.owners := rfl
@[simp] theorem State.setCore_endedOwners (s : State) (k : Nat) (c : Core) : (s.setCore k c).endedOwners = s.endedOwners := rfl
@[simp] theorem State.setCore_stage (s : State) (k : Nat) (c : Core) : (s.setCore k c).stage = s.stage := rfl
@[simp] theorem State.setCore_islands (s : State) (k : Nat) (c : Core) : (s.setCore k c).islands = s.islands := rfl
@[simp] theorem State.setCore_queues (s : State) (k : Nat) (c : Core) : (s.setCore k c).queues = s.queues := rfl
@[simp] theorem State.setCore_ops (s : State) (k : Nat) (c : Core) : (s.setCore k c).ops = s.ops := rfl
@[simp] theorem State.setCore_nextOp (s : State) (k : Nat) (c : Core) : (s.setCore k c).nextOp = s.nextOp := rfl
@[simp] theorem State.setCore_ports (s : State) (k : Nat) (c : Core) : (s.setCore k c).ports = s.ports := rfl
@[simp] theorem State.setCore_out (s : State) (k : Nat) (c : Core) : (s.setCore k c).out = s.out := rfl
@[simp] theorem State.setCore_outst (s : State) (k : Nat) (c : Core) : (s.setCore k c).outst = s.outst := rfl
@[simp] theorem State.setCore_vecBusy (s : State) (k : Nat) (c : Core) : (s.setCore k c).vecBusy = s.vecBusy := rfl
@[simp] theorem State.setCore_prot (s : State) (k : Nat) (c : Core) : (s.setCore k c).prot = s.prot := rfl
@[simp] theorem State.setCore_groups (s : State) (k : Nat) (c : Core) : (s.setCore k c).groups = s.groups := rfl
@[simp] theorem State.setCore_time (s : State) (k : Nat) (c : Core) : (s.setCore k c).time = s.time := rfl
@[simp] theorem State.setCore_sb (s : State) (k : Nat) (c : Core) : (s.setCore k c).sb = s.sb := rfl
@[simp] theorem State.setCore_fuses (s : State) (k : Nat) (c : Core) : (s.setCore k c).fuses = s.fuses := rfl
@[simp] theorem State.setCore_sec (s : State) (k : Nat) (c : Core) : (s.setCore k c).sec = s.sec := rfl
@[simp] theorem State.setCore_audit (s : State) (k : Nat) (c : Core) : (s.setCore k c).audit = s.audit := rfl
@[simp] theorem State.setCore_latched (s : State) (k : Nat) (c : Core) : (s.setCore k c).latched = s.latched := rfl
@[simp] theorem State.setCore_securing (s : State) (k : Nat) (c : Core) : (s.setCore k c).securing = s.securing := rfl
@[simp] theorem State.setCore_power (s : State) (k : Nat) (c : Core) : (s.setCore k c).power = s.power := rfl
@[simp] theorem State.setCore_therm (s : State) (k : Nat) (c : Core) : (s.setCore k c).therm = s.therm := rfl
@[simp] theorem State.setCore_health (s : State) (k : Nat) (c : Core) : (s.setCore k c).health = s.health := rfl
@[simp] theorem State.setCore_replay (s : State) (k : Nat) (c : Core) : (s.setCore k c).replay = s.replay := rfl
@[simp] theorem State.setCore_journal (s : State) (k : Nat) (c : Core) : (s.setCore k c).journal = s.journal := rfl
@[simp] theorem State.setCore_jfloor (s : State) (k : Nat) (c : Core) : (s.setCore k c).jfloor = s.jfloor := rfl
@[simp] theorem State.setCore_images (s : State) (k : Nat) (c : Core) : (s.setCore k c).images = s.images := rfl
@[simp] theorem State.setCore_recovery (s : State) (k : Nat) (c : Core) : (s.setCore k c).recovery = s.recovery := rfl
@[simp] theorem State.setCore_mute (s : State) (k : Nat) (c : Core) : (s.setCore k c).mute = s.mute := rfl
@[simp] theorem State.setCore_stopped (s : State) (k : Nat) (c : Core) : (s.setCore k c).stopped = s.stopped := rfl
@[simp] theorem State.setCore_shut (s : State) (k : Nat) (c : Core) : (s.setCore k c).shut = s.shut := rfl
@[simp] theorem State.setCore_shutResult (s : State) (k : Nat) (c : Core) : (s.setCore k c).shutResult = s.shutResult := rfl
@[simp] theorem State.setCore_commitHold (s : State) (k : Nat) (c : Core) : (s.setCore k c).commitHold = s.commitHold := rfl
@[simp] theorem State.setCore_injected (s : State) (k : Nat) (c : Core) : (s.setCore k c).injected = s.injected := rfl
@[simp] theorem State.setCore_turn (s : State) (k : Nat) (c : Core) : (s.setCore k c).turn = s.turn := rfl
@[simp] theorem State.setCore_free (s : State) (k : Nat) (c : Core) : (s.setCore k c).free = s.free := rfl
@[simp] theorem State.setCore_pending (s : State) (k : Nat) (c : Core) : (s.setCore k c).pending = s.pending := rfl
@[simp] theorem State.reg_setCore (s : State) (k : Nat) (c : Core) (x : Nat) : (s.setCore k c).reg x = s.reg x := rfl
@[simp] theorem State.shadow_setCore (s : State) (k : Nat) (c : Core) (x : Nat) : (s.setCore k c).shadow x = s.shadow x := rfl
@[simp] theorem State.queue_setCore (s : State) (k : Nat) (c : Core) (x : Nat) : (s.setCore k c).queue x = s.queue x := rfl
@[simp] theorem State.port_setCore (s : State) (k : Nat) (c : Core) (x : Nat) : (s.setCore k c).port x = s.port x := rfl
@[simp] theorem State.island_setCore (s : State) (k : Nat) (c : Core) (x : Nat) : (s.setCore k c).island x = s.island x := rfl
@[simp] theorem State.group_setCore (s : State) (k : Nat) (c : Core) (x : Nat) : (s.setCore k c).group x = s.group x := rfl
@[simp] theorem State.protEntry_setCore (s : State) (k : Nat) (c : Core) (x : Nat) : (s.setCore k c).protEntry x = s.protEntry x := rfl
@[simp] theorem State.op_setCore (s : State) (k : Nat) (c : Core) (x : Nat) : (s.setCore k c).op x = s.op x := rfl
@[simp] theorem State.isFull_setCore (s : State) (k : Nat) (c : Core) (x : Nat) : (s.setCore k c).isFull x = s.isFull x := rfl
@[simp] theorem State.bank_setCore (s : State) (k : Nat) (c : Core) (x : Nat) : (s.setCore k c).bank x = s.bank x := rfl
@[simp] theorem State.waiting_setCore (s : State) (k : Nat) (c : Core) (x : Nat) : (s.setCore k c).waiting x = s.waiting x := rfl
@[simp] theorem State.parkedAt_setCore (s : State) (k : Nat) (c : Core) (x : Nat) : (s.setCore k c).parkedAt x = s.parkedAt x := rfl
@[simp] theorem State.stageOf_setCore (s : State) (k : Nat) (c : Core) (x : Nat) : (s.setCore k c).stageOf x = s.stageOf x := rfl

/-! ## `State.setQueue` -/

theorem State.setQueue_queues (s : State) (k : Nat) (c : Queue) : (s.setQueue k c).queues = SMap.putD s.queues k c Queue.initial := rfl
@[simp] theorem State.setQueue_regs (s : State) (k : Nat) (c : Queue) : (s.setQueue k c).regs = s.regs := rfl
@[simp] theorem State.setQueue_shad (s : State) (k : Nat) (c : Queue) : (s.setQueue k c).shad = s.shad := rfl
@[simp] theorem State.setQueue_store (s : State) (k : Nat) (c : Queue) : (s.setQueue k c).store = s.store := rfl
@[simp] theorem State.setQueue_full (s : State) (k : Nat) (c : Queue) : (s.setQueue k c).full = s.full := rfl
@[simp] theorem State.setQueue_moved (s : State) (k : Nat) (c : Queue) : (s.setQueue k c).moved = s.moved := rfl
@[simp] theorem State.setQueue_banks (s : State) (k : Nat) (c : Queue) : (s.setQueue k c).banks = s.banks := rfl
@[simp] theorem State.setQueue_xbar (s : State) (k : Nat) (c : Queue) : (s.setQueue k c).xbar = s.xbar := rfl
@[simp] theorem State.setQueue_parked (s : State) (k : Nat) (c : Queue) : (s.setQueue k c).parked = s.parked := rfl
@[simp] theorem State.setQueue_closing (s : State) (k : Nat) (c : Queue) : (s.setQueue k c).closing = s.closing := rfl
@[simp] theorem State.setQueue_owners (s : State) (k : Nat) (c : Queue) : (s.setQueue k c).owners = s.owners := rfl
@[simp] theorem State.setQueue_endedOwners (s : State) (k : Nat) (c : Queue) : (s.setQueue k c).endedOwners = s.endedOwners := rfl
@[simp] theorem State.setQueue_stage (s : State) (k : Nat) (c : Queue) : (s.setQueue k c).stage = s.stage := rfl
@[simp] theorem State.setQueue_cores (s : State) (k : Nat) (c : Queue) : (s.setQueue k c).cores = s.cores := rfl
@[simp] theorem State.setQueue_islands (s : State) (k : Nat) (c : Queue) : (s.setQueue k c).islands = s.islands := rfl
@[simp] theorem State.setQueue_ops (s : State) (k : Nat) (c : Queue) : (s.setQueue k c).ops = s.ops := rfl
@[simp] theorem State.setQueue_nextOp (s : State) (k : Nat) (c : Queue) : (s.setQueue k c).nextOp = s.nextOp := rfl
@[simp] theorem State.setQueue_ports (s : State) (k : Nat) (c : Queue) : (s.setQueue k c).ports = s.ports := rfl
@[simp] theorem State.setQueue_out (s : State) (k : Nat) (c : Queue) : (s.setQueue k c).out = s.out := rfl
@[simp] theorem State.setQueue_outst (s : State) (k : Nat) (c : Queue) : (s.setQueue k c).outst = s.outst := rfl
@[simp] theorem State.setQueue_vecBusy (s : State) (k : Nat) (c : Queue) : (s.setQueue k c).vecBusy = s.vecBusy := rfl
@[simp] theorem State.setQueue_prot (s : State) (k : Nat) (c : Queue) : (s.setQueue k c).prot = s.prot := rfl
@[simp] theorem State.setQueue_groups (s : State) (k : Nat) (c : Queue) : (s.setQueue k c).groups = s.groups := rfl
@[simp] theorem State.setQueue_time (s : State) (k : Nat) (c : Queue) : (s.setQueue k c).time = s.time := rfl
@[simp] theorem State.setQueue_sb (s : State) (k : Nat) (c : Queue) : (s.setQueue k c).sb = s.sb := rfl
@[simp] theorem State.setQueue_fuses (s : State) (k : Nat) (c : Queue) : (s.setQueue k c).fuses = s.fuses := rfl
@[simp] theorem State.setQueue_sec (s : State) (k : Nat) (c : Queue) : (s.setQueue k c).sec = s.sec := rfl
@[simp] theorem State.setQueue_audit (s : State) (k : Nat) (c : Queue) : (s.setQueue k c).audit = s.audit := rfl
@[simp] theorem State.setQueue_latched (s : State) (k : Nat) (c : Queue) : (s.setQueue k c).latched = s.latched := rfl
@[simp] theorem State.setQueue_securing (s : State) (k : Nat) (c : Queue) : (s.setQueue k c).securing = s.securing := rfl
@[simp] theorem State.setQueue_power (s : State) (k : Nat) (c : Queue) : (s.setQueue k c).power = s.power := rfl
@[simp] theorem State.setQueue_therm (s : State) (k : Nat) (c : Queue) : (s.setQueue k c).therm = s.therm := rfl
@[simp] theorem State.setQueue_health (s : State) (k : Nat) (c : Queue) : (s.setQueue k c).health = s.health := rfl
@[simp] theorem State.setQueue_replay (s : State) (k : Nat) (c : Queue) : (s.setQueue k c).replay = s.replay := rfl
@[simp] theorem State.setQueue_journal (s : State) (k : Nat) (c : Queue) : (s.setQueue k c).journal = s.journal := rfl
@[simp] theorem State.setQueue_jfloor (s : State) (k : Nat) (c : Queue) : (s.setQueue k c).jfloor = s.jfloor := rfl
@[simp] theorem State.setQueue_images (s : State) (k : Nat) (c : Queue) : (s.setQueue k c).images = s.images := rfl
@[simp] theorem State.setQueue_recovery (s : State) (k : Nat) (c : Queue) : (s.setQueue k c).recovery = s.recovery := rfl
@[simp] theorem State.setQueue_mute (s : State) (k : Nat) (c : Queue) : (s.setQueue k c).mute = s.mute := rfl
@[simp] theorem State.setQueue_stopped (s : State) (k : Nat) (c : Queue) : (s.setQueue k c).stopped = s.stopped := rfl
@[simp] theorem State.setQueue_shut (s : State) (k : Nat) (c : Queue) : (s.setQueue k c).shut = s.shut := rfl
@[simp] theorem State.setQueue_shutResult (s : State) (k : Nat) (c : Queue) : (s.setQueue k c).shutResult = s.shutResult := rfl
@[simp] theorem State.setQueue_commitHold (s : State) (k : Nat) (c : Queue) : (s.setQueue k c).commitHold = s.commitHold := rfl
@[simp] theorem State.setQueue_injected (s : State) (k : Nat) (c : Queue) : (s.setQueue k c).injected = s.injected := rfl
@[simp] theorem State.setQueue_turn (s : State) (k : Nat) (c : Queue) : (s.setQueue k c).turn = s.turn := rfl
@[simp] theorem State.setQueue_free (s : State) (k : Nat) (c : Queue) : (s.setQueue k c).free = s.free := rfl
@[simp] theorem State.setQueue_pending (s : State) (k : Nat) (c : Queue) : (s.setQueue k c).pending = s.pending := rfl
@[simp] theorem State.reg_setQueue (s : State) (k : Nat) (c : Queue) (x : Nat) : (s.setQueue k c).reg x = s.reg x := rfl
@[simp] theorem State.shadow_setQueue (s : State) (k : Nat) (c : Queue) (x : Nat) : (s.setQueue k c).shadow x = s.shadow x := rfl
@[simp] theorem State.core_setQueue (s : State) (k : Nat) (c : Queue) (x : Nat) : (s.setQueue k c).core x = s.core x := rfl
@[simp] theorem State.port_setQueue (s : State) (k : Nat) (c : Queue) (x : Nat) : (s.setQueue k c).port x = s.port x := rfl
@[simp] theorem State.island_setQueue (s : State) (k : Nat) (c : Queue) (x : Nat) : (s.setQueue k c).island x = s.island x := rfl
@[simp] theorem State.group_setQueue (s : State) (k : Nat) (c : Queue) (x : Nat) : (s.setQueue k c).group x = s.group x := rfl
@[simp] theorem State.protEntry_setQueue (s : State) (k : Nat) (c : Queue) (x : Nat) : (s.setQueue k c).protEntry x = s.protEntry x := rfl
@[simp] theorem State.op_setQueue (s : State) (k : Nat) (c : Queue) (x : Nat) : (s.setQueue k c).op x = s.op x := rfl
@[simp] theorem State.isFull_setQueue (s : State) (k : Nat) (c : Queue) (x : Nat) : (s.setQueue k c).isFull x = s.isFull x := rfl
@[simp] theorem State.bank_setQueue (s : State) (k : Nat) (c : Queue) (x : Nat) : (s.setQueue k c).bank x = s.bank x := rfl
@[simp] theorem State.waiting_setQueue (s : State) (k : Nat) (c : Queue) (x : Nat) : (s.setQueue k c).waiting x = s.waiting x := rfl
@[simp] theorem State.parkedAt_setQueue (s : State) (k : Nat) (c : Queue) (x : Nat) : (s.setQueue k c).parkedAt x = s.parkedAt x := rfl
@[simp] theorem State.stageOf_setQueue (s : State) (k : Nat) (c : Queue) (x : Nat) : (s.setQueue k c).stageOf x = s.stageOf x := rfl

/-! ## `State.setPort` -/

theorem State.setPort_ports (s : State) (k : Nat) (c : Port) : (s.setPort k c).ports = SMap.putD s.ports k c Port.initial := rfl
@[simp] theorem State.setPort_regs (s : State) (k : Nat) (c : Port) : (s.setPort k c).regs = s.regs := rfl
@[simp] theorem State.setPort_shad (s : State) (k : Nat) (c : Port) : (s.setPort k c).shad = s.shad := rfl
@[simp] theorem State.setPort_store (s : State) (k : Nat) (c : Port) : (s.setPort k c).store = s.store := rfl
@[simp] theorem State.setPort_full (s : State) (k : Nat) (c : Port) : (s.setPort k c).full = s.full := rfl
@[simp] theorem State.setPort_moved (s : State) (k : Nat) (c : Port) : (s.setPort k c).moved = s.moved := rfl
@[simp] theorem State.setPort_banks (s : State) (k : Nat) (c : Port) : (s.setPort k c).banks = s.banks := rfl
@[simp] theorem State.setPort_xbar (s : State) (k : Nat) (c : Port) : (s.setPort k c).xbar = s.xbar := rfl
@[simp] theorem State.setPort_parked (s : State) (k : Nat) (c : Port) : (s.setPort k c).parked = s.parked := rfl
@[simp] theorem State.setPort_closing (s : State) (k : Nat) (c : Port) : (s.setPort k c).closing = s.closing := rfl
@[simp] theorem State.setPort_owners (s : State) (k : Nat) (c : Port) : (s.setPort k c).owners = s.owners := rfl
@[simp] theorem State.setPort_endedOwners (s : State) (k : Nat) (c : Port) : (s.setPort k c).endedOwners = s.endedOwners := rfl
@[simp] theorem State.setPort_stage (s : State) (k : Nat) (c : Port) : (s.setPort k c).stage = s.stage := rfl
@[simp] theorem State.setPort_cores (s : State) (k : Nat) (c : Port) : (s.setPort k c).cores = s.cores := rfl
@[simp] theorem State.setPort_islands (s : State) (k : Nat) (c : Port) : (s.setPort k c).islands = s.islands := rfl
@[simp] theorem State.setPort_queues (s : State) (k : Nat) (c : Port) : (s.setPort k c).queues = s.queues := rfl
@[simp] theorem State.setPort_ops (s : State) (k : Nat) (c : Port) : (s.setPort k c).ops = s.ops := rfl
@[simp] theorem State.setPort_nextOp (s : State) (k : Nat) (c : Port) : (s.setPort k c).nextOp = s.nextOp := rfl
@[simp] theorem State.setPort_out (s : State) (k : Nat) (c : Port) : (s.setPort k c).out = s.out := rfl
@[simp] theorem State.setPort_outst (s : State) (k : Nat) (c : Port) : (s.setPort k c).outst = s.outst := rfl
@[simp] theorem State.setPort_vecBusy (s : State) (k : Nat) (c : Port) : (s.setPort k c).vecBusy = s.vecBusy := rfl
@[simp] theorem State.setPort_prot (s : State) (k : Nat) (c : Port) : (s.setPort k c).prot = s.prot := rfl
@[simp] theorem State.setPort_groups (s : State) (k : Nat) (c : Port) : (s.setPort k c).groups = s.groups := rfl
@[simp] theorem State.setPort_time (s : State) (k : Nat) (c : Port) : (s.setPort k c).time = s.time := rfl
@[simp] theorem State.setPort_sb (s : State) (k : Nat) (c : Port) : (s.setPort k c).sb = s.sb := rfl
@[simp] theorem State.setPort_fuses (s : State) (k : Nat) (c : Port) : (s.setPort k c).fuses = s.fuses := rfl
@[simp] theorem State.setPort_sec (s : State) (k : Nat) (c : Port) : (s.setPort k c).sec = s.sec := rfl
@[simp] theorem State.setPort_audit (s : State) (k : Nat) (c : Port) : (s.setPort k c).audit = s.audit := rfl
@[simp] theorem State.setPort_latched (s : State) (k : Nat) (c : Port) : (s.setPort k c).latched = s.latched := rfl
@[simp] theorem State.setPort_securing (s : State) (k : Nat) (c : Port) : (s.setPort k c).securing = s.securing := rfl
@[simp] theorem State.setPort_power (s : State) (k : Nat) (c : Port) : (s.setPort k c).power = s.power := rfl
@[simp] theorem State.setPort_therm (s : State) (k : Nat) (c : Port) : (s.setPort k c).therm = s.therm := rfl
@[simp] theorem State.setPort_health (s : State) (k : Nat) (c : Port) : (s.setPort k c).health = s.health := rfl
@[simp] theorem State.setPort_replay (s : State) (k : Nat) (c : Port) : (s.setPort k c).replay = s.replay := rfl
@[simp] theorem State.setPort_journal (s : State) (k : Nat) (c : Port) : (s.setPort k c).journal = s.journal := rfl
@[simp] theorem State.setPort_jfloor (s : State) (k : Nat) (c : Port) : (s.setPort k c).jfloor = s.jfloor := rfl
@[simp] theorem State.setPort_images (s : State) (k : Nat) (c : Port) : (s.setPort k c).images = s.images := rfl
@[simp] theorem State.setPort_recovery (s : State) (k : Nat) (c : Port) : (s.setPort k c).recovery = s.recovery := rfl
@[simp] theorem State.setPort_mute (s : State) (k : Nat) (c : Port) : (s.setPort k c).mute = s.mute := rfl
@[simp] theorem State.setPort_stopped (s : State) (k : Nat) (c : Port) : (s.setPort k c).stopped = s.stopped := rfl
@[simp] theorem State.setPort_shut (s : State) (k : Nat) (c : Port) : (s.setPort k c).shut = s.shut := rfl
@[simp] theorem State.setPort_shutResult (s : State) (k : Nat) (c : Port) : (s.setPort k c).shutResult = s.shutResult := rfl
@[simp] theorem State.setPort_commitHold (s : State) (k : Nat) (c : Port) : (s.setPort k c).commitHold = s.commitHold := rfl
@[simp] theorem State.setPort_injected (s : State) (k : Nat) (c : Port) : (s.setPort k c).injected = s.injected := rfl
@[simp] theorem State.setPort_turn (s : State) (k : Nat) (c : Port) : (s.setPort k c).turn = s.turn := rfl
@[simp] theorem State.setPort_free (s : State) (k : Nat) (c : Port) : (s.setPort k c).free = s.free := rfl
@[simp] theorem State.setPort_pending (s : State) (k : Nat) (c : Port) : (s.setPort k c).pending = s.pending := rfl
@[simp] theorem State.reg_setPort (s : State) (k : Nat) (c : Port) (x : Nat) : (s.setPort k c).reg x = s.reg x := rfl
@[simp] theorem State.shadow_setPort (s : State) (k : Nat) (c : Port) (x : Nat) : (s.setPort k c).shadow x = s.shadow x := rfl
@[simp] theorem State.core_setPort (s : State) (k : Nat) (c : Port) (x : Nat) : (s.setPort k c).core x = s.core x := rfl
@[simp] theorem State.queue_setPort (s : State) (k : Nat) (c : Port) (x : Nat) : (s.setPort k c).queue x = s.queue x := rfl
@[simp] theorem State.island_setPort (s : State) (k : Nat) (c : Port) (x : Nat) : (s.setPort k c).island x = s.island x := rfl
@[simp] theorem State.group_setPort (s : State) (k : Nat) (c : Port) (x : Nat) : (s.setPort k c).group x = s.group x := rfl
@[simp] theorem State.protEntry_setPort (s : State) (k : Nat) (c : Port) (x : Nat) : (s.setPort k c).protEntry x = s.protEntry x := rfl
@[simp] theorem State.op_setPort (s : State) (k : Nat) (c : Port) (x : Nat) : (s.setPort k c).op x = s.op x := rfl
@[simp] theorem State.isFull_setPort (s : State) (k : Nat) (c : Port) (x : Nat) : (s.setPort k c).isFull x = s.isFull x := rfl
@[simp] theorem State.bank_setPort (s : State) (k : Nat) (c : Port) (x : Nat) : (s.setPort k c).bank x = s.bank x := rfl
@[simp] theorem State.waiting_setPort (s : State) (k : Nat) (c : Port) (x : Nat) : (s.setPort k c).waiting x = s.waiting x := rfl
@[simp] theorem State.parkedAt_setPort (s : State) (k : Nat) (c : Port) (x : Nat) : (s.setPort k c).parkedAt x = s.parkedAt x := rfl
@[simp] theorem State.stageOf_setPort (s : State) (k : Nat) (c : Port) (x : Nat) : (s.setPort k c).stageOf x = s.stageOf x := rfl

/-! ## `State.setIsland` -/

theorem State.setIsland_islands (s : State) (k : Nat) (c : Island) : (s.setIsland k c).islands = SMap.putD s.islands k c Island.initial := rfl
@[simp] theorem State.setIsland_regs (s : State) (k : Nat) (c : Island) : (s.setIsland k c).regs = s.regs := rfl
@[simp] theorem State.setIsland_shad (s : State) (k : Nat) (c : Island) : (s.setIsland k c).shad = s.shad := rfl
@[simp] theorem State.setIsland_store (s : State) (k : Nat) (c : Island) : (s.setIsland k c).store = s.store := rfl
@[simp] theorem State.setIsland_full (s : State) (k : Nat) (c : Island) : (s.setIsland k c).full = s.full := rfl
@[simp] theorem State.setIsland_moved (s : State) (k : Nat) (c : Island) : (s.setIsland k c).moved = s.moved := rfl
@[simp] theorem State.setIsland_banks (s : State) (k : Nat) (c : Island) : (s.setIsland k c).banks = s.banks := rfl
@[simp] theorem State.setIsland_xbar (s : State) (k : Nat) (c : Island) : (s.setIsland k c).xbar = s.xbar := rfl
@[simp] theorem State.setIsland_parked (s : State) (k : Nat) (c : Island) : (s.setIsland k c).parked = s.parked := rfl
@[simp] theorem State.setIsland_closing (s : State) (k : Nat) (c : Island) : (s.setIsland k c).closing = s.closing := rfl
@[simp] theorem State.setIsland_owners (s : State) (k : Nat) (c : Island) : (s.setIsland k c).owners = s.owners := rfl
@[simp] theorem State.setIsland_endedOwners (s : State) (k : Nat) (c : Island) : (s.setIsland k c).endedOwners = s.endedOwners := rfl
@[simp] theorem State.setIsland_stage (s : State) (k : Nat) (c : Island) : (s.setIsland k c).stage = s.stage := rfl
@[simp] theorem State.setIsland_cores (s : State) (k : Nat) (c : Island) : (s.setIsland k c).cores = s.cores := rfl
@[simp] theorem State.setIsland_queues (s : State) (k : Nat) (c : Island) : (s.setIsland k c).queues = s.queues := rfl
@[simp] theorem State.setIsland_ops (s : State) (k : Nat) (c : Island) : (s.setIsland k c).ops = s.ops := rfl
@[simp] theorem State.setIsland_nextOp (s : State) (k : Nat) (c : Island) : (s.setIsland k c).nextOp = s.nextOp := rfl
@[simp] theorem State.setIsland_ports (s : State) (k : Nat) (c : Island) : (s.setIsland k c).ports = s.ports := rfl
@[simp] theorem State.setIsland_out (s : State) (k : Nat) (c : Island) : (s.setIsland k c).out = s.out := rfl
@[simp] theorem State.setIsland_outst (s : State) (k : Nat) (c : Island) : (s.setIsland k c).outst = s.outst := rfl
@[simp] theorem State.setIsland_vecBusy (s : State) (k : Nat) (c : Island) : (s.setIsland k c).vecBusy = s.vecBusy := rfl
@[simp] theorem State.setIsland_prot (s : State) (k : Nat) (c : Island) : (s.setIsland k c).prot = s.prot := rfl
@[simp] theorem State.setIsland_groups (s : State) (k : Nat) (c : Island) : (s.setIsland k c).groups = s.groups := rfl
@[simp] theorem State.setIsland_time (s : State) (k : Nat) (c : Island) : (s.setIsland k c).time = s.time := rfl
@[simp] theorem State.setIsland_sb (s : State) (k : Nat) (c : Island) : (s.setIsland k c).sb = s.sb := rfl
@[simp] theorem State.setIsland_fuses (s : State) (k : Nat) (c : Island) : (s.setIsland k c).fuses = s.fuses := rfl
@[simp] theorem State.setIsland_sec (s : State) (k : Nat) (c : Island) : (s.setIsland k c).sec = s.sec := rfl
@[simp] theorem State.setIsland_audit (s : State) (k : Nat) (c : Island) : (s.setIsland k c).audit = s.audit := rfl
@[simp] theorem State.setIsland_latched (s : State) (k : Nat) (c : Island) : (s.setIsland k c).latched = s.latched := rfl
@[simp] theorem State.setIsland_securing (s : State) (k : Nat) (c : Island) : (s.setIsland k c).securing = s.securing := rfl
@[simp] theorem State.setIsland_power (s : State) (k : Nat) (c : Island) : (s.setIsland k c).power = s.power := rfl
@[simp] theorem State.setIsland_therm (s : State) (k : Nat) (c : Island) : (s.setIsland k c).therm = s.therm := rfl
@[simp] theorem State.setIsland_health (s : State) (k : Nat) (c : Island) : (s.setIsland k c).health = s.health := rfl
@[simp] theorem State.setIsland_replay (s : State) (k : Nat) (c : Island) : (s.setIsland k c).replay = s.replay := rfl
@[simp] theorem State.setIsland_journal (s : State) (k : Nat) (c : Island) : (s.setIsland k c).journal = s.journal := rfl
@[simp] theorem State.setIsland_jfloor (s : State) (k : Nat) (c : Island) : (s.setIsland k c).jfloor = s.jfloor := rfl
@[simp] theorem State.setIsland_images (s : State) (k : Nat) (c : Island) : (s.setIsland k c).images = s.images := rfl
@[simp] theorem State.setIsland_recovery (s : State) (k : Nat) (c : Island) : (s.setIsland k c).recovery = s.recovery := rfl
@[simp] theorem State.setIsland_mute (s : State) (k : Nat) (c : Island) : (s.setIsland k c).mute = s.mute := rfl
@[simp] theorem State.setIsland_stopped (s : State) (k : Nat) (c : Island) : (s.setIsland k c).stopped = s.stopped := rfl
@[simp] theorem State.setIsland_shut (s : State) (k : Nat) (c : Island) : (s.setIsland k c).shut = s.shut := rfl
@[simp] theorem State.setIsland_shutResult (s : State) (k : Nat) (c : Island) : (s.setIsland k c).shutResult = s.shutResult := rfl
@[simp] theorem State.setIsland_commitHold (s : State) (k : Nat) (c : Island) : (s.setIsland k c).commitHold = s.commitHold := rfl
@[simp] theorem State.setIsland_injected (s : State) (k : Nat) (c : Island) : (s.setIsland k c).injected = s.injected := rfl
@[simp] theorem State.setIsland_turn (s : State) (k : Nat) (c : Island) : (s.setIsland k c).turn = s.turn := rfl
@[simp] theorem State.setIsland_free (s : State) (k : Nat) (c : Island) : (s.setIsland k c).free = s.free := rfl
@[simp] theorem State.setIsland_pending (s : State) (k : Nat) (c : Island) : (s.setIsland k c).pending = s.pending := rfl
@[simp] theorem State.reg_setIsland (s : State) (k : Nat) (c : Island) (x : Nat) : (s.setIsland k c).reg x = s.reg x := rfl
@[simp] theorem State.shadow_setIsland (s : State) (k : Nat) (c : Island) (x : Nat) : (s.setIsland k c).shadow x = s.shadow x := rfl
@[simp] theorem State.core_setIsland (s : State) (k : Nat) (c : Island) (x : Nat) : (s.setIsland k c).core x = s.core x := rfl
@[simp] theorem State.queue_setIsland (s : State) (k : Nat) (c : Island) (x : Nat) : (s.setIsland k c).queue x = s.queue x := rfl
@[simp] theorem State.port_setIsland (s : State) (k : Nat) (c : Island) (x : Nat) : (s.setIsland k c).port x = s.port x := rfl
@[simp] theorem State.group_setIsland (s : State) (k : Nat) (c : Island) (x : Nat) : (s.setIsland k c).group x = s.group x := rfl
@[simp] theorem State.protEntry_setIsland (s : State) (k : Nat) (c : Island) (x : Nat) : (s.setIsland k c).protEntry x = s.protEntry x := rfl
@[simp] theorem State.op_setIsland (s : State) (k : Nat) (c : Island) (x : Nat) : (s.setIsland k c).op x = s.op x := rfl
@[simp] theorem State.isFull_setIsland (s : State) (k : Nat) (c : Island) (x : Nat) : (s.setIsland k c).isFull x = s.isFull x := rfl
@[simp] theorem State.bank_setIsland (s : State) (k : Nat) (c : Island) (x : Nat) : (s.setIsland k c).bank x = s.bank x := rfl
@[simp] theorem State.waiting_setIsland (s : State) (k : Nat) (c : Island) (x : Nat) : (s.setIsland k c).waiting x = s.waiting x := rfl
@[simp] theorem State.parkedAt_setIsland (s : State) (k : Nat) (c : Island) (x : Nat) : (s.setIsland k c).parkedAt x = s.parkedAt x := rfl
@[simp] theorem State.stageOf_setIsland (s : State) (k : Nat) (c : Island) (x : Nat) : (s.setIsland k c).stageOf x = s.stageOf x := rfl

/-! ## `State.setGroup` -/

theorem State.setGroup_groups (s : State) (k : Nat) (c : Group) : (s.setGroup k c).groups = SMap.putD s.groups k c Group.zero := rfl
@[simp] theorem State.setGroup_regs (s : State) (k : Nat) (c : Group) : (s.setGroup k c).regs = s.regs := rfl
@[simp] theorem State.setGroup_shad (s : State) (k : Nat) (c : Group) : (s.setGroup k c).shad = s.shad := rfl
@[simp] theorem State.setGroup_store (s : State) (k : Nat) (c : Group) : (s.setGroup k c).store = s.store := rfl
@[simp] theorem State.setGroup_full (s : State) (k : Nat) (c : Group) : (s.setGroup k c).full = s.full := rfl
@[simp] theorem State.setGroup_moved (s : State) (k : Nat) (c : Group) : (s.setGroup k c).moved = s.moved := rfl
@[simp] theorem State.setGroup_banks (s : State) (k : Nat) (c : Group) : (s.setGroup k c).banks = s.banks := rfl
@[simp] theorem State.setGroup_xbar (s : State) (k : Nat) (c : Group) : (s.setGroup k c).xbar = s.xbar := rfl
@[simp] theorem State.setGroup_parked (s : State) (k : Nat) (c : Group) : (s.setGroup k c).parked = s.parked := rfl
@[simp] theorem State.setGroup_closing (s : State) (k : Nat) (c : Group) : (s.setGroup k c).closing = s.closing := rfl
@[simp] theorem State.setGroup_owners (s : State) (k : Nat) (c : Group) : (s.setGroup k c).owners = s.owners := rfl
@[simp] theorem State.setGroup_endedOwners (s : State) (k : Nat) (c : Group) : (s.setGroup k c).endedOwners = s.endedOwners := rfl
@[simp] theorem State.setGroup_stage (s : State) (k : Nat) (c : Group) : (s.setGroup k c).stage = s.stage := rfl
@[simp] theorem State.setGroup_cores (s : State) (k : Nat) (c : Group) : (s.setGroup k c).cores = s.cores := rfl
@[simp] theorem State.setGroup_islands (s : State) (k : Nat) (c : Group) : (s.setGroup k c).islands = s.islands := rfl
@[simp] theorem State.setGroup_queues (s : State) (k : Nat) (c : Group) : (s.setGroup k c).queues = s.queues := rfl
@[simp] theorem State.setGroup_ops (s : State) (k : Nat) (c : Group) : (s.setGroup k c).ops = s.ops := rfl
@[simp] theorem State.setGroup_nextOp (s : State) (k : Nat) (c : Group) : (s.setGroup k c).nextOp = s.nextOp := rfl
@[simp] theorem State.setGroup_ports (s : State) (k : Nat) (c : Group) : (s.setGroup k c).ports = s.ports := rfl
@[simp] theorem State.setGroup_out (s : State) (k : Nat) (c : Group) : (s.setGroup k c).out = s.out := rfl
@[simp] theorem State.setGroup_outst (s : State) (k : Nat) (c : Group) : (s.setGroup k c).outst = s.outst := rfl
@[simp] theorem State.setGroup_vecBusy (s : State) (k : Nat) (c : Group) : (s.setGroup k c).vecBusy = s.vecBusy := rfl
@[simp] theorem State.setGroup_prot (s : State) (k : Nat) (c : Group) : (s.setGroup k c).prot = s.prot := rfl
@[simp] theorem State.setGroup_time (s : State) (k : Nat) (c : Group) : (s.setGroup k c).time = s.time := rfl
@[simp] theorem State.setGroup_sb (s : State) (k : Nat) (c : Group) : (s.setGroup k c).sb = s.sb := rfl
@[simp] theorem State.setGroup_fuses (s : State) (k : Nat) (c : Group) : (s.setGroup k c).fuses = s.fuses := rfl
@[simp] theorem State.setGroup_sec (s : State) (k : Nat) (c : Group) : (s.setGroup k c).sec = s.sec := rfl
@[simp] theorem State.setGroup_audit (s : State) (k : Nat) (c : Group) : (s.setGroup k c).audit = s.audit := rfl
@[simp] theorem State.setGroup_latched (s : State) (k : Nat) (c : Group) : (s.setGroup k c).latched = s.latched := rfl
@[simp] theorem State.setGroup_securing (s : State) (k : Nat) (c : Group) : (s.setGroup k c).securing = s.securing := rfl
@[simp] theorem State.setGroup_power (s : State) (k : Nat) (c : Group) : (s.setGroup k c).power = s.power := rfl
@[simp] theorem State.setGroup_therm (s : State) (k : Nat) (c : Group) : (s.setGroup k c).therm = s.therm := rfl
@[simp] theorem State.setGroup_health (s : State) (k : Nat) (c : Group) : (s.setGroup k c).health = s.health := rfl
@[simp] theorem State.setGroup_replay (s : State) (k : Nat) (c : Group) : (s.setGroup k c).replay = s.replay := rfl
@[simp] theorem State.setGroup_journal (s : State) (k : Nat) (c : Group) : (s.setGroup k c).journal = s.journal := rfl
@[simp] theorem State.setGroup_jfloor (s : State) (k : Nat) (c : Group) : (s.setGroup k c).jfloor = s.jfloor := rfl
@[simp] theorem State.setGroup_images (s : State) (k : Nat) (c : Group) : (s.setGroup k c).images = s.images := rfl
@[simp] theorem State.setGroup_recovery (s : State) (k : Nat) (c : Group) : (s.setGroup k c).recovery = s.recovery := rfl
@[simp] theorem State.setGroup_mute (s : State) (k : Nat) (c : Group) : (s.setGroup k c).mute = s.mute := rfl
@[simp] theorem State.setGroup_stopped (s : State) (k : Nat) (c : Group) : (s.setGroup k c).stopped = s.stopped := rfl
@[simp] theorem State.setGroup_shut (s : State) (k : Nat) (c : Group) : (s.setGroup k c).shut = s.shut := rfl
@[simp] theorem State.setGroup_shutResult (s : State) (k : Nat) (c : Group) : (s.setGroup k c).shutResult = s.shutResult := rfl
@[simp] theorem State.setGroup_commitHold (s : State) (k : Nat) (c : Group) : (s.setGroup k c).commitHold = s.commitHold := rfl
@[simp] theorem State.setGroup_injected (s : State) (k : Nat) (c : Group) : (s.setGroup k c).injected = s.injected := rfl
@[simp] theorem State.setGroup_turn (s : State) (k : Nat) (c : Group) : (s.setGroup k c).turn = s.turn := rfl
@[simp] theorem State.setGroup_free (s : State) (k : Nat) (c : Group) : (s.setGroup k c).free = s.free := rfl
@[simp] theorem State.setGroup_pending (s : State) (k : Nat) (c : Group) : (s.setGroup k c).pending = s.pending := rfl
@[simp] theorem State.reg_setGroup (s : State) (k : Nat) (c : Group) (x : Nat) : (s.setGroup k c).reg x = s.reg x := rfl
@[simp] theorem State.shadow_setGroup (s : State) (k : Nat) (c : Group) (x : Nat) : (s.setGroup k c).shadow x = s.shadow x := rfl
@[simp] theorem State.core_setGroup (s : State) (k : Nat) (c : Group) (x : Nat) : (s.setGroup k c).core x = s.core x := rfl
@[simp] theorem State.queue_setGroup (s : State) (k : Nat) (c : Group) (x : Nat) : (s.setGroup k c).queue x = s.queue x := rfl
@[simp] theorem State.port_setGroup (s : State) (k : Nat) (c : Group) (x : Nat) : (s.setGroup k c).port x = s.port x := rfl
@[simp] theorem State.island_setGroup (s : State) (k : Nat) (c : Group) (x : Nat) : (s.setGroup k c).island x = s.island x := rfl
@[simp] theorem State.protEntry_setGroup (s : State) (k : Nat) (c : Group) (x : Nat) : (s.setGroup k c).protEntry x = s.protEntry x := rfl
@[simp] theorem State.op_setGroup (s : State) (k : Nat) (c : Group) (x : Nat) : (s.setGroup k c).op x = s.op x := rfl
@[simp] theorem State.isFull_setGroup (s : State) (k : Nat) (c : Group) (x : Nat) : (s.setGroup k c).isFull x = s.isFull x := rfl
@[simp] theorem State.bank_setGroup (s : State) (k : Nat) (c : Group) (x : Nat) : (s.setGroup k c).bank x = s.bank x := rfl
@[simp] theorem State.waiting_setGroup (s : State) (k : Nat) (c : Group) (x : Nat) : (s.setGroup k c).waiting x = s.waiting x := rfl
@[simp] theorem State.parkedAt_setGroup (s : State) (k : Nat) (c : Group) (x : Nat) : (s.setGroup k c).parkedAt x = s.parkedAt x := rfl
@[simp] theorem State.stageOf_setGroup (s : State) (k : Nat) (c : Group) (x : Nat) : (s.setGroup k c).stageOf x = s.stageOf x := rfl

/-! ## `State.setOp` -/

@[simp] theorem State.setOp_regs (s : State) (o : OpRec) : (s.setOp o).regs = s.regs := rfl
@[simp] theorem State.setOp_shad (s : State) (o : OpRec) : (s.setOp o).shad = s.shad := rfl
@[simp] theorem State.setOp_store (s : State) (o : OpRec) : (s.setOp o).store = s.store := rfl
@[simp] theorem State.setOp_full (s : State) (o : OpRec) : (s.setOp o).full = s.full := rfl
@[simp] theorem State.setOp_moved (s : State) (o : OpRec) : (s.setOp o).moved = s.moved := rfl
@[simp] theorem State.setOp_banks (s : State) (o : OpRec) : (s.setOp o).banks = s.banks := rfl
@[simp] theorem State.setOp_xbar (s : State) (o : OpRec) : (s.setOp o).xbar = s.xbar := rfl
@[simp] theorem State.setOp_parked (s : State) (o : OpRec) : (s.setOp o).parked = s.parked := rfl
@[simp] theorem State.setOp_closing (s : State) (o : OpRec) : (s.setOp o).closing = s.closing := rfl
@[simp] theorem State.setOp_owners (s : State) (o : OpRec) : (s.setOp o).owners = s.owners := rfl
@[simp] theorem State.setOp_endedOwners (s : State) (o : OpRec) : (s.setOp o).endedOwners = s.endedOwners := rfl
@[simp] theorem State.setOp_stage (s : State) (o : OpRec) : (s.setOp o).stage = s.stage := rfl
@[simp] theorem State.setOp_cores (s : State) (o : OpRec) : (s.setOp o).cores = s.cores := rfl
@[simp] theorem State.setOp_islands (s : State) (o : OpRec) : (s.setOp o).islands = s.islands := rfl
@[simp] theorem State.setOp_queues (s : State) (o : OpRec) : (s.setOp o).queues = s.queues := rfl
@[simp] theorem State.setOp_nextOp (s : State) (o : OpRec) : (s.setOp o).nextOp = s.nextOp := rfl
@[simp] theorem State.setOp_ports (s : State) (o : OpRec) : (s.setOp o).ports = s.ports := rfl
@[simp] theorem State.setOp_out (s : State) (o : OpRec) : (s.setOp o).out = s.out := rfl
@[simp] theorem State.setOp_outst (s : State) (o : OpRec) : (s.setOp o).outst = s.outst := rfl
@[simp] theorem State.setOp_vecBusy (s : State) (o : OpRec) : (s.setOp o).vecBusy = s.vecBusy := rfl
@[simp] theorem State.setOp_prot (s : State) (o : OpRec) : (s.setOp o).prot = s.prot := rfl
@[simp] theorem State.setOp_groups (s : State) (o : OpRec) : (s.setOp o).groups = s.groups := rfl
@[simp] theorem State.setOp_time (s : State) (o : OpRec) : (s.setOp o).time = s.time := rfl
@[simp] theorem State.setOp_sb (s : State) (o : OpRec) : (s.setOp o).sb = s.sb := rfl
@[simp] theorem State.setOp_fuses (s : State) (o : OpRec) : (s.setOp o).fuses = s.fuses := rfl
@[simp] theorem State.setOp_sec (s : State) (o : OpRec) : (s.setOp o).sec = s.sec := rfl
@[simp] theorem State.setOp_audit (s : State) (o : OpRec) : (s.setOp o).audit = s.audit := rfl
@[simp] theorem State.setOp_latched (s : State) (o : OpRec) : (s.setOp o).latched = s.latched := rfl
@[simp] theorem State.setOp_securing (s : State) (o : OpRec) : (s.setOp o).securing = s.securing := rfl
@[simp] theorem State.setOp_power (s : State) (o : OpRec) : (s.setOp o).power = s.power := rfl
@[simp] theorem State.setOp_therm (s : State) (o : OpRec) : (s.setOp o).therm = s.therm := rfl
@[simp] theorem State.setOp_health (s : State) (o : OpRec) : (s.setOp o).health = s.health := rfl
@[simp] theorem State.setOp_replay (s : State) (o : OpRec) : (s.setOp o).replay = s.replay := rfl
@[simp] theorem State.setOp_journal (s : State) (o : OpRec) : (s.setOp o).journal = s.journal := rfl
@[simp] theorem State.setOp_jfloor (s : State) (o : OpRec) : (s.setOp o).jfloor = s.jfloor := rfl
@[simp] theorem State.setOp_images (s : State) (o : OpRec) : (s.setOp o).images = s.images := rfl
@[simp] theorem State.setOp_recovery (s : State) (o : OpRec) : (s.setOp o).recovery = s.recovery := rfl
@[simp] theorem State.setOp_mute (s : State) (o : OpRec) : (s.setOp o).mute = s.mute := rfl
@[simp] theorem State.setOp_stopped (s : State) (o : OpRec) : (s.setOp o).stopped = s.stopped := rfl
@[simp] theorem State.setOp_shut (s : State) (o : OpRec) : (s.setOp o).shut = s.shut := rfl
@[simp] theorem State.setOp_shutResult (s : State) (o : OpRec) : (s.setOp o).shutResult = s.shutResult := rfl
@[simp] theorem State.setOp_commitHold (s : State) (o : OpRec) : (s.setOp o).commitHold = s.commitHold := rfl
@[simp] theorem State.setOp_injected (s : State) (o : OpRec) : (s.setOp o).injected = s.injected := rfl
@[simp] theorem State.setOp_turn (s : State) (o : OpRec) : (s.setOp o).turn = s.turn := rfl
@[simp] theorem State.setOp_free (s : State) (o : OpRec) : (s.setOp o).free = s.free := rfl
@[simp] theorem State.setOp_pending (s : State) (o : OpRec) : (s.setOp o).pending = s.pending := rfl
@[simp] theorem State.reg_setOp (s : State) (o : OpRec) (x : Nat) : (s.setOp o).reg x = s.reg x := rfl
@[simp] theorem State.shadow_setOp (s : State) (o : OpRec) (x : Nat) : (s.setOp o).shadow x = s.shadow x := rfl
@[simp] theorem State.core_setOp (s : State) (o : OpRec) (x : Nat) : (s.setOp o).core x = s.core x := rfl
@[simp] theorem State.queue_setOp (s : State) (o : OpRec) (x : Nat) : (s.setOp o).queue x = s.queue x := rfl
@[simp] theorem State.port_setOp (s : State) (o : OpRec) (x : Nat) : (s.setOp o).port x = s.port x := rfl
@[simp] theorem State.island_setOp (s : State) (o : OpRec) (x : Nat) : (s.setOp o).island x = s.island x := rfl
@[simp] theorem State.group_setOp (s : State) (o : OpRec) (x : Nat) : (s.setOp o).group x = s.group x := rfl
@[simp] theorem State.protEntry_setOp (s : State) (o : OpRec) (x : Nat) : (s.setOp o).protEntry x = s.protEntry x := rfl
@[simp] theorem State.isFull_setOp (s : State) (o : OpRec) (x : Nat) : (s.setOp o).isFull x = s.isFull x := rfl
@[simp] theorem State.bank_setOp (s : State) (o : OpRec) (x : Nat) : (s.setOp o).bank x = s.bank x := rfl
@[simp] theorem State.waiting_setOp (s : State) (o : OpRec) (x : Nat) : (s.setOp o).waiting x = s.waiting x := rfl
@[simp] theorem State.parkedAt_setOp (s : State) (o : OpRec) (x : Nat) : (s.setOp o).parkedAt x = s.parkedAt x := rfl
@[simp] theorem State.stageOf_setOp (s : State) (o : OpRec) (x : Nat) : (s.setOp o).stageOf x = s.stageOf x := rfl

/-! ## `State.modOp` -/

@[simp] theorem State.modOp_regs (s : State) (i : Nat) (f : OpRec → OpRec) : (s.modOp i f).regs = s.regs := rfl
@[simp] theorem State.modOp_shad (s : State) (i : Nat) (f : OpRec → OpRec) : (s.modOp i f).shad = s.shad := rfl
@[simp] theorem State.modOp_store (s : State) (i : Nat) (f : OpRec → OpRec) : (s.modOp i f).store = s.store := rfl
@[simp] theorem State.modOp_full (s : State) (i : Nat) (f : OpRec → OpRec) : (s.modOp i f).full = s.full := rfl
@[simp] theorem State.modOp_moved (s : State) (i : Nat) (f : OpRec → OpRec) : (s.modOp i f).moved = s.moved := rfl
@[simp] theorem State.modOp_banks (s : State) (i : Nat) (f : OpRec → OpRec) : (s.modOp i f).banks = s.banks := rfl
@[simp] theorem State.modOp_xbar (s : State) (i : Nat) (f : OpRec → OpRec) : (s.modOp i f).xbar = s.xbar := rfl
@[simp] theorem State.modOp_parked (s : State) (i : Nat) (f : OpRec → OpRec) : (s.modOp i f).parked = s.parked := rfl
@[simp] theorem State.modOp_closing (s : State) (i : Nat) (f : OpRec → OpRec) : (s.modOp i f).closing = s.closing := rfl
@[simp] theorem State.modOp_owners (s : State) (i : Nat) (f : OpRec → OpRec) : (s.modOp i f).owners = s.owners := rfl
@[simp] theorem State.modOp_endedOwners (s : State) (i : Nat) (f : OpRec → OpRec) : (s.modOp i f).endedOwners = s.endedOwners := rfl
@[simp] theorem State.modOp_stage (s : State) (i : Nat) (f : OpRec → OpRec) : (s.modOp i f).stage = s.stage := rfl
@[simp] theorem State.modOp_cores (s : State) (i : Nat) (f : OpRec → OpRec) : (s.modOp i f).cores = s.cores := rfl
@[simp] theorem State.modOp_islands (s : State) (i : Nat) (f : OpRec → OpRec) : (s.modOp i f).islands = s.islands := rfl
@[simp] theorem State.modOp_queues (s : State) (i : Nat) (f : OpRec → OpRec) : (s.modOp i f).queues = s.queues := rfl
@[simp] theorem State.modOp_nextOp (s : State) (i : Nat) (f : OpRec → OpRec) : (s.modOp i f).nextOp = s.nextOp := rfl
@[simp] theorem State.modOp_ports (s : State) (i : Nat) (f : OpRec → OpRec) : (s.modOp i f).ports = s.ports := rfl
@[simp] theorem State.modOp_out (s : State) (i : Nat) (f : OpRec → OpRec) : (s.modOp i f).out = s.out := rfl
@[simp] theorem State.modOp_outst (s : State) (i : Nat) (f : OpRec → OpRec) : (s.modOp i f).outst = s.outst := rfl
@[simp] theorem State.modOp_vecBusy (s : State) (i : Nat) (f : OpRec → OpRec) : (s.modOp i f).vecBusy = s.vecBusy := rfl
@[simp] theorem State.modOp_prot (s : State) (i : Nat) (f : OpRec → OpRec) : (s.modOp i f).prot = s.prot := rfl
@[simp] theorem State.modOp_groups (s : State) (i : Nat) (f : OpRec → OpRec) : (s.modOp i f).groups = s.groups := rfl
@[simp] theorem State.modOp_time (s : State) (i : Nat) (f : OpRec → OpRec) : (s.modOp i f).time = s.time := rfl
@[simp] theorem State.modOp_sb (s : State) (i : Nat) (f : OpRec → OpRec) : (s.modOp i f).sb = s.sb := rfl
@[simp] theorem State.modOp_fuses (s : State) (i : Nat) (f : OpRec → OpRec) : (s.modOp i f).fuses = s.fuses := rfl
@[simp] theorem State.modOp_sec (s : State) (i : Nat) (f : OpRec → OpRec) : (s.modOp i f).sec = s.sec := rfl
@[simp] theorem State.modOp_audit (s : State) (i : Nat) (f : OpRec → OpRec) : (s.modOp i f).audit = s.audit := rfl
@[simp] theorem State.modOp_latched (s : State) (i : Nat) (f : OpRec → OpRec) : (s.modOp i f).latched = s.latched := rfl
@[simp] theorem State.modOp_securing (s : State) (i : Nat) (f : OpRec → OpRec) : (s.modOp i f).securing = s.securing := rfl
@[simp] theorem State.modOp_power (s : State) (i : Nat) (f : OpRec → OpRec) : (s.modOp i f).power = s.power := rfl
@[simp] theorem State.modOp_therm (s : State) (i : Nat) (f : OpRec → OpRec) : (s.modOp i f).therm = s.therm := rfl
@[simp] theorem State.modOp_health (s : State) (i : Nat) (f : OpRec → OpRec) : (s.modOp i f).health = s.health := rfl
@[simp] theorem State.modOp_replay (s : State) (i : Nat) (f : OpRec → OpRec) : (s.modOp i f).replay = s.replay := rfl
@[simp] theorem State.modOp_journal (s : State) (i : Nat) (f : OpRec → OpRec) : (s.modOp i f).journal = s.journal := rfl
@[simp] theorem State.modOp_jfloor (s : State) (i : Nat) (f : OpRec → OpRec) : (s.modOp i f).jfloor = s.jfloor := rfl
@[simp] theorem State.modOp_images (s : State) (i : Nat) (f : OpRec → OpRec) : (s.modOp i f).images = s.images := rfl
@[simp] theorem State.modOp_recovery (s : State) (i : Nat) (f : OpRec → OpRec) : (s.modOp i f).recovery = s.recovery := rfl
@[simp] theorem State.modOp_mute (s : State) (i : Nat) (f : OpRec → OpRec) : (s.modOp i f).mute = s.mute := rfl
@[simp] theorem State.modOp_stopped (s : State) (i : Nat) (f : OpRec → OpRec) : (s.modOp i f).stopped = s.stopped := rfl
@[simp] theorem State.modOp_shut (s : State) (i : Nat) (f : OpRec → OpRec) : (s.modOp i f).shut = s.shut := rfl
@[simp] theorem State.modOp_shutResult (s : State) (i : Nat) (f : OpRec → OpRec) : (s.modOp i f).shutResult = s.shutResult := rfl
@[simp] theorem State.modOp_commitHold (s : State) (i : Nat) (f : OpRec → OpRec) : (s.modOp i f).commitHold = s.commitHold := rfl
@[simp] theorem State.modOp_injected (s : State) (i : Nat) (f : OpRec → OpRec) : (s.modOp i f).injected = s.injected := rfl
@[simp] theorem State.modOp_turn (s : State) (i : Nat) (f : OpRec → OpRec) : (s.modOp i f).turn = s.turn := rfl
@[simp] theorem State.modOp_free (s : State) (i : Nat) (f : OpRec → OpRec) : (s.modOp i f).free = s.free := rfl
@[simp] theorem State.modOp_pending (s : State) (i : Nat) (f : OpRec → OpRec) : (s.modOp i f).pending = s.pending := rfl
@[simp] theorem State.reg_modOp (s : State) (i : Nat) (f : OpRec → OpRec) (x : Nat) : (s.modOp i f).reg x = s.reg x := rfl
@[simp] theorem State.shadow_modOp (s : State) (i : Nat) (f : OpRec → OpRec) (x : Nat) : (s.modOp i f).shadow x = s.shadow x := rfl
@[simp] theorem State.core_modOp (s : State) (i : Nat) (f : OpRec → OpRec) (x : Nat) : (s.modOp i f).core x = s.core x := rfl
@[simp] theorem State.queue_modOp (s : State) (i : Nat) (f : OpRec → OpRec) (x : Nat) : (s.modOp i f).queue x = s.queue x := rfl
@[simp] theorem State.port_modOp (s : State) (i : Nat) (f : OpRec → OpRec) (x : Nat) : (s.modOp i f).port x = s.port x := rfl
@[simp] theorem State.island_modOp (s : State) (i : Nat) (f : OpRec → OpRec) (x : Nat) : (s.modOp i f).island x = s.island x := rfl
@[simp] theorem State.group_modOp (s : State) (i : Nat) (f : OpRec → OpRec) (x : Nat) : (s.modOp i f).group x = s.group x := rfl
@[simp] theorem State.protEntry_modOp (s : State) (i : Nat) (f : OpRec → OpRec) (x : Nat) : (s.modOp i f).protEntry x = s.protEntry x := rfl
@[simp] theorem State.isFull_modOp (s : State) (i : Nat) (f : OpRec → OpRec) (x : Nat) : (s.modOp i f).isFull x = s.isFull x := rfl
@[simp] theorem State.bank_modOp (s : State) (i : Nat) (f : OpRec → OpRec) (x : Nat) : (s.modOp i f).bank x = s.bank x := rfl
@[simp] theorem State.waiting_modOp (s : State) (i : Nat) (f : OpRec → OpRec) (x : Nat) : (s.modOp i f).waiting x = s.waiting x := rfl
@[simp] theorem State.parkedAt_modOp (s : State) (i : Nat) (f : OpRec → OpRec) (x : Nat) : (s.modOp i f).parkedAt x = s.parkedAt x := rfl
@[simp] theorem State.stageOf_modOp (s : State) (i : Nat) (f : OpRec → OpRec) (x : Nat) : (s.modOp i f).stageOf x = s.stageOf x := rfl

/-! ## `State.dropOp` -/

@[simp] theorem State.dropOp_regs (s : State) (i : Nat) : (s.dropOp i).regs = s.regs := rfl
@[simp] theorem State.dropOp_shad (s : State) (i : Nat) : (s.dropOp i).shad = s.shad := rfl
@[simp] theorem State.dropOp_store (s : State) (i : Nat) : (s.dropOp i).store = s.store := rfl
@[simp] theorem State.dropOp_full (s : State) (i : Nat) : (s.dropOp i).full = s.full := rfl
@[simp] theorem State.dropOp_moved (s : State) (i : Nat) : (s.dropOp i).moved = s.moved := rfl
@[simp] theorem State.dropOp_banks (s : State) (i : Nat) : (s.dropOp i).banks = s.banks := rfl
@[simp] theorem State.dropOp_xbar (s : State) (i : Nat) : (s.dropOp i).xbar = s.xbar := rfl
@[simp] theorem State.dropOp_parked (s : State) (i : Nat) : (s.dropOp i).parked = s.parked := rfl
@[simp] theorem State.dropOp_closing (s : State) (i : Nat) : (s.dropOp i).closing = s.closing := rfl
@[simp] theorem State.dropOp_owners (s : State) (i : Nat) : (s.dropOp i).owners = s.owners := rfl
@[simp] theorem State.dropOp_endedOwners (s : State) (i : Nat) : (s.dropOp i).endedOwners = s.endedOwners := rfl
@[simp] theorem State.dropOp_stage (s : State) (i : Nat) : (s.dropOp i).stage = s.stage := rfl
@[simp] theorem State.dropOp_cores (s : State) (i : Nat) : (s.dropOp i).cores = s.cores := rfl
@[simp] theorem State.dropOp_islands (s : State) (i : Nat) : (s.dropOp i).islands = s.islands := rfl
@[simp] theorem State.dropOp_queues (s : State) (i : Nat) : (s.dropOp i).queues = s.queues := rfl
@[simp] theorem State.dropOp_nextOp (s : State) (i : Nat) : (s.dropOp i).nextOp = s.nextOp := rfl
@[simp] theorem State.dropOp_ports (s : State) (i : Nat) : (s.dropOp i).ports = s.ports := rfl
@[simp] theorem State.dropOp_out (s : State) (i : Nat) : (s.dropOp i).out = s.out := rfl
@[simp] theorem State.dropOp_outst (s : State) (i : Nat) : (s.dropOp i).outst = s.outst := rfl
@[simp] theorem State.dropOp_vecBusy (s : State) (i : Nat) : (s.dropOp i).vecBusy = s.vecBusy := rfl
@[simp] theorem State.dropOp_prot (s : State) (i : Nat) : (s.dropOp i).prot = s.prot := rfl
@[simp] theorem State.dropOp_groups (s : State) (i : Nat) : (s.dropOp i).groups = s.groups := rfl
@[simp] theorem State.dropOp_time (s : State) (i : Nat) : (s.dropOp i).time = s.time := rfl
@[simp] theorem State.dropOp_sb (s : State) (i : Nat) : (s.dropOp i).sb = s.sb := rfl
@[simp] theorem State.dropOp_fuses (s : State) (i : Nat) : (s.dropOp i).fuses = s.fuses := rfl
@[simp] theorem State.dropOp_sec (s : State) (i : Nat) : (s.dropOp i).sec = s.sec := rfl
@[simp] theorem State.dropOp_audit (s : State) (i : Nat) : (s.dropOp i).audit = s.audit := rfl
@[simp] theorem State.dropOp_latched (s : State) (i : Nat) : (s.dropOp i).latched = s.latched := rfl
@[simp] theorem State.dropOp_securing (s : State) (i : Nat) : (s.dropOp i).securing = s.securing := rfl
@[simp] theorem State.dropOp_power (s : State) (i : Nat) : (s.dropOp i).power = s.power := rfl
@[simp] theorem State.dropOp_therm (s : State) (i : Nat) : (s.dropOp i).therm = s.therm := rfl
@[simp] theorem State.dropOp_health (s : State) (i : Nat) : (s.dropOp i).health = s.health := rfl
@[simp] theorem State.dropOp_replay (s : State) (i : Nat) : (s.dropOp i).replay = s.replay := rfl
@[simp] theorem State.dropOp_journal (s : State) (i : Nat) : (s.dropOp i).journal = s.journal := rfl
@[simp] theorem State.dropOp_jfloor (s : State) (i : Nat) : (s.dropOp i).jfloor = s.jfloor := rfl
@[simp] theorem State.dropOp_images (s : State) (i : Nat) : (s.dropOp i).images = s.images := rfl
@[simp] theorem State.dropOp_recovery (s : State) (i : Nat) : (s.dropOp i).recovery = s.recovery := rfl
@[simp] theorem State.dropOp_mute (s : State) (i : Nat) : (s.dropOp i).mute = s.mute := rfl
@[simp] theorem State.dropOp_stopped (s : State) (i : Nat) : (s.dropOp i).stopped = s.stopped := rfl
@[simp] theorem State.dropOp_shut (s : State) (i : Nat) : (s.dropOp i).shut = s.shut := rfl
@[simp] theorem State.dropOp_shutResult (s : State) (i : Nat) : (s.dropOp i).shutResult = s.shutResult := rfl
@[simp] theorem State.dropOp_commitHold (s : State) (i : Nat) : (s.dropOp i).commitHold = s.commitHold := rfl
@[simp] theorem State.dropOp_injected (s : State) (i : Nat) : (s.dropOp i).injected = s.injected := rfl
@[simp] theorem State.dropOp_turn (s : State) (i : Nat) : (s.dropOp i).turn = s.turn := rfl
@[simp] theorem State.dropOp_free (s : State) (i : Nat) : (s.dropOp i).free = s.free := rfl
@[simp] theorem State.dropOp_pending (s : State) (i : Nat) : (s.dropOp i).pending = s.pending := rfl
@[simp] theorem State.reg_dropOp (s : State) (i : Nat) (x : Nat) : (s.dropOp i).reg x = s.reg x := rfl
@[simp] theorem State.shadow_dropOp (s : State) (i : Nat) (x : Nat) : (s.dropOp i).shadow x = s.shadow x := rfl
@[simp] theorem State.core_dropOp (s : State) (i : Nat) (x : Nat) : (s.dropOp i).core x = s.core x := rfl
@[simp] theorem State.queue_dropOp (s : State) (i : Nat) (x : Nat) : (s.dropOp i).queue x = s.queue x := rfl
@[simp] theorem State.port_dropOp (s : State) (i : Nat) (x : Nat) : (s.dropOp i).port x = s.port x := rfl
@[simp] theorem State.island_dropOp (s : State) (i : Nat) (x : Nat) : (s.dropOp i).island x = s.island x := rfl
@[simp] theorem State.group_dropOp (s : State) (i : Nat) (x : Nat) : (s.dropOp i).group x = s.group x := rfl
@[simp] theorem State.protEntry_dropOp (s : State) (i : Nat) (x : Nat) : (s.dropOp i).protEntry x = s.protEntry x := rfl
@[simp] theorem State.isFull_dropOp (s : State) (i : Nat) (x : Nat) : (s.dropOp i).isFull x = s.isFull x := rfl
@[simp] theorem State.bank_dropOp (s : State) (i : Nat) (x : Nat) : (s.dropOp i).bank x = s.bank x := rfl
@[simp] theorem State.waiting_dropOp (s : State) (i : Nat) (x : Nat) : (s.dropOp i).waiting x = s.waiting x := rfl
@[simp] theorem State.parkedAt_dropOp (s : State) (i : Nat) (x : Nat) : (s.dropOp i).parkedAt x = s.parkedAt x := rfl
@[simp] theorem State.stageOf_dropOp (s : State) (i : Nat) (x : Nat) : (s.dropOp i).stageOf x = s.stageOf x := rfl

/-! ## `State.writeStore` -/

@[simp] theorem State.writeStore_regs (s : State) (c b r p : Nat) (d : List Byte) : (s.writeStore c b r p d).regs = s.regs := rfl
@[simp] theorem State.writeStore_shad (s : State) (c b r p : Nat) (d : List Byte) : (s.writeStore c b r p d).shad = s.shad := rfl
@[simp] theorem State.writeStore_full (s : State) (c b r p : Nat) (d : List Byte) : (s.writeStore c b r p d).full = s.full := rfl
@[simp] theorem State.writeStore_moved (s : State) (c b r p : Nat) (d : List Byte) : (s.writeStore c b r p d).moved = s.moved := rfl
@[simp] theorem State.writeStore_banks (s : State) (c b r p : Nat) (d : List Byte) : (s.writeStore c b r p d).banks = s.banks := rfl
@[simp] theorem State.writeStore_xbar (s : State) (c b r p : Nat) (d : List Byte) : (s.writeStore c b r p d).xbar = s.xbar := rfl
@[simp] theorem State.writeStore_parked (s : State) (c b r p : Nat) (d : List Byte) : (s.writeStore c b r p d).parked = s.parked := rfl
@[simp] theorem State.writeStore_closing (s : State) (c b r p : Nat) (d : List Byte) : (s.writeStore c b r p d).closing = s.closing := rfl
@[simp] theorem State.writeStore_owners (s : State) (c b r p : Nat) (d : List Byte) : (s.writeStore c b r p d).owners = s.owners := rfl
@[simp] theorem State.writeStore_endedOwners (s : State) (c b r p : Nat) (d : List Byte) : (s.writeStore c b r p d).endedOwners = s.endedOwners := rfl
@[simp] theorem State.writeStore_stage (s : State) (c b r p : Nat) (d : List Byte) : (s.writeStore c b r p d).stage = s.stage := rfl
@[simp] theorem State.writeStore_cores (s : State) (c b r p : Nat) (d : List Byte) : (s.writeStore c b r p d).cores = s.cores := rfl
@[simp] theorem State.writeStore_islands (s : State) (c b r p : Nat) (d : List Byte) : (s.writeStore c b r p d).islands = s.islands := rfl
@[simp] theorem State.writeStore_queues (s : State) (c b r p : Nat) (d : List Byte) : (s.writeStore c b r p d).queues = s.queues := rfl
@[simp] theorem State.writeStore_ops (s : State) (c b r p : Nat) (d : List Byte) : (s.writeStore c b r p d).ops = s.ops := rfl
@[simp] theorem State.writeStore_nextOp (s : State) (c b r p : Nat) (d : List Byte) : (s.writeStore c b r p d).nextOp = s.nextOp := rfl
@[simp] theorem State.writeStore_ports (s : State) (c b r p : Nat) (d : List Byte) : (s.writeStore c b r p d).ports = s.ports := rfl
@[simp] theorem State.writeStore_out (s : State) (c b r p : Nat) (d : List Byte) : (s.writeStore c b r p d).out = s.out := rfl
@[simp] theorem State.writeStore_outst (s : State) (c b r p : Nat) (d : List Byte) : (s.writeStore c b r p d).outst = s.outst := rfl
@[simp] theorem State.writeStore_vecBusy (s : State) (c b r p : Nat) (d : List Byte) : (s.writeStore c b r p d).vecBusy = s.vecBusy := rfl
@[simp] theorem State.writeStore_prot (s : State) (c b r p : Nat) (d : List Byte) : (s.writeStore c b r p d).prot = s.prot := rfl
@[simp] theorem State.writeStore_groups (s : State) (c b r p : Nat) (d : List Byte) : (s.writeStore c b r p d).groups = s.groups := rfl
@[simp] theorem State.writeStore_time (s : State) (c b r p : Nat) (d : List Byte) : (s.writeStore c b r p d).time = s.time := rfl
@[simp] theorem State.writeStore_sb (s : State) (c b r p : Nat) (d : List Byte) : (s.writeStore c b r p d).sb = s.sb := rfl
@[simp] theorem State.writeStore_fuses (s : State) (c b r p : Nat) (d : List Byte) : (s.writeStore c b r p d).fuses = s.fuses := rfl
@[simp] theorem State.writeStore_sec (s : State) (c b r p : Nat) (d : List Byte) : (s.writeStore c b r p d).sec = s.sec := rfl
@[simp] theorem State.writeStore_audit (s : State) (c b r p : Nat) (d : List Byte) : (s.writeStore c b r p d).audit = s.audit := rfl
@[simp] theorem State.writeStore_latched (s : State) (c b r p : Nat) (d : List Byte) : (s.writeStore c b r p d).latched = s.latched := rfl
@[simp] theorem State.writeStore_securing (s : State) (c b r p : Nat) (d : List Byte) : (s.writeStore c b r p d).securing = s.securing := rfl
@[simp] theorem State.writeStore_power (s : State) (c b r p : Nat) (d : List Byte) : (s.writeStore c b r p d).power = s.power := rfl
@[simp] theorem State.writeStore_therm (s : State) (c b r p : Nat) (d : List Byte) : (s.writeStore c b r p d).therm = s.therm := rfl
@[simp] theorem State.writeStore_health (s : State) (c b r p : Nat) (d : List Byte) : (s.writeStore c b r p d).health = s.health := rfl
@[simp] theorem State.writeStore_replay (s : State) (c b r p : Nat) (d : List Byte) : (s.writeStore c b r p d).replay = s.replay := rfl
@[simp] theorem State.writeStore_journal (s : State) (c b r p : Nat) (d : List Byte) : (s.writeStore c b r p d).journal = s.journal := rfl
@[simp] theorem State.writeStore_jfloor (s : State) (c b r p : Nat) (d : List Byte) : (s.writeStore c b r p d).jfloor = s.jfloor := rfl
@[simp] theorem State.writeStore_images (s : State) (c b r p : Nat) (d : List Byte) : (s.writeStore c b r p d).images = s.images := rfl
@[simp] theorem State.writeStore_recovery (s : State) (c b r p : Nat) (d : List Byte) : (s.writeStore c b r p d).recovery = s.recovery := rfl
@[simp] theorem State.writeStore_mute (s : State) (c b r p : Nat) (d : List Byte) : (s.writeStore c b r p d).mute = s.mute := rfl
@[simp] theorem State.writeStore_stopped (s : State) (c b r p : Nat) (d : List Byte) : (s.writeStore c b r p d).stopped = s.stopped := rfl
@[simp] theorem State.writeStore_shut (s : State) (c b r p : Nat) (d : List Byte) : (s.writeStore c b r p d).shut = s.shut := rfl
@[simp] theorem State.writeStore_shutResult (s : State) (c b r p : Nat) (d : List Byte) : (s.writeStore c b r p d).shutResult = s.shutResult := rfl
@[simp] theorem State.writeStore_commitHold (s : State) (c b r p : Nat) (d : List Byte) : (s.writeStore c b r p d).commitHold = s.commitHold := rfl
@[simp] theorem State.writeStore_injected (s : State) (c b r p : Nat) (d : List Byte) : (s.writeStore c b r p d).injected = s.injected := rfl
@[simp] theorem State.writeStore_turn (s : State) (c b r p : Nat) (d : List Byte) : (s.writeStore c b r p d).turn = s.turn := rfl
@[simp] theorem State.writeStore_free (s : State) (c b r p : Nat) (d : List Byte) : (s.writeStore c b r p d).free = s.free := rfl
@[simp] theorem State.writeStore_pending (s : State) (c b r p : Nat) (d : List Byte) : (s.writeStore c b r p d).pending = s.pending := rfl
@[simp] theorem State.reg_writeStore (s : State) (c b r p : Nat) (d : List Byte) (x : Nat) : (s.writeStore c b r p d).reg x = s.reg x := rfl
@[simp] theorem State.shadow_writeStore (s : State) (c b r p : Nat) (d : List Byte) (x : Nat) : (s.writeStore c b r p d).shadow x = s.shadow x := rfl
@[simp] theorem State.core_writeStore (s : State) (c b r p : Nat) (d : List Byte) (x : Nat) : (s.writeStore c b r p d).core x = s.core x := rfl
@[simp] theorem State.queue_writeStore (s : State) (c b r p : Nat) (d : List Byte) (x : Nat) : (s.writeStore c b r p d).queue x = s.queue x := rfl
@[simp] theorem State.port_writeStore (s : State) (c b r p : Nat) (d : List Byte) (x : Nat) : (s.writeStore c b r p d).port x = s.port x := rfl
@[simp] theorem State.island_writeStore (s : State) (c b r p : Nat) (d : List Byte) (x : Nat) : (s.writeStore c b r p d).island x = s.island x := rfl
@[simp] theorem State.group_writeStore (s : State) (c b r p : Nat) (d : List Byte) (x : Nat) : (s.writeStore c b r p d).group x = s.group x := rfl
@[simp] theorem State.protEntry_writeStore (s : State) (c b r p : Nat) (d : List Byte) (x : Nat) : (s.writeStore c b r p d).protEntry x = s.protEntry x := rfl
@[simp] theorem State.op_writeStore (s : State) (c b r p : Nat) (d : List Byte) (x : Nat) : (s.writeStore c b r p d).op x = s.op x := rfl
@[simp] theorem State.isFull_writeStore (s : State) (c b r p : Nat) (d : List Byte) (x : Nat) : (s.writeStore c b r p d).isFull x = s.isFull x := rfl
@[simp] theorem State.bank_writeStore (s : State) (c b r p : Nat) (d : List Byte) (x : Nat) : (s.writeStore c b r p d).bank x = s.bank x := rfl
@[simp] theorem State.waiting_writeStore (s : State) (c b r p : Nat) (d : List Byte) (x : Nat) : (s.writeStore c b r p d).waiting x = s.waiting x := rfl
@[simp] theorem State.parkedAt_writeStore (s : State) (c b r p : Nat) (d : List Byte) (x : Nat) : (s.writeStore c b r p d).parkedAt x = s.parkedAt x := rfl
@[simp] theorem State.stageOf_writeStore (s : State) (c b r p : Nat) (d : List Byte) (x : Nat) : (s.writeStore c b r p d).stageOf x = s.stageOf x := rfl

/-! ## `State.setFull` -/

@[simp] theorem State.setFull_regs (s : State) (k : Nat) (f : Bool) : (s.setFull k f).regs = s.regs := rfl
@[simp] theorem State.setFull_shad (s : State) (k : Nat) (f : Bool) : (s.setFull k f).shad = s.shad := rfl
@[simp] theorem State.setFull_store (s : State) (k : Nat) (f : Bool) : (s.setFull k f).store = s.store := rfl
@[simp] theorem State.setFull_moved (s : State) (k : Nat) (f : Bool) : (s.setFull k f).moved = s.moved := rfl
@[simp] theorem State.setFull_banks (s : State) (k : Nat) (f : Bool) : (s.setFull k f).banks = s.banks := rfl
@[simp] theorem State.setFull_xbar (s : State) (k : Nat) (f : Bool) : (s.setFull k f).xbar = s.xbar := rfl
@[simp] theorem State.setFull_parked (s : State) (k : Nat) (f : Bool) : (s.setFull k f).parked = s.parked := rfl
@[simp] theorem State.setFull_closing (s : State) (k : Nat) (f : Bool) : (s.setFull k f).closing = s.closing := rfl
@[simp] theorem State.setFull_owners (s : State) (k : Nat) (f : Bool) : (s.setFull k f).owners = s.owners := rfl
@[simp] theorem State.setFull_endedOwners (s : State) (k : Nat) (f : Bool) : (s.setFull k f).endedOwners = s.endedOwners := rfl
@[simp] theorem State.setFull_stage (s : State) (k : Nat) (f : Bool) : (s.setFull k f).stage = s.stage := rfl
@[simp] theorem State.setFull_cores (s : State) (k : Nat) (f : Bool) : (s.setFull k f).cores = s.cores := rfl
@[simp] theorem State.setFull_islands (s : State) (k : Nat) (f : Bool) : (s.setFull k f).islands = s.islands := rfl
@[simp] theorem State.setFull_queues (s : State) (k : Nat) (f : Bool) : (s.setFull k f).queues = s.queues := rfl
@[simp] theorem State.setFull_ops (s : State) (k : Nat) (f : Bool) : (s.setFull k f).ops = s.ops := rfl
@[simp] theorem State.setFull_nextOp (s : State) (k : Nat) (f : Bool) : (s.setFull k f).nextOp = s.nextOp := rfl
@[simp] theorem State.setFull_ports (s : State) (k : Nat) (f : Bool) : (s.setFull k f).ports = s.ports := rfl
@[simp] theorem State.setFull_out (s : State) (k : Nat) (f : Bool) : (s.setFull k f).out = s.out := rfl
@[simp] theorem State.setFull_outst (s : State) (k : Nat) (f : Bool) : (s.setFull k f).outst = s.outst := rfl
@[simp] theorem State.setFull_vecBusy (s : State) (k : Nat) (f : Bool) : (s.setFull k f).vecBusy = s.vecBusy := rfl
@[simp] theorem State.setFull_prot (s : State) (k : Nat) (f : Bool) : (s.setFull k f).prot = s.prot := rfl
@[simp] theorem State.setFull_groups (s : State) (k : Nat) (f : Bool) : (s.setFull k f).groups = s.groups := rfl
@[simp] theorem State.setFull_time (s : State) (k : Nat) (f : Bool) : (s.setFull k f).time = s.time := rfl
@[simp] theorem State.setFull_sb (s : State) (k : Nat) (f : Bool) : (s.setFull k f).sb = s.sb := rfl
@[simp] theorem State.setFull_fuses (s : State) (k : Nat) (f : Bool) : (s.setFull k f).fuses = s.fuses := rfl
@[simp] theorem State.setFull_sec (s : State) (k : Nat) (f : Bool) : (s.setFull k f).sec = s.sec := rfl
@[simp] theorem State.setFull_audit (s : State) (k : Nat) (f : Bool) : (s.setFull k f).audit = s.audit := rfl
@[simp] theorem State.setFull_latched (s : State) (k : Nat) (f : Bool) : (s.setFull k f).latched = s.latched := rfl
@[simp] theorem State.setFull_securing (s : State) (k : Nat) (f : Bool) : (s.setFull k f).securing = s.securing := rfl
@[simp] theorem State.setFull_power (s : State) (k : Nat) (f : Bool) : (s.setFull k f).power = s.power := rfl
@[simp] theorem State.setFull_therm (s : State) (k : Nat) (f : Bool) : (s.setFull k f).therm = s.therm := rfl
@[simp] theorem State.setFull_health (s : State) (k : Nat) (f : Bool) : (s.setFull k f).health = s.health := rfl
@[simp] theorem State.setFull_replay (s : State) (k : Nat) (f : Bool) : (s.setFull k f).replay = s.replay := rfl
@[simp] theorem State.setFull_journal (s : State) (k : Nat) (f : Bool) : (s.setFull k f).journal = s.journal := rfl
@[simp] theorem State.setFull_jfloor (s : State) (k : Nat) (f : Bool) : (s.setFull k f).jfloor = s.jfloor := rfl
@[simp] theorem State.setFull_images (s : State) (k : Nat) (f : Bool) : (s.setFull k f).images = s.images := rfl
@[simp] theorem State.setFull_recovery (s : State) (k : Nat) (f : Bool) : (s.setFull k f).recovery = s.recovery := rfl
@[simp] theorem State.setFull_mute (s : State) (k : Nat) (f : Bool) : (s.setFull k f).mute = s.mute := rfl
@[simp] theorem State.setFull_stopped (s : State) (k : Nat) (f : Bool) : (s.setFull k f).stopped = s.stopped := rfl
@[simp] theorem State.setFull_shut (s : State) (k : Nat) (f : Bool) : (s.setFull k f).shut = s.shut := rfl
@[simp] theorem State.setFull_shutResult (s : State) (k : Nat) (f : Bool) : (s.setFull k f).shutResult = s.shutResult := rfl
@[simp] theorem State.setFull_commitHold (s : State) (k : Nat) (f : Bool) : (s.setFull k f).commitHold = s.commitHold := rfl
@[simp] theorem State.setFull_injected (s : State) (k : Nat) (f : Bool) : (s.setFull k f).injected = s.injected := rfl
@[simp] theorem State.setFull_turn (s : State) (k : Nat) (f : Bool) : (s.setFull k f).turn = s.turn := rfl
@[simp] theorem State.setFull_free (s : State) (k : Nat) (f : Bool) : (s.setFull k f).free = s.free := rfl
@[simp] theorem State.setFull_pending (s : State) (k : Nat) (f : Bool) : (s.setFull k f).pending = s.pending := rfl
@[simp] theorem State.reg_setFull (s : State) (k : Nat) (f : Bool) (x : Nat) : (s.setFull k f).reg x = s.reg x := rfl
@[simp] theorem State.shadow_setFull (s : State) (k : Nat) (f : Bool) (x : Nat) : (s.setFull k f).shadow x = s.shadow x := rfl
@[simp] theorem State.core_setFull (s : State) (k : Nat) (f : Bool) (x : Nat) : (s.setFull k f).core x = s.core x := rfl
@[simp] theorem State.queue_setFull (s : State) (k : Nat) (f : Bool) (x : Nat) : (s.setFull k f).queue x = s.queue x := rfl
@[simp] theorem State.port_setFull (s : State) (k : Nat) (f : Bool) (x : Nat) : (s.setFull k f).port x = s.port x := rfl
@[simp] theorem State.island_setFull (s : State) (k : Nat) (f : Bool) (x : Nat) : (s.setFull k f).island x = s.island x := rfl
@[simp] theorem State.group_setFull (s : State) (k : Nat) (f : Bool) (x : Nat) : (s.setFull k f).group x = s.group x := rfl
@[simp] theorem State.protEntry_setFull (s : State) (k : Nat) (f : Bool) (x : Nat) : (s.setFull k f).protEntry x = s.protEntry x := rfl
@[simp] theorem State.op_setFull (s : State) (k : Nat) (f : Bool) (x : Nat) : (s.setFull k f).op x = s.op x := rfl
@[simp] theorem State.bank_setFull (s : State) (k : Nat) (f : Bool) (x : Nat) : (s.setFull k f).bank x = s.bank x := rfl
@[simp] theorem State.waiting_setFull (s : State) (k : Nat) (f : Bool) (x : Nat) : (s.setFull k f).waiting x = s.waiting x := rfl
@[simp] theorem State.parkedAt_setFull (s : State) (k : Nat) (f : Bool) (x : Nat) : (s.setFull k f).parkedAt x = s.parkedAt x := rfl
@[simp] theorem State.stageOf_setFull (s : State) (k : Nat) (f : Bool) (x : Nat) : (s.setFull k f).stageOf x = s.stageOf x := rfl

/-! ## `State.setBank` -/

theorem State.setBank_banks (s : State) (k : Nat) (c : BankSt) : (s.setBank k c).banks = SMap.putD s.banks k c .on := rfl
@[simp] theorem State.setBank_regs (s : State) (k : Nat) (c : BankSt) : (s.setBank k c).regs = s.regs := rfl
@[simp] theorem State.setBank_shad (s : State) (k : Nat) (c : BankSt) : (s.setBank k c).shad = s.shad := rfl
@[simp] theorem State.setBank_store (s : State) (k : Nat) (c : BankSt) : (s.setBank k c).store = s.store := rfl
@[simp] theorem State.setBank_full (s : State) (k : Nat) (c : BankSt) : (s.setBank k c).full = s.full := rfl
@[simp] theorem State.setBank_moved (s : State) (k : Nat) (c : BankSt) : (s.setBank k c).moved = s.moved := rfl
@[simp] theorem State.setBank_xbar (s : State) (k : Nat) (c : BankSt) : (s.setBank k c).xbar = s.xbar := rfl
@[simp] theorem State.setBank_parked (s : State) (k : Nat) (c : BankSt) : (s.setBank k c).parked = s.parked := rfl
@[simp] theorem State.setBank_closing (s : State) (k : Nat) (c : BankSt) : (s.setBank k c).closing = s.closing := rfl
@[simp] theorem State.setBank_owners (s : State) (k : Nat) (c : BankSt) : (s.setBank k c).owners = s.owners := rfl
@[simp] theorem State.setBank_endedOwners (s : State) (k : Nat) (c : BankSt) : (s.setBank k c).endedOwners = s.endedOwners := rfl
@[simp] theorem State.setBank_stage (s : State) (k : Nat) (c : BankSt) : (s.setBank k c).stage = s.stage := rfl
@[simp] theorem State.setBank_cores (s : State) (k : Nat) (c : BankSt) : (s.setBank k c).cores = s.cores := rfl
@[simp] theorem State.setBank_islands (s : State) (k : Nat) (c : BankSt) : (s.setBank k c).islands = s.islands := rfl
@[simp] theorem State.setBank_queues (s : State) (k : Nat) (c : BankSt) : (s.setBank k c).queues = s.queues := rfl
@[simp] theorem State.setBank_ops (s : State) (k : Nat) (c : BankSt) : (s.setBank k c).ops = s.ops := rfl
@[simp] theorem State.setBank_nextOp (s : State) (k : Nat) (c : BankSt) : (s.setBank k c).nextOp = s.nextOp := rfl
@[simp] theorem State.setBank_ports (s : State) (k : Nat) (c : BankSt) : (s.setBank k c).ports = s.ports := rfl
@[simp] theorem State.setBank_out (s : State) (k : Nat) (c : BankSt) : (s.setBank k c).out = s.out := rfl
@[simp] theorem State.setBank_outst (s : State) (k : Nat) (c : BankSt) : (s.setBank k c).outst = s.outst := rfl
@[simp] theorem State.setBank_vecBusy (s : State) (k : Nat) (c : BankSt) : (s.setBank k c).vecBusy = s.vecBusy := rfl
@[simp] theorem State.setBank_prot (s : State) (k : Nat) (c : BankSt) : (s.setBank k c).prot = s.prot := rfl
@[simp] theorem State.setBank_groups (s : State) (k : Nat) (c : BankSt) : (s.setBank k c).groups = s.groups := rfl
@[simp] theorem State.setBank_time (s : State) (k : Nat) (c : BankSt) : (s.setBank k c).time = s.time := rfl
@[simp] theorem State.setBank_sb (s : State) (k : Nat) (c : BankSt) : (s.setBank k c).sb = s.sb := rfl
@[simp] theorem State.setBank_fuses (s : State) (k : Nat) (c : BankSt) : (s.setBank k c).fuses = s.fuses := rfl
@[simp] theorem State.setBank_sec (s : State) (k : Nat) (c : BankSt) : (s.setBank k c).sec = s.sec := rfl
@[simp] theorem State.setBank_audit (s : State) (k : Nat) (c : BankSt) : (s.setBank k c).audit = s.audit := rfl
@[simp] theorem State.setBank_latched (s : State) (k : Nat) (c : BankSt) : (s.setBank k c).latched = s.latched := rfl
@[simp] theorem State.setBank_securing (s : State) (k : Nat) (c : BankSt) : (s.setBank k c).securing = s.securing := rfl
@[simp] theorem State.setBank_power (s : State) (k : Nat) (c : BankSt) : (s.setBank k c).power = s.power := rfl
@[simp] theorem State.setBank_therm (s : State) (k : Nat) (c : BankSt) : (s.setBank k c).therm = s.therm := rfl
@[simp] theorem State.setBank_health (s : State) (k : Nat) (c : BankSt) : (s.setBank k c).health = s.health := rfl
@[simp] theorem State.setBank_replay (s : State) (k : Nat) (c : BankSt) : (s.setBank k c).replay = s.replay := rfl
@[simp] theorem State.setBank_journal (s : State) (k : Nat) (c : BankSt) : (s.setBank k c).journal = s.journal := rfl
@[simp] theorem State.setBank_jfloor (s : State) (k : Nat) (c : BankSt) : (s.setBank k c).jfloor = s.jfloor := rfl
@[simp] theorem State.setBank_images (s : State) (k : Nat) (c : BankSt) : (s.setBank k c).images = s.images := rfl
@[simp] theorem State.setBank_recovery (s : State) (k : Nat) (c : BankSt) : (s.setBank k c).recovery = s.recovery := rfl
@[simp] theorem State.setBank_mute (s : State) (k : Nat) (c : BankSt) : (s.setBank k c).mute = s.mute := rfl
@[simp] theorem State.setBank_stopped (s : State) (k : Nat) (c : BankSt) : (s.setBank k c).stopped = s.stopped := rfl
@[simp] theorem State.setBank_shut (s : State) (k : Nat) (c : BankSt) : (s.setBank k c).shut = s.shut := rfl
@[simp] theorem State.setBank_shutResult (s : State) (k : Nat) (c : BankSt) : (s.setBank k c).shutResult = s.shutResult := rfl
@[simp] theorem State.setBank_commitHold (s : State) (k : Nat) (c : BankSt) : (s.setBank k c).commitHold = s.commitHold := rfl
@[simp] theorem State.setBank_injected (s : State) (k : Nat) (c : BankSt) : (s.setBank k c).injected = s.injected := rfl
@[simp] theorem State.setBank_turn (s : State) (k : Nat) (c : BankSt) : (s.setBank k c).turn = s.turn := rfl
@[simp] theorem State.setBank_free (s : State) (k : Nat) (c : BankSt) : (s.setBank k c).free = s.free := rfl
@[simp] theorem State.setBank_pending (s : State) (k : Nat) (c : BankSt) : (s.setBank k c).pending = s.pending := rfl
@[simp] theorem State.reg_setBank (s : State) (k : Nat) (c : BankSt) (x : Nat) : (s.setBank k c).reg x = s.reg x := rfl
@[simp] theorem State.shadow_setBank (s : State) (k : Nat) (c : BankSt) (x : Nat) : (s.setBank k c).shadow x = s.shadow x := rfl
@[simp] theorem State.core_setBank (s : State) (k : Nat) (c : BankSt) (x : Nat) : (s.setBank k c).core x = s.core x := rfl
@[simp] theorem State.queue_setBank (s : State) (k : Nat) (c : BankSt) (x : Nat) : (s.setBank k c).queue x = s.queue x := rfl
@[simp] theorem State.port_setBank (s : State) (k : Nat) (c : BankSt) (x : Nat) : (s.setBank k c).port x = s.port x := rfl
@[simp] theorem State.island_setBank (s : State) (k : Nat) (c : BankSt) (x : Nat) : (s.setBank k c).island x = s.island x := rfl
@[simp] theorem State.group_setBank (s : State) (k : Nat) (c : BankSt) (x : Nat) : (s.setBank k c).group x = s.group x := rfl
@[simp] theorem State.protEntry_setBank (s : State) (k : Nat) (c : BankSt) (x : Nat) : (s.setBank k c).protEntry x = s.protEntry x := rfl
@[simp] theorem State.op_setBank (s : State) (k : Nat) (c : BankSt) (x : Nat) : (s.setBank k c).op x = s.op x := rfl
@[simp] theorem State.isFull_setBank (s : State) (k : Nat) (c : BankSt) (x : Nat) : (s.setBank k c).isFull x = s.isFull x := rfl
@[simp] theorem State.waiting_setBank (s : State) (k : Nat) (c : BankSt) (x : Nat) : (s.setBank k c).waiting x = s.waiting x := rfl
@[simp] theorem State.parkedAt_setBank (s : State) (k : Nat) (c : BankSt) (x : Nat) : (s.setBank k c).parkedAt x = s.parkedAt x := rfl
@[simp] theorem State.stageOf_setBank (s : State) (k : Nat) (c : BankSt) (x : Nat) : (s.setBank k c).stageOf x = s.stageOf x := rfl

/-! ## `State.setWaiting` -/

theorem State.setWaiting_xbar (s : State) (k : Nat) (l : List BankAcc) : (s.setWaiting k l).xbar = SMap.putD s.xbar k l [] := rfl
@[simp] theorem State.setWaiting_regs (s : State) (k : Nat) (l : List BankAcc) : (s.setWaiting k l).regs = s.regs := rfl
@[simp] theorem State.setWaiting_shad (s : State) (k : Nat) (l : List BankAcc) : (s.setWaiting k l).shad = s.shad := rfl
@[simp] theorem State.setWaiting_store (s : State) (k : Nat) (l : List BankAcc) : (s.setWaiting k l).store = s.store := rfl
@[simp] theorem State.setWaiting_full (s : State) (k : Nat) (l : List BankAcc) : (s.setWaiting k l).full = s.full := rfl
@[simp] theorem State.setWaiting_moved (s : State) (k : Nat) (l : List BankAcc) : (s.setWaiting k l).moved = s.moved := rfl
@[simp] theorem State.setWaiting_banks (s : State) (k : Nat) (l : List BankAcc) : (s.setWaiting k l).banks = s.banks := rfl
@[simp] theorem State.setWaiting_parked (s : State) (k : Nat) (l : List BankAcc) : (s.setWaiting k l).parked = s.parked := rfl
@[simp] theorem State.setWaiting_closing (s : State) (k : Nat) (l : List BankAcc) : (s.setWaiting k l).closing = s.closing := rfl
@[simp] theorem State.setWaiting_owners (s : State) (k : Nat) (l : List BankAcc) : (s.setWaiting k l).owners = s.owners := rfl
@[simp] theorem State.setWaiting_endedOwners (s : State) (k : Nat) (l : List BankAcc) : (s.setWaiting k l).endedOwners = s.endedOwners := rfl
@[simp] theorem State.setWaiting_stage (s : State) (k : Nat) (l : List BankAcc) : (s.setWaiting k l).stage = s.stage := rfl
@[simp] theorem State.setWaiting_cores (s : State) (k : Nat) (l : List BankAcc) : (s.setWaiting k l).cores = s.cores := rfl
@[simp] theorem State.setWaiting_islands (s : State) (k : Nat) (l : List BankAcc) : (s.setWaiting k l).islands = s.islands := rfl
@[simp] theorem State.setWaiting_queues (s : State) (k : Nat) (l : List BankAcc) : (s.setWaiting k l).queues = s.queues := rfl
@[simp] theorem State.setWaiting_ops (s : State) (k : Nat) (l : List BankAcc) : (s.setWaiting k l).ops = s.ops := rfl
@[simp] theorem State.setWaiting_nextOp (s : State) (k : Nat) (l : List BankAcc) : (s.setWaiting k l).nextOp = s.nextOp := rfl
@[simp] theorem State.setWaiting_ports (s : State) (k : Nat) (l : List BankAcc) : (s.setWaiting k l).ports = s.ports := rfl
@[simp] theorem State.setWaiting_out (s : State) (k : Nat) (l : List BankAcc) : (s.setWaiting k l).out = s.out := rfl
@[simp] theorem State.setWaiting_outst (s : State) (k : Nat) (l : List BankAcc) : (s.setWaiting k l).outst = s.outst := rfl
@[simp] theorem State.setWaiting_vecBusy (s : State) (k : Nat) (l : List BankAcc) : (s.setWaiting k l).vecBusy = s.vecBusy := rfl
@[simp] theorem State.setWaiting_prot (s : State) (k : Nat) (l : List BankAcc) : (s.setWaiting k l).prot = s.prot := rfl
@[simp] theorem State.setWaiting_groups (s : State) (k : Nat) (l : List BankAcc) : (s.setWaiting k l).groups = s.groups := rfl
@[simp] theorem State.setWaiting_time (s : State) (k : Nat) (l : List BankAcc) : (s.setWaiting k l).time = s.time := rfl
@[simp] theorem State.setWaiting_sb (s : State) (k : Nat) (l : List BankAcc) : (s.setWaiting k l).sb = s.sb := rfl
@[simp] theorem State.setWaiting_fuses (s : State) (k : Nat) (l : List BankAcc) : (s.setWaiting k l).fuses = s.fuses := rfl
@[simp] theorem State.setWaiting_sec (s : State) (k : Nat) (l : List BankAcc) : (s.setWaiting k l).sec = s.sec := rfl
@[simp] theorem State.setWaiting_audit (s : State) (k : Nat) (l : List BankAcc) : (s.setWaiting k l).audit = s.audit := rfl
@[simp] theorem State.setWaiting_latched (s : State) (k : Nat) (l : List BankAcc) : (s.setWaiting k l).latched = s.latched := rfl
@[simp] theorem State.setWaiting_securing (s : State) (k : Nat) (l : List BankAcc) : (s.setWaiting k l).securing = s.securing := rfl
@[simp] theorem State.setWaiting_power (s : State) (k : Nat) (l : List BankAcc) : (s.setWaiting k l).power = s.power := rfl
@[simp] theorem State.setWaiting_therm (s : State) (k : Nat) (l : List BankAcc) : (s.setWaiting k l).therm = s.therm := rfl
@[simp] theorem State.setWaiting_health (s : State) (k : Nat) (l : List BankAcc) : (s.setWaiting k l).health = s.health := rfl
@[simp] theorem State.setWaiting_replay (s : State) (k : Nat) (l : List BankAcc) : (s.setWaiting k l).replay = s.replay := rfl
@[simp] theorem State.setWaiting_journal (s : State) (k : Nat) (l : List BankAcc) : (s.setWaiting k l).journal = s.journal := rfl
@[simp] theorem State.setWaiting_jfloor (s : State) (k : Nat) (l : List BankAcc) : (s.setWaiting k l).jfloor = s.jfloor := rfl
@[simp] theorem State.setWaiting_images (s : State) (k : Nat) (l : List BankAcc) : (s.setWaiting k l).images = s.images := rfl
@[simp] theorem State.setWaiting_recovery (s : State) (k : Nat) (l : List BankAcc) : (s.setWaiting k l).recovery = s.recovery := rfl
@[simp] theorem State.setWaiting_mute (s : State) (k : Nat) (l : List BankAcc) : (s.setWaiting k l).mute = s.mute := rfl
@[simp] theorem State.setWaiting_stopped (s : State) (k : Nat) (l : List BankAcc) : (s.setWaiting k l).stopped = s.stopped := rfl
@[simp] theorem State.setWaiting_shut (s : State) (k : Nat) (l : List BankAcc) : (s.setWaiting k l).shut = s.shut := rfl
@[simp] theorem State.setWaiting_shutResult (s : State) (k : Nat) (l : List BankAcc) : (s.setWaiting k l).shutResult = s.shutResult := rfl
@[simp] theorem State.setWaiting_commitHold (s : State) (k : Nat) (l : List BankAcc) : (s.setWaiting k l).commitHold = s.commitHold := rfl
@[simp] theorem State.setWaiting_injected (s : State) (k : Nat) (l : List BankAcc) : (s.setWaiting k l).injected = s.injected := rfl
@[simp] theorem State.setWaiting_turn (s : State) (k : Nat) (l : List BankAcc) : (s.setWaiting k l).turn = s.turn := rfl
@[simp] theorem State.setWaiting_free (s : State) (k : Nat) (l : List BankAcc) : (s.setWaiting k l).free = s.free := rfl
@[simp] theorem State.setWaiting_pending (s : State) (k : Nat) (l : List BankAcc) : (s.setWaiting k l).pending = s.pending := rfl
@[simp] theorem State.reg_setWaiting (s : State) (k : Nat) (l : List BankAcc) (x : Nat) : (s.setWaiting k l).reg x = s.reg x := rfl
@[simp] theorem State.shadow_setWaiting (s : State) (k : Nat) (l : List BankAcc) (x : Nat) : (s.setWaiting k l).shadow x = s.shadow x := rfl
@[simp] theorem State.core_setWaiting (s : State) (k : Nat) (l : List BankAcc) (x : Nat) : (s.setWaiting k l).core x = s.core x := rfl
@[simp] theorem State.queue_setWaiting (s : State) (k : Nat) (l : List BankAcc) (x : Nat) : (s.setWaiting k l).queue x = s.queue x := rfl
@[simp] theorem State.port_setWaiting (s : State) (k : Nat) (l : List BankAcc) (x : Nat) : (s.setWaiting k l).port x = s.port x := rfl
@[simp] theorem State.island_setWaiting (s : State) (k : Nat) (l : List BankAcc) (x : Nat) : (s.setWaiting k l).island x = s.island x := rfl
@[simp] theorem State.group_setWaiting (s : State) (k : Nat) (l : List BankAcc) (x : Nat) : (s.setWaiting k l).group x = s.group x := rfl
@[simp] theorem State.protEntry_setWaiting (s : State) (k : Nat) (l : List BankAcc) (x : Nat) : (s.setWaiting k l).protEntry x = s.protEntry x := rfl
@[simp] theorem State.op_setWaiting (s : State) (k : Nat) (l : List BankAcc) (x : Nat) : (s.setWaiting k l).op x = s.op x := rfl
@[simp] theorem State.isFull_setWaiting (s : State) (k : Nat) (l : List BankAcc) (x : Nat) : (s.setWaiting k l).isFull x = s.isFull x := rfl
@[simp] theorem State.bank_setWaiting (s : State) (k : Nat) (l : List BankAcc) (x : Nat) : (s.setWaiting k l).bank x = s.bank x := rfl
@[simp] theorem State.parkedAt_setWaiting (s : State) (k : Nat) (l : List BankAcc) (x : Nat) : (s.setWaiting k l).parkedAt x = s.parkedAt x := rfl
@[simp] theorem State.stageOf_setWaiting (s : State) (k : Nat) (l : List BankAcc) (x : Nat) : (s.setWaiting k l).stageOf x = s.stageOf x := rfl

/-! ## `State.setParked` -/

theorem State.setParked_parked (s : State) (k : Nat) (l : List BankAcc) : (s.setParked k l).parked = SMap.putD s.parked k l [] := rfl
@[simp] theorem State.setParked_regs (s : State) (k : Nat) (l : List BankAcc) : (s.setParked k l).regs = s.regs := rfl
@[simp] theorem State.setParked_shad (s : State) (k : Nat) (l : List BankAcc) : (s.setParked k l).shad = s.shad := rfl
@[simp] theorem State.setParked_store (s : State) (k : Nat) (l : List BankAcc) : (s.setParked k l).store = s.store := rfl
@[simp] theorem State.setParked_full (s : State) (k : Nat) (l : List BankAcc) : (s.setParked k l).full = s.full := rfl
@[simp] theorem State.setParked_moved (s : State) (k : Nat) (l : List BankAcc) : (s.setParked k l).moved = s.moved := rfl
@[simp] theorem State.setParked_banks (s : State) (k : Nat) (l : List BankAcc) : (s.setParked k l).banks = s.banks := rfl
@[simp] theorem State.setParked_xbar (s : State) (k : Nat) (l : List BankAcc) : (s.setParked k l).xbar = s.xbar := rfl
@[simp] theorem State.setParked_closing (s : State) (k : Nat) (l : List BankAcc) : (s.setParked k l).closing = s.closing := rfl
@[simp] theorem State.setParked_owners (s : State) (k : Nat) (l : List BankAcc) : (s.setParked k l).owners = s.owners := rfl
@[simp] theorem State.setParked_endedOwners (s : State) (k : Nat) (l : List BankAcc) : (s.setParked k l).endedOwners = s.endedOwners := rfl
@[simp] theorem State.setParked_stage (s : State) (k : Nat) (l : List BankAcc) : (s.setParked k l).stage = s.stage := rfl
@[simp] theorem State.setParked_cores (s : State) (k : Nat) (l : List BankAcc) : (s.setParked k l).cores = s.cores := rfl
@[simp] theorem State.setParked_islands (s : State) (k : Nat) (l : List BankAcc) : (s.setParked k l).islands = s.islands := rfl
@[simp] theorem State.setParked_queues (s : State) (k : Nat) (l : List BankAcc) : (s.setParked k l).queues = s.queues := rfl
@[simp] theorem State.setParked_ops (s : State) (k : Nat) (l : List BankAcc) : (s.setParked k l).ops = s.ops := rfl
@[simp] theorem State.setParked_nextOp (s : State) (k : Nat) (l : List BankAcc) : (s.setParked k l).nextOp = s.nextOp := rfl
@[simp] theorem State.setParked_ports (s : State) (k : Nat) (l : List BankAcc) : (s.setParked k l).ports = s.ports := rfl
@[simp] theorem State.setParked_out (s : State) (k : Nat) (l : List BankAcc) : (s.setParked k l).out = s.out := rfl
@[simp] theorem State.setParked_outst (s : State) (k : Nat) (l : List BankAcc) : (s.setParked k l).outst = s.outst := rfl
@[simp] theorem State.setParked_vecBusy (s : State) (k : Nat) (l : List BankAcc) : (s.setParked k l).vecBusy = s.vecBusy := rfl
@[simp] theorem State.setParked_prot (s : State) (k : Nat) (l : List BankAcc) : (s.setParked k l).prot = s.prot := rfl
@[simp] theorem State.setParked_groups (s : State) (k : Nat) (l : List BankAcc) : (s.setParked k l).groups = s.groups := rfl
@[simp] theorem State.setParked_time (s : State) (k : Nat) (l : List BankAcc) : (s.setParked k l).time = s.time := rfl
@[simp] theorem State.setParked_sb (s : State) (k : Nat) (l : List BankAcc) : (s.setParked k l).sb = s.sb := rfl
@[simp] theorem State.setParked_fuses (s : State) (k : Nat) (l : List BankAcc) : (s.setParked k l).fuses = s.fuses := rfl
@[simp] theorem State.setParked_sec (s : State) (k : Nat) (l : List BankAcc) : (s.setParked k l).sec = s.sec := rfl
@[simp] theorem State.setParked_audit (s : State) (k : Nat) (l : List BankAcc) : (s.setParked k l).audit = s.audit := rfl
@[simp] theorem State.setParked_latched (s : State) (k : Nat) (l : List BankAcc) : (s.setParked k l).latched = s.latched := rfl
@[simp] theorem State.setParked_securing (s : State) (k : Nat) (l : List BankAcc) : (s.setParked k l).securing = s.securing := rfl
@[simp] theorem State.setParked_power (s : State) (k : Nat) (l : List BankAcc) : (s.setParked k l).power = s.power := rfl
@[simp] theorem State.setParked_therm (s : State) (k : Nat) (l : List BankAcc) : (s.setParked k l).therm = s.therm := rfl
@[simp] theorem State.setParked_health (s : State) (k : Nat) (l : List BankAcc) : (s.setParked k l).health = s.health := rfl
@[simp] theorem State.setParked_replay (s : State) (k : Nat) (l : List BankAcc) : (s.setParked k l).replay = s.replay := rfl
@[simp] theorem State.setParked_journal (s : State) (k : Nat) (l : List BankAcc) : (s.setParked k l).journal = s.journal := rfl
@[simp] theorem State.setParked_jfloor (s : State) (k : Nat) (l : List BankAcc) : (s.setParked k l).jfloor = s.jfloor := rfl
@[simp] theorem State.setParked_images (s : State) (k : Nat) (l : List BankAcc) : (s.setParked k l).images = s.images := rfl
@[simp] theorem State.setParked_recovery (s : State) (k : Nat) (l : List BankAcc) : (s.setParked k l).recovery = s.recovery := rfl
@[simp] theorem State.setParked_mute (s : State) (k : Nat) (l : List BankAcc) : (s.setParked k l).mute = s.mute := rfl
@[simp] theorem State.setParked_stopped (s : State) (k : Nat) (l : List BankAcc) : (s.setParked k l).stopped = s.stopped := rfl
@[simp] theorem State.setParked_shut (s : State) (k : Nat) (l : List BankAcc) : (s.setParked k l).shut = s.shut := rfl
@[simp] theorem State.setParked_shutResult (s : State) (k : Nat) (l : List BankAcc) : (s.setParked k l).shutResult = s.shutResult := rfl
@[simp] theorem State.setParked_commitHold (s : State) (k : Nat) (l : List BankAcc) : (s.setParked k l).commitHold = s.commitHold := rfl
@[simp] theorem State.setParked_injected (s : State) (k : Nat) (l : List BankAcc) : (s.setParked k l).injected = s.injected := rfl
@[simp] theorem State.setParked_turn (s : State) (k : Nat) (l : List BankAcc) : (s.setParked k l).turn = s.turn := rfl
@[simp] theorem State.setParked_free (s : State) (k : Nat) (l : List BankAcc) : (s.setParked k l).free = s.free := rfl
@[simp] theorem State.setParked_pending (s : State) (k : Nat) (l : List BankAcc) : (s.setParked k l).pending = s.pending := rfl
@[simp] theorem State.reg_setParked (s : State) (k : Nat) (l : List BankAcc) (x : Nat) : (s.setParked k l).reg x = s.reg x := rfl
@[simp] theorem State.shadow_setParked (s : State) (k : Nat) (l : List BankAcc) (x : Nat) : (s.setParked k l).shadow x = s.shadow x := rfl
@[simp] theorem State.core_setParked (s : State) (k : Nat) (l : List BankAcc) (x : Nat) : (s.setParked k l).core x = s.core x := rfl
@[simp] theorem State.queue_setParked (s : State) (k : Nat) (l : List BankAcc) (x : Nat) : (s.setParked k l).queue x = s.queue x := rfl
@[simp] theorem State.port_setParked (s : State) (k : Nat) (l : List BankAcc) (x : Nat) : (s.setParked k l).port x = s.port x := rfl
@[simp] theorem State.island_setParked (s : State) (k : Nat) (l : List BankAcc) (x : Nat) : (s.setParked k l).island x = s.island x := rfl
@[simp] theorem State.group_setParked (s : State) (k : Nat) (l : List BankAcc) (x : Nat) : (s.setParked k l).group x = s.group x := rfl
@[simp] theorem State.protEntry_setParked (s : State) (k : Nat) (l : List BankAcc) (x : Nat) : (s.setParked k l).protEntry x = s.protEntry x := rfl
@[simp] theorem State.op_setParked (s : State) (k : Nat) (l : List BankAcc) (x : Nat) : (s.setParked k l).op x = s.op x := rfl
@[simp] theorem State.isFull_setParked (s : State) (k : Nat) (l : List BankAcc) (x : Nat) : (s.setParked k l).isFull x = s.isFull x := rfl
@[simp] theorem State.bank_setParked (s : State) (k : Nat) (l : List BankAcc) (x : Nat) : (s.setParked k l).bank x = s.bank x := rfl
@[simp] theorem State.waiting_setParked (s : State) (k : Nat) (l : List BankAcc) (x : Nat) : (s.setParked k l).waiting x = s.waiting x := rfl
@[simp] theorem State.stageOf_setParked (s : State) (k : Nat) (l : List BankAcc) (x : Nat) : (s.setParked k l).stageOf x = s.stageOf x := rfl

/-! ## `State.setStage` -/

theorem State.setStage_stage (s : State) (k : Nat) (v : Staging) : (s.setStage k v).stage = SMap.putD s.stage k v Staging.empty := rfl
@[simp] theorem State.setStage_regs (s : State) (k : Nat) (v : Staging) : (s.setStage k v).regs = s.regs := rfl
@[simp] theorem State.setStage_shad (s : State) (k : Nat) (v : Staging) : (s.setStage k v).shad = s.shad := rfl
@[simp] theorem State.setStage_store (s : State) (k : Nat) (v : Staging) : (s.setStage k v).store = s.store := rfl
@[simp] theorem State.setStage_full (s : State) (k : Nat) (v : Staging) : (s.setStage k v).full = s.full := rfl
@[simp] theorem State.setStage_moved (s : State) (k : Nat) (v : Staging) : (s.setStage k v).moved = s.moved := rfl
@[simp] theorem State.setStage_banks (s : State) (k : Nat) (v : Staging) : (s.setStage k v).banks = s.banks := rfl
@[simp] theorem State.setStage_xbar (s : State) (k : Nat) (v : Staging) : (s.setStage k v).xbar = s.xbar := rfl
@[simp] theorem State.setStage_parked (s : State) (k : Nat) (v : Staging) : (s.setStage k v).parked = s.parked := rfl
@[simp] theorem State.setStage_closing (s : State) (k : Nat) (v : Staging) : (s.setStage k v).closing = s.closing := rfl
@[simp] theorem State.setStage_owners (s : State) (k : Nat) (v : Staging) : (s.setStage k v).owners = s.owners := rfl
@[simp] theorem State.setStage_endedOwners (s : State) (k : Nat) (v : Staging) : (s.setStage k v).endedOwners = s.endedOwners := rfl
@[simp] theorem State.setStage_cores (s : State) (k : Nat) (v : Staging) : (s.setStage k v).cores = s.cores := rfl
@[simp] theorem State.setStage_islands (s : State) (k : Nat) (v : Staging) : (s.setStage k v).islands = s.islands := rfl
@[simp] theorem State.setStage_queues (s : State) (k : Nat) (v : Staging) : (s.setStage k v).queues = s.queues := rfl
@[simp] theorem State.setStage_ops (s : State) (k : Nat) (v : Staging) : (s.setStage k v).ops = s.ops := rfl
@[simp] theorem State.setStage_nextOp (s : State) (k : Nat) (v : Staging) : (s.setStage k v).nextOp = s.nextOp := rfl
@[simp] theorem State.setStage_ports (s : State) (k : Nat) (v : Staging) : (s.setStage k v).ports = s.ports := rfl
@[simp] theorem State.setStage_out (s : State) (k : Nat) (v : Staging) : (s.setStage k v).out = s.out := rfl
@[simp] theorem State.setStage_outst (s : State) (k : Nat) (v : Staging) : (s.setStage k v).outst = s.outst := rfl
@[simp] theorem State.setStage_vecBusy (s : State) (k : Nat) (v : Staging) : (s.setStage k v).vecBusy = s.vecBusy := rfl
@[simp] theorem State.setStage_prot (s : State) (k : Nat) (v : Staging) : (s.setStage k v).prot = s.prot := rfl
@[simp] theorem State.setStage_groups (s : State) (k : Nat) (v : Staging) : (s.setStage k v).groups = s.groups := rfl
@[simp] theorem State.setStage_time (s : State) (k : Nat) (v : Staging) : (s.setStage k v).time = s.time := rfl
@[simp] theorem State.setStage_sb (s : State) (k : Nat) (v : Staging) : (s.setStage k v).sb = s.sb := rfl
@[simp] theorem State.setStage_fuses (s : State) (k : Nat) (v : Staging) : (s.setStage k v).fuses = s.fuses := rfl
@[simp] theorem State.setStage_sec (s : State) (k : Nat) (v : Staging) : (s.setStage k v).sec = s.sec := rfl
@[simp] theorem State.setStage_audit (s : State) (k : Nat) (v : Staging) : (s.setStage k v).audit = s.audit := rfl
@[simp] theorem State.setStage_latched (s : State) (k : Nat) (v : Staging) : (s.setStage k v).latched = s.latched := rfl
@[simp] theorem State.setStage_securing (s : State) (k : Nat) (v : Staging) : (s.setStage k v).securing = s.securing := rfl
@[simp] theorem State.setStage_power (s : State) (k : Nat) (v : Staging) : (s.setStage k v).power = s.power := rfl
@[simp] theorem State.setStage_therm (s : State) (k : Nat) (v : Staging) : (s.setStage k v).therm = s.therm := rfl
@[simp] theorem State.setStage_health (s : State) (k : Nat) (v : Staging) : (s.setStage k v).health = s.health := rfl
@[simp] theorem State.setStage_replay (s : State) (k : Nat) (v : Staging) : (s.setStage k v).replay = s.replay := rfl
@[simp] theorem State.setStage_journal (s : State) (k : Nat) (v : Staging) : (s.setStage k v).journal = s.journal := rfl
@[simp] theorem State.setStage_jfloor (s : State) (k : Nat) (v : Staging) : (s.setStage k v).jfloor = s.jfloor := rfl
@[simp] theorem State.setStage_images (s : State) (k : Nat) (v : Staging) : (s.setStage k v).images = s.images := rfl
@[simp] theorem State.setStage_recovery (s : State) (k : Nat) (v : Staging) : (s.setStage k v).recovery = s.recovery := rfl
@[simp] theorem State.setStage_mute (s : State) (k : Nat) (v : Staging) : (s.setStage k v).mute = s.mute := rfl
@[simp] theorem State.setStage_stopped (s : State) (k : Nat) (v : Staging) : (s.setStage k v).stopped = s.stopped := rfl
@[simp] theorem State.setStage_shut (s : State) (k : Nat) (v : Staging) : (s.setStage k v).shut = s.shut := rfl
@[simp] theorem State.setStage_shutResult (s : State) (k : Nat) (v : Staging) : (s.setStage k v).shutResult = s.shutResult := rfl
@[simp] theorem State.setStage_commitHold (s : State) (k : Nat) (v : Staging) : (s.setStage k v).commitHold = s.commitHold := rfl
@[simp] theorem State.setStage_injected (s : State) (k : Nat) (v : Staging) : (s.setStage k v).injected = s.injected := rfl
@[simp] theorem State.setStage_turn (s : State) (k : Nat) (v : Staging) : (s.setStage k v).turn = s.turn := rfl
@[simp] theorem State.setStage_free (s : State) (k : Nat) (v : Staging) : (s.setStage k v).free = s.free := rfl
@[simp] theorem State.setStage_pending (s : State) (k : Nat) (v : Staging) : (s.setStage k v).pending = s.pending := rfl
@[simp] theorem State.reg_setStage (s : State) (k : Nat) (v : Staging) (x : Nat) : (s.setStage k v).reg x = s.reg x := rfl
@[simp] theorem State.shadow_setStage (s : State) (k : Nat) (v : Staging) (x : Nat) : (s.setStage k v).shadow x = s.shadow x := rfl
@[simp] theorem State.core_setStage (s : State) (k : Nat) (v : Staging) (x : Nat) : (s.setStage k v).core x = s.core x := rfl
@[simp] theorem State.queue_setStage (s : State) (k : Nat) (v : Staging) (x : Nat) : (s.setStage k v).queue x = s.queue x := rfl
@[simp] theorem State.port_setStage (s : State) (k : Nat) (v : Staging) (x : Nat) : (s.setStage k v).port x = s.port x := rfl
@[simp] theorem State.island_setStage (s : State) (k : Nat) (v : Staging) (x : Nat) : (s.setStage k v).island x = s.island x := rfl
@[simp] theorem State.group_setStage (s : State) (k : Nat) (v : Staging) (x : Nat) : (s.setStage k v).group x = s.group x := rfl
@[simp] theorem State.protEntry_setStage (s : State) (k : Nat) (v : Staging) (x : Nat) : (s.setStage k v).protEntry x = s.protEntry x := rfl
@[simp] theorem State.op_setStage (s : State) (k : Nat) (v : Staging) (x : Nat) : (s.setStage k v).op x = s.op x := rfl
@[simp] theorem State.isFull_setStage (s : State) (k : Nat) (v : Staging) (x : Nat) : (s.setStage k v).isFull x = s.isFull x := rfl
@[simp] theorem State.bank_setStage (s : State) (k : Nat) (v : Staging) (x : Nat) : (s.setStage k v).bank x = s.bank x := rfl
@[simp] theorem State.waiting_setStage (s : State) (k : Nat) (v : Staging) (x : Nat) : (s.setStage k v).waiting x = s.waiting x := rfl
@[simp] theorem State.parkedAt_setStage (s : State) (k : Nat) (v : Staging) (x : Nat) : (s.setStage k v).parkedAt x = s.parkedAt x := rfl

/-! ## A reader after its own update -/

@[simp] theorem State.reg_setReg_same (s : State) (k : Nat) (v : Word) : (s.setReg k v).reg k = v :=
  SMap.getD_putD_same _ _ _ _

theorem State.reg_setReg_other (s : State) {k x : Nat} (v : Word) (h : x ≠ k) : (s.setReg k v).reg x = s.reg x :=
  SMap.getD_putD_other _ _ _ _ h

@[simp] theorem State.core_setCore_same (s : State) (k : Nat) (v : Core) : (s.setCore k v).core k = v :=
  SMap.getD_putD_same _ _ _ _

theorem State.core_setCore_other (s : State) {k x : Nat} (v : Core) (h : x ≠ k) : (s.setCore k v).core x = s.core x :=
  SMap.getD_putD_other _ _ _ _ h

@[simp] theorem State.queue_setQueue_same (s : State) (k : Nat) (v : Queue) : (s.setQueue k v).queue k = v :=
  SMap.getD_putD_same _ _ _ _

theorem State.queue_setQueue_other (s : State) {k x : Nat} (v : Queue) (h : x ≠ k) : (s.setQueue k v).queue x = s.queue x :=
  SMap.getD_putD_other _ _ _ _ h

@[simp] theorem State.port_setPort_same (s : State) (k : Nat) (v : Port) : (s.setPort k v).port k = v :=
  SMap.getD_putD_same _ _ _ _

theorem State.port_setPort_other (s : State) {k x : Nat} (v : Port) (h : x ≠ k) : (s.setPort k v).port x = s.port x :=
  SMap.getD_putD_other _ _ _ _ h

@[simp] theorem State.island_setIsland_same (s : State) (k : Nat) (v : Island) : (s.setIsland k v).island k = v :=
  SMap.getD_putD_same _ _ _ _

theorem State.island_setIsland_other (s : State) {k x : Nat} (v : Island) (h : x ≠ k) : (s.setIsland k v).island x = s.island x :=
  SMap.getD_putD_other _ _ _ _ h

@[simp] theorem State.group_setGroup_same (s : State) (k : Nat) (v : Group) : (s.setGroup k v).group k = v :=
  SMap.getD_putD_same _ _ _ _

theorem State.group_setGroup_other (s : State) {k x : Nat} (v : Group) (h : x ≠ k) : (s.setGroup k v).group x = s.group x :=
  SMap.getD_putD_other _ _ _ _ h

@[simp] theorem State.bank_setBank_same (s : State) (k : Nat) (v : BankSt) : (s.setBank k v).bank k = v :=
  SMap.getD_putD_same _ _ _ _

theorem State.bank_setBank_other (s : State) {k x : Nat} (v : BankSt) (h : x ≠ k) : (s.setBank k v).bank x = s.bank x :=
  SMap.getD_putD_other _ _ _ _ h

@[simp] theorem State.waiting_setWaiting_same (s : State) (k : Nat) (v : List BankAcc) : (s.setWaiting k v).waiting k = v :=
  SMap.getD_putD_same _ _ _ _

theorem State.waiting_setWaiting_other (s : State) {k x : Nat} (v : List BankAcc) (h : x ≠ k) : (s.setWaiting k v).waiting x = s.waiting x :=
  SMap.getD_putD_other _ _ _ _ h

@[simp] theorem State.parkedAt_setParked_same (s : State) (k : Nat) (v : List BankAcc) : (s.setParked k v).parkedAt k = v :=
  SMap.getD_putD_same _ _ _ _

theorem State.parkedAt_setParked_other (s : State) {k x : Nat} (v : List BankAcc) (h : x ≠ k) : (s.setParked k v).parkedAt x = s.parkedAt x :=
  SMap.getD_putD_other _ _ _ _ h

@[simp] theorem State.stageOf_setStage_same (s : State) (k : Nat) (v : Staging) : (s.setStage k v).stageOf k = v :=
  SMap.getD_putD_same _ _ _ _

theorem State.stageOf_setStage_other (s : State) {k x : Nat} (v : Staging) (h : x ≠ k) : (s.setStage k v).stageOf x = s.stageOf x :=
  SMap.getD_putD_other _ _ _ _ h

@[simp] theorem State.reg_setRegN_same (s : State) (k v : Nat) : (s.setRegN k v).reg k = w32 v :=
  s.reg_setReg_same k _

theorem State.reg_setRegN_other (s : State) {k x : Nat} (v : Nat) (h : x ≠ k) : (s.setRegN k v).reg x = s.reg x :=
  s.reg_setReg_other _ h

@[simp] theorem State.reg_setRegF_same (s : State) (k lo w v : Nat) :
    (s.setRegF k lo w v).reg k = w32 (putFld (s.regN k) lo w v) :=
  s.reg_setReg_same k _

theorem State.reg_setRegF_other (s : State) {k x : Nat} (lo w v : Nat) (h : x ≠ k) :
    (s.setRegF k lo w v).reg x = s.reg x :=
  s.reg_setReg_other _ h

@[simp] theorem State.reg_orReg_same (s : State) (k b : Nat) : (s.orReg k b).reg k = s.reg k ||| w32 b :=
  s.reg_setReg_same k _

theorem State.reg_orReg_other (s : State) {k x : Nat} (b : Nat) (h : x ≠ k) : (s.orReg k b).reg x = s.reg x :=
  s.reg_setReg_other _ h

@[simp] theorem State.reg_incReg_same (s : State) (k n : Nat) : (s.incReg k n).reg k = inc (s.reg k) n :=
  s.reg_setReg_same k _

theorem State.reg_incReg_other (s : State) {k x : Nat} (n : Nat) (h : x ≠ k) : (s.incReg k n).reg x = s.reg x :=
  s.reg_setReg_other _ h

@[simp] theorem State.shadow_setShadow_same (s : State) (k : Nat) (v : Word) : (s.setShadow k v).shadow k = v := by
  simp [State.shadow, State.setShadow]

theorem State.shadow_setShadow_other (s : State) {k x : Nat} (v : Word) (h : x ≠ k) :
    (s.setShadow k v).shadow x = s.shadow x := by
  simp only [State.shadow, State.setShadow, SMap.find_put_other _ _ h, State.reg]

end Sys2Proof.Machine
end

