-- ==== Sys2Proof/WellFormed.lean ====
section
/-!
DEFINITION. Well-formed commands: what the operands of a command may be, beyond what their types say. A command
that is not well-formed stands for nothing that can happen at the bonded face, the side-band or inside the die;
its meaning is total all the same.
-/

namespace Sys2Proof

open Machine (pageAt)

/-- The operand is the base of a page of the register space (R320, R321). -/
def pageWf (page : BitVec 28) : Bool :=
  match pageAt page.toNat with
  | some p => p.base == page.toNat
  | none => false

/-- The page has a shadow copy, and with it a commit (R347). -/
def shadowPageWf (page : BitVec 28) : Bool :=
  pageWf page && (match pageAt page.toNat with
    | some p => p.kind.hasShadow
    | none => false)

/-- A flit is 64 bytes (R275). -/
def flitWf (f : List Byte) : Bool := f.length == 64

/-- The data of a read response: at most 4 KiB in words (R284). -/
def dataWf (d : List Byte) : Bool := decide (d.length ≤ 4096) && d.length % 4 == 0

/-- A window write carries 64 bytes in a format of R49 (R246). -/
def WinWrite.wf (w : WinWrite) : Bool :=
  w.data.length == 64 && decide (1 ≤ w.fmt.toNat) && decide (w.fmt.toNat ≤ 9)

/-- The view lists addresses of package memory (R293), each once in `bytes`. -/
def HubView.wf (v : HubView) : Bool := v.bytes.all fun p => decide (p.1 < 2 ^ 52)

/-- Bonds that a port has: 33 lanes of 35 bonds (R269, R270). -/
def bondNumber (b : Nat) : Bool := decide (b / 64 < 33) && decide (b % 64 < 34)

def TrainObs.wf (o : TrainObs) : Bool := o.windows.all (fun x => bondNumber x.1) && o.samples.all fun x => bondNumber x.1

def ContObs.wf (o : ContObs) : Bool :=
  o.trains.all fun t => t.obs.wf && decide (t.ts1.length = 64) && decide (t.ts2.length = 64)

/-- Bonds and cells of the die wrapper register (R262, R305). -/
def TapScan.wf (x : TapScan) : Bool := x.bonds.all (fun c => decide (c < 78144)) && x.cells.all fun c => decide (c < 78144)

/-- Rows of banks that the die has (R467). -/
def StoreTestObs.wf (o : StoreTestObs) : Bool :=
  o.repaired.all fun p => decide (p.1 < 320 * 48) && decide (0 < p.2)

/-- Each of the 64 sensors gives a reading, or none (R385). -/
def readingsWf (l : List (Option Int)) : Bool := l.length == 64

/-- A write of a register arrives as an RGWR; only a doorbell register takes an MSG (R289). -/
def Access.write (a : Access) : Bool := !a.msg

/-- A side signal arrives as an MSG (R289). -/
def Access.signal (a : Access) : Bool := a.msg

/-- The low byte of a mailbox or service command is its code (R449, R461). -/
def codeWf (code : Nat) (v : Word) : Bool := v.toNat % 256 == code

/-- Codes of side signals without a row of their own: software codes, and reserved codes (R289). -/
def signalCodeWf (c : Byte) : Bool :=
  !(([0x01, 0x02, 0x03, 0x04, 0x10, 0x11, 0x12, 0x13, 0x14] : List Nat).contains c.toNat)

/-- The self-test names one of the tests of R446. -/
def SelfTestResult.wf : SelfTestResult → Bool
  | .pass => true
  | .fail n => decide (n < 16)
  | .entropy n => decide (n < 2)

/-- Well-formedness, one arm per command. -/
def Instr.wf : Instr → Bool
  | .matmul _ view => view.wf
  | .conv _ view => view.wf
  | .batched _ view => view.wf
  | .elementwise _ view => view.wf
  | .move _ view => view.wf
  | .windowWrite _ view => view.wf
  | .waitCount _ view => view.wf
  | .signal _ view => view.wf
  | .fence _ view => view.wf
  | .secureState _ view => view.wf
  | .journalMark _ view => view.wf
  | .restoreCheck _ view => view.wf
  | .scrub _ view => view.wf
  | .descriptorRead _ => true
  | .operationCompletion _ => true
  | .feederFetch _ _ _ _ _ => true
  | .passStart _ => true
  | .blockPromotion _ => true
  | .tileComplete _ => true
  | .slugEnqueue _ => true
  | .slugDrain _ _ => true
  | .tileBufferFill _ _ _ => true
  | .recastWrite _ => true
  | .slugCommit _ => true
  | .bankAccess _ _ _ _ => true
  | .parkedAccessServe _ _ => true
  | .tagTimeout _ _ _ => true
  | .bankWakeDone _ _ => true
  | .bankKeepReturn _ _ => true
  | .closeTimeout _ _ => true
  | .patrolScrub _ _ _ _ => true
  | .windowCloseComplete _ _ => true
  | .waitCountTimeout _ => true
  | .winOpen a _ _ _ => a.write
  | .tagReset a _ _ => a.write
  | .wwr w => w.wf
  | .wwa w => w.wf
  | .rdr _ _ _ data => dataWf data
  | .atr _ _ _ data => data.length == 8 || data.length == 0
  | .wack _ _ _ => true
  | .mack _ _ _ => true
  | .flack _ _ _ => true
  | .huberr _ hdr => hdr.w0.toNat % 256 == 0x3A
  | .headerFlitReceive _ _ flit _ => flitWf flit
  | .replayRequest _ _ => true
  | .portTrainingStart _ => true
  | .trainingStateEnd _ obs => obs.wf
  | .tsFlitReceive _ _ flit _ => flitWf flit
  | .pwakeIRise _ => true
  | .strobeLoss _ _ => true
  | .rgwr _ off _ => off.toNat % 4 == 0
  | .dbTailWrite _ _ _ => true
  | .cplHeadWrite _ _ _ => true
  | .ringLoWrite a _ _ => a.write
  | .cplLoWrite a _ _ => a.write
  | .queueEnable a _ _ => a.write
  | .resume a _ _ => a.write
  | .intStatusWrite a page _ => a.write && pageWf page
  | .intEnableWrite a page _ => a.write && pageWf page
  | .intvCtrlWrite a _ _ => a.write
  | .errCauseClear a page _ => a.write && pageWf page
  | .fxStatusClear a _ _ => a.write
  | .rescueLogClear a _ _ => a.write
  | .pageCommit a page _ => a.write && shadowPageWf page
  | .shadowDiscard a page _ => a.write && shadowPageWf page
  | .dieCommit a _ => a.write
  | .commitAdoption page => shadowPageWf page
  | .portRetrainRequest a _ _ => a.write
  | .positionWrite a _ => a.write
  | .testctlUnlock a _ => a.write
  | .tInjArm a page _ => a.write && pageWf page
  | .tQuadWrite a _ _ => a.write
  | .nowLoRead a => !a.msg
  | .energyLoRead a _ => !a.msg
  | .ticketLoRead a _ => !a.msg
  | .unticketedLoRead a => !a.msg
  | .measSeqWrite a _ => a.write
  | .ticketRelease a _ => a.write
  | .learnClear a _ => a.write
  | .journalEnable a _ view => a.write && view.wf
  | .retireWrite a _ _ => a.write
  | .replayCmdStart a _ view => a.write && view.wf
  | .replayEntry view => view.wf
  | .replayInFlight view => view.wf
  | .secureSnapshotPoint _ => true
  | .secureDrain _ _ => true
  | .secureComplete _ => true
  | .gCtrlForm a _ => a.write
  | .gCtrlDissolve a _ => a.write
  | .concordRound _ => true
  | .concordEvaluate _ => true
  | .peerLost a _ _ => a.signal
  | .peerBack a _ _ => a.signal
  | .peerSpare a pos _ => a.signal && pos == 0
  | .isolate a => a.signal
  | .grant a _ => a.signal
  | .deny a => a.signal
  | .softwareSideSignal a code => a.signal && signalCodeWf code
  | .refclkLoss _ => true
  | .tbaseFrame _ _ => true
  | .readmit => true
  | .readmitTrain obs => obs.ports.wf
  | .sbUcodeWrite _ _ => true
  | .setdasa _ => true
  | .rstdaa => true
  | .enec => true
  | .disec => true
  | .getpid => true
  | .getbcr => true
  | .getdcr => true
  | .getstatus => true
  | .rstact _ => true
  | .targetResetPattern => true
  | .tapInstruction load => load.scan.wf
  | .coldReset _ => true
  | .warmReset => true
  | .vokRise _ => true
  | .supplyFault _ => true
  | .vokLate _ => true
  | .supplyFaultEnd _ => true
  | .islandStepConfirm _ => true
  | .controlPeriod => true
  | .emergencyLift => true
  | .calStale => true
  | .droopDetect _ => true
  | .droopQuiet _ => true
  | .thermalSample readings => readingsWf readings
  | .throttleStep _ => true
  | .throttleReleaseStep _ => true
  | .sensorTimeout _ => true
  | .healthEvaluation view => view.wf
  | .islandStillEntry _ => true
  | .islandKeepEntry _ => true
  | .islandWake _ => true
  | .coolstopBond => true
  | .coolstopCcc => true
  | .islandReset a v => a.write && codeWf 1 v
  | .blockReset a v => a.write && codeWf 2 v
  | .shutdown a v view => a.write && codeWf 3 v && view.wf
  | .shutdownFinish => true
  | .watchdogExpiry _ => true
  | .fuseRead _ => true
  | .stewardBoot r => r.wf
  | .portsStartup obs => obs.wf
  | .microcodeFetch view => view.wf
  | .storeSelfTest obs => obs.wf
  | .numericSelfTest _ => true
  | .admission => true
  | .selftest a v r => a.write && codeWf 1 v && r.wf
  | .random a v => a.write && codeWf 2 v
  | .attest a v => a.write && codeWf 3 v
  | .coChallenge a v => a.write && codeWf 4 v
  | .coLogin a v => a.write && codeWf 5 v
  | .coLogout a v => a.write && codeWf 6 v
  | .loadKey a v => a.write && codeWf 7 v
  | .clearKey a v => a.write && codeWf 8 v
  | .zeroise a v => a.write && codeWf 9 v
  | .fuseOwner a v => a.write && codeWf 10 v
  | .raiseSvn a v => a.write && codeWf 11 v
  | .kill a v => a.write && codeWf 12 v
  | .protApply a _ => a.write
  | .taskEnd a _ => a.write
  | .auditRingSizeWrite a _ => a.write
  | .auditReadWrite a _ => a.write
  | .rgrd a off => !a.msg && off.toNat % 4 == 0
  | .timeBaseLost => true
  | .entropyHealthTestFailure => true

end Sys2Proof
end

