-- ==== Sys2Proof/Tests/Slice0.lean ====
section
/-!
SUPPORT. Tests: terms that WellFormed refuses, and for each statement states and operands that meet its hypotheses, clause
by clause, with what one command does there. Expected values come from the rules that the statements cite.
-/

namespace Sys2Proof.Tests

open Sys2Proof Sys2Proof.Machine

set_option Elab.async false

/-! ## Helpers -/

/-- The state after a command. -/
def run (i : Instr) (s : State) : State :=
  match exec i s with
  | .next t => t
  | .fault _ => s
  | .refused _ => s

/-- STATUS of the last transaction issued. -/
def answer (i : Instr) (s : State) : Option Nat := (run i s).out.getLast?.map (·.status)

/-- The kinds and ports of the transactions issued. -/
def issued (i : Instr) (s : State) : List (TxnOp × Nat) := ((run i s).out.drop s.out.length).map fun t => (t.op, t.port)

def setAll (s : State) (l : List (Nat × Nat)) : State := l.foldl (fun t p => t.setRegN p.1 p.2) s

/-- A port that is UP with every credit of R280. -/
def portUp : Port :=
  { Port.initial with
    train := .up, fresh := false, hubHdr := [96, 512, 512, 16], hubData := [1536, 16, 512, 16] }

def withPorts (p : Port) (s : State) : State := { s with ports := (List.range 32).map fun n => (n, p) }

/-- Ports up, start-up complete, active. -/
def live : State := setAll (withPorts portUp State.reset) [(0x1100, 10), (0x4010C, 2)]

def acc (priv : BitVec 2) : Access :=
  { port := 5, tag := 7, stream := 3, srcpos := 2, srcpkg := 1, priv := priv, msg := false }

/-- A message: a doorbell or side signal. -/
def msgAcc : Access := { acc 0 with msg := true }

/-- Performs as a conjunction that can be decided. -/
theorem performs_iff (s : State) (a : Access) (b : Nat) : Performs s a b ↔
    s.heard a.port.val = true ∧ 5 ≤ s.bootStep ∧ s.admitSt ≠ 5 ∧ s.bootFailed = false ∧
      (a.msg = true → s.bootStep = 10) ∧ bit (s.regN (b + 0xF10)) 31 = false :=
  ⟨fun h => ⟨h.heard, h.step, h.admitSt, h.started, h.bell, h.unarmed⟩,
    fun h => ⟨h.1, h.2.1, h.2.2.1, h.2.2.2.1, h.2.2.2.2.1, h.2.2.2.2.2⟩⟩

theorem inv_of {s : State} (h : Memory.wf s.store = true ∧ s.audit.held.length ≤ 16) : Inv s := ⟨h.1, h.2⟩

/-! ## WellFormed refuses -/

def noView : HubView := { bytes := [], status := [] }
def farView : HubView := { bytes := [(2 ^ 52, 1)], status := [] }

theorem test_wf_view : (Instr.matmul 0 farView).wf = false ∧ (Instr.matmul 0 { noView with bytes := [(2 ^ 52 - 1, 1)] }).wf
    = true ∧ (Instr.conv 0 farView).wf = false ∧ (Instr.microcodeFetch farView).wf = false := by decide
theorem test_wf_access : (Instr.queueEnable msgAcc 0 1).wf = false ∧ (Instr.queueEnable (acc 0) 0 1).wf = true ∧
    (Instr.dbTailWrite msgAcc 0 1).wf = true ∧ (Instr.nowLoRead msgAcc).wf = false ∧
    (Instr.isolate (acc 0)).wf = false ∧ (Instr.isolate msgAcc).wf = true := by decide
theorem test_wf_page : (Instr.intStatusWrite (acc 0) 0x1004 0).wf = false ∧
    (Instr.intStatusWrite (acc 0) 0x1000 0).wf = true ∧ (Instr.intEnableWrite (acc 0) 0x3000 0).wf = false := by decide
theorem test_wf_shadow_page : (Instr.pageCommit (acc 0) 0x50000 0).wf = false ∧
    (Instr.pageCommit (acc 0) 0x1001000 0).wf = true ∧ (Instr.commitAdoption 0).wf = false := by decide
theorem test_wf_window_write : (Instr.wwr ⟨5, 0, 0, 0, 0, 9, 0, 0, zeros 63⟩).wf = false ∧
    (Instr.wwr ⟨5, 0, 0, 0, 0, 0, 0, 0, zeros 64⟩).wf = false ∧ (Instr.wwr ⟨5, 0, 0, 0, 0, 10, 0, 0, zeros 64⟩).wf = false ∧
    (Instr.wwa ⟨5, 0, 0, 0, 0, 9, 0, 0, zeros 64⟩).wf = true := by decide
theorem test_wf_data : (Instr.rdr 0 0 0 (zeros 3)).wf = false ∧ (Instr.rdr 0 0 0 (zeros 4)).wf = true ∧
    (Instr.atr 0 0 0 (zeros 4)).wf = false ∧ (Instr.atr 0 0 0 (zeros 8)).wf = true := by decide
theorem test_wf_data_long : dataWf (List.replicate 4100 0) = false ∧ dataWf (List.replicate 4096 0) = true := by decide +kernel
theorem test_wf_flit : (Instr.headerFlitReceive 0 0 (zeros 63) 0).wf = false ∧ (Instr.tsFlitReceive 0 0 (zeros 65) 0).wf
    = false ∧ (Instr.tsFlitReceive 0 0 (zeros 64) 0).wf = true := by decide
theorem test_wf_bonds : (Instr.trainingStateEnd 0 { TrainObs.good with windows := [(33 * 64, 50)] }).wf = false ∧ (Instr.trainingStateEnd 0 { TrainObs.good with samples := [(34, [])] }).wf = false ∧
    (Instr.trainingStateEnd 0 { TrainObs.good with windows := [(32 * 64 + 33, 50)] }).wf = true := by decide
theorem test_wf_trainings :
    (Instr.portsStartup ⟨[], [⟨0, TrainObs.good, zeros 63, zeros 64, true⟩], []⟩).wf = false ∧
    (Instr.readmitTrain ⟨15, ⟨[], [⟨0, TrainObs.good, zeros 64, zeros 65, true⟩], []⟩⟩).wf = false ∧
    (Instr.readmitTrain ⟨15, ⟨[], [⟨0, TrainObs.good, zeros 64, zeros 64, true⟩], []⟩⟩).wf = true ∧
    (Instr.tapInstruction ⟨.extest, [], [78144], []⟩).wf = false ∧
    (Instr.tapInstruction ⟨.extest, [], [78143], [78144]⟩).wf = false := by decide
theorem test_wf_observations : (Instr.storeSelfTest ⟨[(15360, 1)], false⟩).wf = false ∧
    (Instr.storeSelfTest ⟨[(0, 0)], false⟩).wf = false ∧ (Instr.storeSelfTest ⟨[(15359, 9)], false⟩).wf = true ∧
    (Instr.thermalSample [none]).wf = false ∧ (Instr.thermalSample (List.replicate 64 none)).wf = true ∧
    (Instr.stewardBoot (.fail 16)).wf = false ∧ (Instr.stewardBoot (.entropy 2)).wf = false := by decide
theorem test_wf_codes : (Instr.islandReset (acc 0) 2).wf = false ∧ (Instr.kill (acc 0) 0x10C).wf = true ∧
    (Instr.softwareSideSignal msgAcc 0x14).wf = false ∧ (Instr.softwareSideSignal msgAcc 0x40).wf = true ∧
    (Instr.peerSpare msgAcc 1 0).wf = false ∧ (Instr.huberr 0 ⟨0x38, 0, 0, 0, 0⟩).wf = false ∧
    (Instr.rgwr (acc 0) 0x1002 0).wf = false ∧ (Instr.rgrd (acc 0) 0x1001).wf = false := by decide

/-! ## The block -/

theorem test_StepKeepsTheInvariant : Inv { State.reset with pending := [.getbcr] } ∧
    ∃ t, step { State.reset with pending := [.getbcr] } = .next t :=
  ⟨inv_of (by decide), _, rfl⟩
theorem test_StepOnlyBlowsFuses : ∃ t, step { State.reset with pending := [.rstdaa] } = .next t := ⟨_, rfl⟩
theorem test_WhatWasSentStandsAndAStopLasts : (∃ t, exec .getdcr { State.reset with stopped := true } = .next t) ∧
    (∃ t, exec .warmReset { State.reset with stopped := true } = .next t) ∧
    (run .warmReset { State.reset with stopped := true }).stopped = false ∧
    (run (.coldReset .powerGoodFall) { State.reset with stopped := true }).stopped = false ∧
    (run .controlPeriod { State.reset with stopped := true }).stopped = true := by
  refine ⟨⟨_, rfl⟩, ⟨_, rfl⟩, ?_⟩; decide +kernel
theorem test_IdleStepIsOneReferencePeriod : State.reset.pending = [] ∧
    ({ State.reset with time := ⟨2 ^ 64 - 10, true, 0, 0, 0, true, false, 1⟩ } : State).pending = [] ∧
    (match step { State.reset with time := ⟨2 ^ 64 - 10, true, 0, 0, 0, true, false, 1⟩ } with
      | .next t => t.time.now == 0
      | .fault _ => false
      | .refused _ => false) = true := by decide +kernel
theorem test_StepRunsTheFrontCommand : (match step { State.reset with pending := [.enec, .disec] } with
    | .next t => t.sb.ibi && t.pending == [.disec]
    | .fault _ => false
    | .refused _ => false) = true := by decide +kernel

/-! ## Reset and start-up -/

def sbState (f : SideBand → SideBand) (s : State) : State := { s with sb := f s.sb }

/-- A stop for heat with sensor 3 at 95.25 °C (R390): readings count in 0.25 °C. -/
def hot : State := setAll { State.reset with stopped := true, ports := [] } [(0x4910C, 4), (0x4920C, 381)]
theorem test_WarmResetKeepsWhatTheTableKeeps : hot.tooHot = true ∧ (hot.setRegN 0x4920C 380).tooHot = false ∧
    live.tooHot = false ∧ live.testUnlocked = false ∧ run .warmReset hot = hot ∧ live.sb.bondLow = false ∧
    (sbState (fun b => { b with bondLow := true }) live).sb.bondLow = true ∧
    (run .warmReset live).regN 0x1104 = 2 ∧ (run .warmReset live).bootStep = 2 := by decide +kernel
theorem test_TargetResetPatternFollowsRstact : (sbState (fun b => { b with rstact := 1 }) live).sb.rstact = 1 ∧
    live.sb.rstact = 0 ∧ run .targetResetPattern live = live ∧
    (run .targetResetPattern (sbState (fun b => { b with rstact := 2 }) live)).bootStep = 2 := by decide +kernel

/-- A start-up step. -/
def boot (n : Nat) : State := setAll State.reset [(0x1100, n)]
def contOk : ContObs := { failed := [(3, 2)], trains := [⟨31, TrainObs.good, hubTs 31 1, hubTs 31 2, true⟩], down := [] }
def storeObs (n : Nat) (core : Bool) : StoreTestObs := { repaired := [(0, n), (15359, 1)], coreFail := core }

/-- A signed microcode image at address 0 with a header alone: its magic word, SVN 0 (R443), a key and its signature, both
computed in Python. The hash of the key is fused. `ecdsaVerify` was run on this signature outside; the kernel takes minutes. -/
def signerKey : List Byte :=
  toBE 48 0xE86B995E350E4D312A95A6B7D5D8CDCDB4682F588800A1CD6C972E1DCB2A5AC38D90046951B03CCB3B179A89FDA88B1B
    ++ toBE 48 0x485B9F2C1F44B0DD41CE6E3C3A690BBFAABEC1E1FF4AEFB2461FDDA6629BECBD43CF74C13D8C1A1625612243F0046148
def signerSig : List Byte :=
  toBE 48 0xA3A515B1563480D363F6DBEEB700CCF78B1850F123BA19379DEBE7FC3418F9F3115F0D839EF8B1B9564CB5A3F0366E86
    ++ toBE 48 0x58CB4C640D6C2A2559246E458F186C900F609B5C72785BE924DB52BC09986F16774AF170B4EE7DF69665F9E9E2480047
def imageView : HubView :=
  { bytes := [(0, 0xC0), (1, 0x55), (2, 0x80), (3, 0x0C)] ++ ((signerKey ++ signerSig).zipIdx.map fun p => (64 + p.2, p.1)), status := [] }
def bootSix : State := { boot 6 with fuses := { State.reset.fuses with rootHash := sha384 signerKey } }

/-- Every hypothesis of the passing steps but those of the image's key, which follow. -/
theorem test_StartupStepsPass : (boot 3).inStep 3 = true ∧ (boot 4).inStep 4 = true ∧ (boot 5).inStep 5 = true ∧
    contOk.down = [] ∧ bootSix.inStep 6 = true ∧ bootOk imageView bootSix.ucodeAddr 256 = true ∧
    imageHeaderOk (viewBytes imageView bootSix.ucodeAddr 256) = true ∧
    bootOk imageView (bootSix.ucodeAddr + 256) (bytesAt (viewBytes imageView bootSix.ucodeAddr 256) 12 4) = true ∧
    bootSix.fuses.svnMin ≤ bytesAt (viewBytes imageView bootSix.ucodeAddr 256) 8 4 ∧ (boot 7).inStep 7 = true ∧
    (∀ p ∈ (storeObs 8 false).repaired, p.2 ≤ 8) ∧ (storeObs 8 false).coreFail = false ∧ (boot 8).inStep 8 = true ∧
    (boot 9).inStep 9 = true ∧ (boot 9).admitSt = 0 := by decide +kernel
theorem test_StartupStepsPass_key : bootSix.ucodeAddr = 0 ∧ ((viewBytes imageView 0 256).drop 64).take 96 = signerKey ∧
    ((viewBytes imageView 0 256).drop 160).take 96 = signerSig ∧ bootSix.fuses.rootHash = sha384 signerKey :=
  ⟨by decide +kernel, by decide +kernel, by decide +kernel, by simp only [bootSix]⟩
theorem trainsWell (s : State) (h : ∀ p : Fin 32, Unarmed s (portKey p 0)) : TrainsWell s contOk :=
  ⟨rfl, h, fun v hv => by
    cases (List.mem_singleton.mp hv)
    exact ⟨fun st => by cases st <;> rfl, rfl, rfl, rfl⟩⟩
theorem test_StartupStepsPass_ports : TrainsWell (boot 5) contOk := trainsWell _ (by unfold Unarmed; decide +kernel)
theorem test_StartupStepsPass_run : (run .admission (boot 9)).admitSt = 1 := by decide +kernel
theorem test_StartupStepsFail : StaysDown (boot 5) { contOk with down := [31] } ∧
    bootOk { noView with status := [(0, [0xF0])] } (boot 6).ucodeAddr 256 = false ∧
    imageHeaderOk (viewBytes noView (boot 6).ucodeAddr 256) = false ∧
    bootOk noView (boot 6).ucodeAddr 256 = true ∧
    (∃ p ∈ (storeObs 9 false).repaired, 8 < p.2) ∧ (∀ p ∈ (storeObs 8 true).repaired, p.2 ≤ 8) ∧
    (storeObs 8 true).coreFail = true ∧ (boot 9).bootStep < 10 ∧ (boot 9).bootFailed = false ∧
    (run (.storeSelfTest (storeObs 9 true)) (boot 7)).regF 0x1100 8 8 = 6 ∧
    (run (.storeSelfTest (storeObs 8 true)) (boot 7)).regF 0x1100 8 8 = 7 ∧
    (run (.refclkLoss 0) (boot 9)).bootFailed = true := by unfold StaysDown; decide +kernel

/-! ## Side-band -/

def bootTwo (lo hi : Bool) : State := sbState (fun b => { b with wroteLo := lo, wroteHi := hi }) (boot 2)
def noScan : TapScan := { bits := [], bonds := [], cells := [] }
def unlocked : State := setAll live [(0x7F100, 1)]
theorem test_SideBandCommands : live.inStep 1 = false ∧ live.inStep 2 = false ∧ State.reset.inStep 1 = true ∧
    (bootTwo true false).inStep 2 = true ∧ (bootTwo false true).inStep 2 = true ∧ unlocked.testUnlocked = true ∧
    (run (.sbUcodeWrite true 5) (bootTwo false false)).sb.wroteHi = true ∧
    (run .getbcr live).sb.replies = [[0x06]] ∧ (run (.tapInstruction ⟨.other 4, noScan⟩) live).sb.tap = .bypass ∧
    (run (.tapInstruction ⟨.other 4, noScan⟩) unlocked).sb.tap = .other 4 := by decide +kernel
theorem test_setdasa_rstdaa : (run .rstdaa (run (.setdasa 0x48) live)).sb.dynAddr = none := by decide +kernel

/-! ## The link layer -/

def training (t : TrainSt) (f : Port → Port) : State := withPorts (f { portUp with train := t }) live
/-- What a training state observed when lane 5 has no strobe, a window is 50 ps and a bond never toggles (R269, R270). -/
def obs (l : List (Fin 33)) (w : List (Nat × Nat)) (x : List (Nat × List Bool)) : TrainObs :=
  { TrainObs.good with lost := l, windows := w, samples := x }
def allLanes : List Nat := List.range 32
theorem test_PortTrainingStatesInOrder : ((training .down id).port 31).train = .down ∧ (live.port 0).train = .up ∧
    ((training .detect id).port 31).train = .detect ∧ ((training .lock id).port 31).train = .lock ∧
    ((training .deskew id).port 31).train = .deskew ∧ ((training .test id).port 31).train = .test ∧
    Unarmed (training .test id) (portKey 31 0) ∧
    (let x := (training .map fun p => { p with gotTs1 := true, widthIn := 8, widthOut := 8 }).port 31
     x.train = .map ∧ x.gotTs1 = true ∧ x.widthIn ≠ 0 ∧ x.widthOut ≠ 0) ∧
    ((training .repair fun p => { p with gotTs2 := true }).port 31).gotTs2 = true ∧
    (∀ l ∈ ((training .align id).activeLanes 31 0x110).take 32, setHas allLanes l.1 = true) ∧
    ((training .align fun p => { p with retrain := true }).port 31).retrain = true ∧
    ((training .align id).port 31).retrain = false := by
  unfold Unarmed; decide +kernel
theorem test_badBonds : badBonds (obs [5] [] []) .detect false = [5 * 64 + 34] ∧
    badBonds (obs [] [(2 * 64, 99), (2 * 64 + 1, 100)] []) .deskew false = [128] ∧
    badBonds (obs [] [] [(33, List.replicate 20 false)]) .test false = [33] := by decide +kernel
theorem test_trainingStateEnd : ((run (.trainingStateEnd 31 (obs [5] [] [])) (training .detect id)).port 31).bad = [354] ∧
    (run (.trainingStateEnd 31 TrainObs.good) (training .test fun p => { p with bad := [5] })).repairCode 31 0x110 0 = 5 ∧
    ((run (.trainingStateEnd 31 TrainObs.good)
      (training .align fun p => { p with retrain := true, txSeq := 9, aligned := allLanes })).port 31).txSeq = 9 ∧
    ((run (.trainingStateEnd 31 TrainObs.good)
      (training .align fun p => { p with txSeq := 9, aligned := allLanes })).port 31).txSeq = 0 := by decide +kernel

/-- Lane 2 with one bad bond of each kind, and lane 31 with two (R272). -/
theorem test_LaneRepairCodes : (∀ b ∈ [130], b / 64 ≠ 3) ∧ ([130].filter (fun x => x / 64 == 2) = [64 * 2 + 2]) ∧
    laneCode [64 * 2 + 31] 2 = 31 ∧ laneCode [64 * 2 + 32] 2 = 0x20 ∧ laneCode [64 * 2 + 33] 2 = 0x3F ∧
    laneCode [64 * 2 + 34] 2 = 0x21 ∧ 2 ≤ ([1984, 1985].filter fun x => x / 64 == 31).length ∧
    laneCode [1984, 1985] 31 = 0x3E ∧
    (List.replicate 32 0x3F ++ [0x3E])[32]? = some 0x3E ∧ (List.replicate 33 0x3F).length = 33 ∧
    (∀ l, l < 32 → (List.replicate 33 0x3F)[l]? ≠ some 0x3E) ∧
    (let codes := List.replicate 31 0x3F ++ [0x3E, 0x3F]
     codes[32]? ≠ some 0x3E ∧ codes[31]? = some 0x3E ∧ (∀ k, k < 31 → codes[k]? ≠ some 0x3E) ∧ spareFor codes = 31) := by decide

/-- A TS1 for width 16, a TS2 with 2 header credits on channel 3, and a TS1 with a reserved code on lane 32 (R271). -/
def ts (type last hdr3 : Byte) : List Byte :=
  fitBytes 64 ([3, 0, 0, 0, type, 0, 0, 16] ++ List.replicate 32 0x3F ++ [last, 0x3F, 0, 0] ++ zeros 12 ++ [hdr3])
def mapping (a b : Bool) : State := training .map fun p => { p with gotTs1 := a, gotTs2 := b }
theorem test_TrainingSetIsTakenOnce : (ts 1 0x3F 0).length = 64 ∧
    ((mapping false false).port 0).train ∈ [TrainSt.detect, .lock, .deskew, .test, .map, .repair] ∧
    flitCrc 0 (ts 1 0x3F 0) ≠ flitCrc 0 (ts 1 0x3F 0) + 1 ∧
    (let c := (((ts 1 0x22 0)[8 + 32]?).getD 0).toNat
     ¬ (c ≤ 0x21 ∨ c = 0x3E ∨ c = 0x3F)) ∧
    (((ts 1 0x3F 0)[0]?).getD 0).toNat % 4 = 3 ∧
    Unarmed (mapping false false) (portKey 0 0) ∧
    (∀ l, l < 33 → ((((ts 1 0x3F 0)[8 + l]?).getD 0).toNat = 0x3F)) ∧
    ((mapping true false).port 0).gotTs1 = true ∧ ((mapping true true).port 0).gotTs2 = true ∧
    ((run (.tsFlitReceive 0 4 (ts 1 0x3F 0) (flitCrc 0 (ts 1 0x3F 0))) (mapping false false)).port 0).widthOut = 16 ∧
    ((run (.tsFlitReceive 0 4 (ts 2 0x3F 2) (flitCrc 0 (ts 2 0x3F 2))) (mapping true false)).port 0).hubHdr = [0, 0, 0, 2] ∧
    run (.tsFlitReceive 0 4 (ts 1 0x22 0) (flitCrc 0 (ts 1 0x22 0))) (mapping false false) = mapping false false := by
  unfold Unarmed; decide +kernel

theorem test_PortDownIsolates : InService (training .map id) ∧ ((training .map id).port 31).gotTs1 = false ∧
    InService (training .map fun p => { p with gotTs1 := true, widthIn := 0 }) ∧
    InService (training .map fun p => { p with gotTs1 := true, widthOut := 0 }) ∧
    InService (training .repair id) ∧ ((training .repair id).port 31).gotTs2 = false ∧
    (∃ l ∈ ((training .align id).activeLanes 31 0x110).take ((training .align id).port 31).widthIn,
      setHas ((training .align id).port 31).aligned l.1 = false) ∧ InService (training .align id) ∧
    (run (.trainingStateEnd 31 TrainObs.good) (training .align id)).admitSt = 4 := by
  unfold InService; decide +kernel

/-- A header flit without a header, and one with a register read (R282): code 30h, no data. -/
def idleFlit : List Byte := zeros 64
def readFlit : List Byte := fitBytes 64 [0, 0, 0, 1, 0x30]
theorem test_FlitInOrderIsTaken : idleFlit.length = 64 ∧ readFlit.length = 64 ∧ (live.port 31).train = .up ∧
    live.mute = false ∧ Unarmed live (portKey 31 0) ∧ (live.port 31).widthIn ∈ [8, 16, 32] ∧
    (live.activeLanes 31 0x110).head?.map (·.1) = some 0 ∧
    flitCrc ((live.port 31).rxSeq % 4096) readFlit = flitCrc 0 readFlit ∧
    (live.port 31).rxSeq % (live.port 31).widthIn = 0 ∧ ofLE (idleFlit.take 4) % 4 = 0 ∧
    fld (ofLE (idleFlit.take 4)) 24 2 = 0 ∧ fld (ofLE (readFlit.take 4)) 24 2 = 1 ∧
    ofLE ((readFlit.drop 4).take 4) % 256 ∈ [0x30, 0x31, 0x38, 0x3A] ∧ fld (ofLE ((readFlit.drop 4).take 4)) 8 7 = 0 ∧
    headerReserved [0x30, 0, 0, 0, 0] = false ∧ (((live.port 31).dieHdr[3]?).getD 0) ≠ 0 ∧
    ((run (.headerFlitReceive 31 0 readFlit (flitCrc 0 readFlit)) live).port 31).rx = [([0x30, 0, 0, 0, 0], [])] ∧
    ((run (.headerFlitReceive 31 0 idleFlit (flitCrc 0 idleFlit)) live).port 31).rxSeq = 1 := by
  unfold Unarmed; decide +kernel

def asked (n : Nat) : State :=
  (withPorts { portUp with reqRun := n, rxSeq := 5, lastAck := some 9, ackRun := n } live).setRegN (portKey 0 0x108) 0
theorem noNumber : ∀ n, n < 4096 → n % 32 = 5 → flitCrc n idleFlit ≠ flitCrc 0 idleFlit := by
  intro n h h5
  have := (by decide +kernel : ∀ k, k < 128 → flitCrc (32 * k + 5) idleFlit ≠ flitCrc 0 idleFlit) (n / 32) (by omega)
  rwa [show 32 * (n / 32) + 5 = n by omega] at this
theorem test_CrcFailureAsksForAReplay : ((asked 2).port 0).skipping = false ∧ ((asked 2).port 0).train = .up ∧
    (asked 2).mute = false ∧ (32 : Nat) ∉ (((asked 2).activeLanes 0 0x110).take ((asked 2).port 0).widthIn).map (·.1) ∧
    ((((asked 2).activeLanes 0 0x110).take ((asked 2).port 0).widthIn).map (·.1)).findIdx? (· == 5) = some 5 ∧
    ((asked 2).port 0).widthIn ∈ [8, 16, 32] ∧
    (asked 2).regF (portKey 0 0x108) 0 8 = 0 ∧
    ((asked 2).port 0).reqRun + 1 < 4 ∧ Unarmed (asked 2) (portKey 0 0) ∧ ((asked 2).port 0).replay.length < 2048 ∧
    ((asked 2).port 0).owing = [] := by
  unfold Unarmed; decide +kernel
theorem test_crcFailed : ((run (.headerFlitReceive 0 5 idleFlit (flitCrc 0 idleFlit)) (asked 2)).port 0).skipping = true ∧
    ((run (.headerFlitReceive 0 5 idleFlit (flitCrc 0 idleFlit)) (asked 3)).port 0).train = .detect := by decide +kernel
theorem test_ReplayRequestsAndRetrains : ((asked 2).port 0).train = .up ∧ (asked 2).mute = false ∧
    Unarmed (asked 2) (portKey 0 0) ∧ ((training .down id).port 0).train = .down ∧
    ((run (.replayRequest 0 9) (asked 2)).port 0).train = .up ∧
    ((run (.replayRequest 0 9) (asked 3)).port 0).train = .detect ∧
    ((run (.replayRequest 0 8) (asked 3)).port 0).train = .up ∧
    run (.strobeLoss 0 32) (training .map id) = training .map id := by
  unfold Unarmed; decide +kernel

/-! ## The hub link -/

def spareLive : State := live.setRegN 0x4010C 3
def admitSt (n : Nat) (f : State → State) : State := f (live.setRegN 0x4010C n)
theorem test_LossOfReferenceOrTimeBaseIsolates : InService live ∧ InService spareLive ∧ live.shut = .none ∧
    Hears live msgAcc ∧ (sbState (fun b => { b with ibi := true, dynAddr := some 8 }) live).sb.dynAddr.isSome = true := by
  unfold InService Hears; decide +kernel

def timed (t : TimeBase) : State := { live with time := t }
def frame (t : BitVec 64) : TFrame := { sync := 0xF0F0, t := t, crc := crc16 (toLE 8 t.toNat) }
theorem test_TimeBaseFrames : live.stopped = false ∧ (frame 50).sync = 0xF0F0 ∧
    crc16 (toLE 8 (frame 50).t.toNat) = (frame 50).crc ∧ (timed ⟨50, true, 0, 3, 3, true, true, 15⟩).time.bad1 < 4 ∧
    ¬ (({ frame 50 with sync := 0xF0F1 } : TFrame).sync = 0xF0F0) ∧
    (run (.tbaseFrame 0 (frame 50)) (timed ⟨40, false, 1, 4, 0, false, true, 15⟩)).reg 0x51110 = 10 ∧
    (run (.tbaseFrame 0 (frame 50)) (timed ⟨50, true, 0, 3, 3, true, true, 15⟩)).reg 0x5110C = 0 ∧
    (run (.tbaseFrame 0 { frame 50 with sync := 0xF0F1 }) (timed ⟨50, true, 0, 3, 3, true, true, 15⟩)).time.copy = 1 ∧
    (run (.tbaseFrame 0 { frame 50 with sync := 0xF0F1 }) (timed ⟨50, true, 0, 2, 3, true, true, 15⟩)).time.copy = 0 ∧
    (run (.tbaseFrame 1 (frame 70)) (timed ⟨50, true, 0, 3, 3, true, true, 15⟩)).time.now = 50 := by decide +kernel

/-- Group 5 is formed with position 4 of the own package and position 2 of package 9. -/
def grouped (f : Group → Group) : State :=
  live.setGroup 5 (f { Group.zero with
    st := .formed, members := [0x8000FF00, 0x8000FF04, 0x80000902] ++ List.replicate 13 0 })
theorem test_SideSignalsAreAnsweredAndShown : Hears (grouped id) msgAcc ∧ (0x40#8).toNat ≥ 0x40 ∧
    (((run (.peerLost msgAcc 4 0xFF) (grouped id)).group 5).st, ((run (.peerLost msgAcc 4 0xFF) (grouped id)).group 5).lost)
      = (.degraded, 2) ∧
    ((run (.peerLost msgAcc 2 9) (grouped id)).group 5).lost = 4 ∧
    ((run (.peerLost msgAcc 3 9) (grouped id)).group 5).st = .formed ∧
    (run (.peerLost msgAcc 7 0xFF) live).regF 0x40110 14 2 = 3 ∧
    (run (.peerBack msgAcc 0 0xFF) live).regF 0x40110 0 2 = 1 ∧
    answer (.softwareSideSignal msgAcc 0x40) live = some 0 ∧
    (run (.softwareSideSignal msgAcc 0x40) live).regN 0x40118 = 0x10240 := by
  unfold Hears; decide +kernel

def asking : State := setAll live [(0x1100, 9), (0x4010C, 1)]
theorem test_AdmissionByGrantOrDeny : Hears asking msgAcc ∧ asking.admitSt = 1 ∧ asking.bootStep = 9 ∧
    (live.setRegN 0x4010C 4).admitSt = 4 ∧ live.admitSt ≠ 4 ∧ ({ live with stopped := true } : State).stopped = true ∧
    (run .readmit (live.setRegN 0x4010C 4)).admitSt = 5 ∧ run .readmit live = live ∧
    (run (.deny msgAcc) asking).regF 0x1100 8 8 = 9 := by
  unfold Hears; decide +kernel
def silent : State := { live.setRegN 0x4010C 5 with mute := true, time := ⟨0, true, 0, 0, 0, true, true, 15⟩ }
theorem test_ReadmissionTrainsAndAsks : silent.admitSt = 5 ∧ silent.stopped = false ∧ silent.mute = true ∧
    silent.time.lock = true ∧ TrainsWell silent contOk ∧ silent.outst = [] ∧
    (sbState (fun b => { b with ibi := true, dynAddr := some 8 }) silent).sb.dynAddr.isSome = true ∧
    ({ silent with time := State.reset.time } : State).time.lock = false ∧
    StaysDown { silent with ports := [] } { contOk with down := [31] } ∧ Hears (live.setRegN 0x4010C 5) msgAcc ∧
    (live.setRegN 0x4010C 5).admitSt = 5 ∧ (live.setRegN 0x4010C 5).stopped = false := by
  refine ⟨by decide +kernel, by decide +kernel, by decide +kernel, by decide +kernel, trainsWell _ ?_, ?_⟩
  · unfold Unarmed; decide +kernel
  · unfold Hears StaysDown; decide +kernel
theorem test_readmitTrain : (run (.readmitTrain ⟨7, contOk⟩) silent).regF 0x40104 0 1 = 1 := by decide +kernel
theorem test_grant : (let t := run (.grant msgAcc 0x0716) (grouped fun g => { g with st := .formed })
    (t.admitSt = 2 ∧ (run (.grant msgAcc 0x0716) (live.setRegN 0x4010C 5)).admitSt = 3 ∧
      (run (.grant msgAcc 0x0716) (live.setRegN 0x4010C 5)).pos = 6 ∧
      (run (.grant msgAcc 0x0716) (live.setRegN 0x4010C 5)).pkg = 7)) := by decide +kernel

/-! ## Registers -/

theorem test_RegisterAccessChecks : Performs live (acc 3) 0 ∧ Performs live (acc 1) 0x4D000 ∧
    Performs live (acc 0) (portKey 31 0) ∧ regAt 0x1002 = none ∧ regAt 0x3100 = none ∧
    ((regAt 0x410C).map (·.1)) = some (pgQueue 0) ∧
    ((regAt 0x4D11C).map fun x => (x.1.base, x.2.rl)) = some (0x4D000, true) ∧
    ((regAt 0x3F104).map fun x => (x.1.base, x.1.kind)) = some (portKey 31 0, .hubport) ∧
    ((regAt 0xF00).map (·.1.base)) = some 0 ∧ live.testUnlocked = false ∧ live.darkPage (pgPort 31) = false ∧
    ((regAt 0x3F104).bind fun x => live.commitRefused x.1 x.2 0x104 6) = none ∧ reservedValue .hubport 0x104 6 = true ∧
    reservedValue .hubport 0x104 4 = false ∧ ((regAt 0x4D100).map fun x => (x.1, x.2.rs)) = some (pgJournal, 0) ∧
    journalSetup pgJournal 0x100 = true ∧ reservedValue .journal 0x100 0 = false ∧
    (run (.rgwr (acc 1) 0x4D100 0) live).regN 0x4D020 = 0x800000E6 ∧
    (run (.rgwr (acc 3) 0x4D100 0) live).regN 0x4D020 = 0x800000E6 ∧ answer (.rgwr (acc 0) 0x3100 0) live = some 0x10 ∧
    (run (.rgwr (acc 0) 0x3F104 6) live).regN 0x3F020 = 0x800000E2 ∧
    (run (.rgwr (acc 1) 0x4D11C 0) live).regN 0x4D020 = 0x800000E0 ∧
    (run (.rgwr (acc 0) 0xF00 1) live).regN 0x20 = 0x800000E5 ∧
    (run (.rgwr (acc 2) 0x4110 1) live).regN 0x4020 = 0x800000E1 := by
  simp only [performs_iff]; decide +kernel

def captured (s : State) : State := setAll s [(0x51020, 0x80000007), (0x51038, 0xFFFFFFFF)]
theorem test_EventCaptureKeepsTheFirst : pgTime.kind ≠ .store ∧ pageAt pgTime.base = some pgTime ∧
    bit (live.regN (pgTime.base + 0x20)) 31 = false ∧ bit ((captured live).regN (pgTime.base + 0x20)) 31 = true ∧
    (live.captureCommon pgTime 255 4095 3).regN 0x51024 = 4095 + 4096 * 3 ∧
    ((captured live).captureCommon pgTime 1 0 0).regN 0x51038 = 0xFFFFFFFF ∧
    ((captured live).captureCommon pgTime 1 0 0).regN 0x51020 = 0x80000007 := by decide +kernel

/-- Queue 3 with rings of 16 entries, HEAD at FFFF_FFFEh, one descriptor waiting, two records unread. -/
def ringed (st : QState) : State :=
  setAll (live.setQueue 3 { Queue.initial with st := st })
    [(queueKey 3 0x108, 4), (queueKey 3 0x128, 4), (queueKey 3 0x110, 0xFFFFFFFE), (queueKey 3 0x10C, 0xFFFFFFFF),
      (queueKey 3 0x12C, 1), (queueKey 3 0x130, 0xFFFFFFFF)]
theorem test_DoorbellsAndCompletionHead : Performs (ringed .run) msgAcc (queueKey 3 0) ∧
    Performs (ringed .run) (acc 2) (queueKey 3 0) ∧ (acc 2).priv ≠ 3 ∧
    (let v : Word := 14
     let head : Word := 0xFFFFFFFE
     (ringed .run).reg (queueKey 3 0x110) = head ∧ (ringed .run).reg (queueKey 3 0x10C) - head ≤ v - head ∧
      (v - head).toNat = 2 ^ (ringed .run).regF (queueKey 3 0x108) 0 5 ∧
      ((ringed .run).reg (queueKey 3 0x12C) - (ringed .run).reg (queueKey 3 0x130) = 2)) ∧
    ((ringed .disabled).queue 3).st = .disabled ∧ answer (.dbTailWrite (acc 2) 3 14) (ringed .run) = some 0 ∧
    answer (.dbTailWrite (acc 2) 3 15) (ringed .run) = some 0x11 ∧ answer (.dbTailWrite (acc 2) 3 0xFFFFFFFE) (ringed .run)
      = some 0x11 ∧
    answer (.cplHeadWrite msgAcc 3 1) (ringed .run) = some 0 ∧ answer (.cplHeadWrite msgAcc 3 2) (ringed .run) = some 0x11 := by
  simp only [performs_iff]; decide +kernel

theorem test_RingBasesOnlyWhileDisabled : Performs (ringed .disabled) (acc 0) (queueKey 3 0) ∧ (acc 0).priv = 0 ∧
    ((ringed .run).queue 3).st ≠ .disabled ∧ (0xFFFF#32).toNat < 2 ^ 16 ∧ 4 ≤ (16#32).toNat ∧ (16#32).toNat ≤ 16 ∧
    (run (.ringLoWrite (acc 0) 3 0x1047) (ringed .disabled)).reg (queueKey 3 0x100) = 0x1040 ∧
    (run (.ringLoWrite (acc 0) 3 0x1047) (ringed .disabled)).reg (queueKey 3 0x110) = 0 ∧
    (run (.cplLoWrite (acc 0) 3 0x1047) (ringed .disabled)).reg (queueKey 3 0x130) = 0 ∧
    answer (.rgwr (acc 0) 0x7108 16) (ringed .disabled) = some 0 ∧ answer (.rgwr (acc 0) 0x7108 17) (ringed .disabled) = some 0x11 ∧
    answer (.rgwr (acc 0) 0x7128 4) (ringed .disabled) = some 0 ∧ answer (.rgwr (acc 0) 0x7144 4) (ringed .run) = some 0x11 ∧
    answer (.cplLoWrite (acc 0) 3 0x1047) (ringed .run) = some 0x11 := by
  simp only [performs_iff]; decide +kernel

def enabled (st : QState) : State := (ringed st).setRegN (queueKey 3 0x10) 1
theorem test_QueueStateChanges : Performs (enabled .run) (acc 1) (queueKey 3 0) ∧ Privileged (acc 1) ∧
    live.health.failed = false ∧ bit ((enabled .run).regN (queueKey 3 0x10)) 0 = true ∧
    bit ((ringed .stopping).regN (queueKey 3 0x10)) 0 = false ∧ ((ringed .stopping).queue 3).st = .stopping ∧
    spareLive.admitSt = 3 ∧ live.admitSt ≠ 3 ∧ ((enabled .halted).queue 3).st = .halted ∧
    ((run (.queueEnable (acc 1) 3 1) (ringed .disabled)).queue 3).st = .run ∧
    answer (.queueEnable (acc 1) 3 1) (ringed .stopping) = some 0x11 ∧ answer (.queueEnable (acc 1) 3 1) spareLive = some 0x11 ∧
    answer (.queueEnable (acc 1) 3 1) ((enabled .run).setRegN 0x4010C 3) = some 0x11 ∧
    ((run (.queueEnable (acc 1) 3 0) (enabled .run)).queue 3).st = .disabled ∧
    ((run (.resume (acc 1) 3 3) (enabled .halted)).queue 3).st = .run ∧
    (run (.resume (acc 1) 3 3) (enabled .run)).queues = (enabled .run).queues := by
  unfold Privileged; simp only [performs_iff]; decide +kernel

def lined : State := setAll live [(0x48018, 0xC000003F), (0x4801C, 4), (0x48020, 0x80000005), (0x20C + 16 * 31, 3)]
theorem test_InterruptRegisterWrites : Performs lined (acc 1) 0x48000 ∧ Performs lined (acc 0) 0 ∧ Privileged (acc 1) ∧
    Performs lined (acc 0) (clusterBase 319 + 0x1000) ∧ (lined.island (clusterOf (clusterBase 319 + 0x1000))).darkening = false ∧
    pageAt 0x48000 = some pgPower ∧ pgPower.base = 0x48000 ∧ lined.darkPage pgPower = false ∧
    (vectorPages pgPower.vector).any (lined.setReg 0x48018 (0x3F &&& ~~~ 0x3F)).line = false ∧
    (vectorPages pgPower.vector).any (lined.setReg 0x4801C (written 4 0 pgPower.kind.enableBits)).line = false ∧
    bit (0x80000000#32).toNat 31 = true ∧ pageAt 0 = some pgDie ∧ pgDie.kind = .die ∧ bit (1#32).toNat 0 = true ∧
    bit (live.regN (0x20C + 16 * 31)) 1 = false ∧ bit (lined.regN (0x20C + 16 * 31)) 1 = true ∧
    (run (.intStatusWrite (acc 1) 0x48000 0x80000004) lined).regN 0x48018 = 0x4000003B ∧
    (run (.errCauseClear (acc 1) 0x48000 0x80000000) lined).regN 0x48020 = 5 ∧
    (run (.intvCtrlWrite (acc 0) 31 1) lined).regN (0x20C + 16 * 31) = 3 := by
  unfold Privileged; simp only [performs_iff]; decide +kernel
/-- Vectors 15, 16, 18 and 31 unmasked. -/
def unmasked : State := setAll live [(0x20C + 16 * 15, 0), (0x20C + 16 * 16, 0), (0x20C + 16 * 18, 0), (0x20C + 16 * 31, 0)]
theorem test_InterruptVectorSends : bit (lined.regN (0x20C + 16 * 31)) 0 = true ∧
    bit (unmasked.regN (0x20C + 16 * 31)) 0 = false ∧
    live.mute = false ∧ 31 ∉ live.vecBusy ∧ pgPower.kind.viaErragg = false ∧ pgPower.kind ≠ .erragg ∧
    (setAll live [(0x48018, 4), (0x4801C, 4)]).baseLine 0x48000 = true ∧ lined.baseLine 0x48000 = true ∧
    live.baseLine 0x48000 = false ∧
    ((unmasked.setRegN 0x4801C 4).raise pgPower 4).vecBusy = [pgPower.vector] ∧ ((unmasked.setRegN 0x4801C 4).raise pgPower 2).vecBusy = [] ∧
    (unmasked.vectorSend 15).out.map (·.port) = [15 + 8] ∧ (unmasked.vectorSend 16).out.map (·.port) = [15] := by
  decide +kernel

def shadowed : State := run (.rgwr (acc 0) 0x48108 0x0A05) live
theorem test_ShadowRegistersAndCommits : Performs live (acc 0) 0x48000 ∧ pgPower.kind.hasShadow = true ∧
    live.pagePending pgPower = false ∧ ((pgPower.kind.rowAt 0x108).map (·.rs)) = some 0xFFFF ∧
    reservedValue pgPower.kind 0x108 0x0A05 = false ∧ live.stateRefused pgPower 0x108 0x0A05 = false ∧
    bit (live.regN 0x48044) 2 = false ∧ bit ((setAll live [(0x48044, 4)]).regN 0x48044) 2 = true ∧
    (setAll live [(0x48040, 0x10000)]).pagePending pgPower = true ∧ SMap.getD live.commitHold 0x48000 [] = [] ∧
    shadowed.regN 0x48108 = 0x1408 ∧ shadowed.shadow 0x48108 = 0x0A05 ∧
    (run (.commitAdoption 0x48000) (run (.pageCommit (acc 0) 0x48000 0x10000) shadowed)).regN 0x48108 = 0x0A05 ∧
    (run (.shadowDiscard (acc 0) 0x48000 2) shadowed).shadow 0x48108 = 0x1408 ∧
    answer (.pageCommit (acc 0) 0x48000 0x10000) (setAll live [(0x48044, 4)]) = some 0x11 := by
  simp only [performs_iff]; decide +kernel

theorem test_DieWideCommit : Performs live (acc 1) 0 ∧ Privileged (acc 1) ∧ bit (1#32).toNat 0 = true ∧
    bit ((live.setRegN 0x104 0x10000).regN 0x104) 16 = true ∧ bit (live.regN 0x104) 16 = false ∧
    (setAll live [(0x48044, 4), (0x2044, 4)]).joined = [0x2000, 0x48000] ∧
    (run (.dieCommit (acc 1) 1) (setAll live [(0x48044, 4), (0x2044, 4), (0x104, 0xFFFF)])).regN 0x104 = 0x210000 := by
  unfold Privileged; simp only [performs_iff]; decide +kernel

theorem test_LatchingReads : live.heard (acc 0).port.val = true ∧ 5 ≤ live.bootStep ∧ live.admitSt ≠ 5 ∧ Privileged (acc 1) ∧
    Unarmed live 0x51000 ∧ Unarmed live (clusterBase 319 + 0x2000) ∧ Unarmed live 0x48000 ∧ Unarmed live 0x1000 ∧
    regAt 0x51106 = none ∧ ({ acc 3 with port := 5 } : Access).port = (acc 0).port ∧
    ((run (.nowLoRead (acc 1)) { live with time := ⟨2 ^ 40 + 5, true, 0, 0, 0, true, true, 15⟩ }).out.map (·.aux)) = [5] ∧
    (run (.nowLoRead (acc 1)) { live with time := ⟨2 ^ 40 + 5, true, 0, 0, 0, true, true, 15⟩ }).regN 0x51104 = 256 ∧
    answer (.energyLoRead (acc 1) 319) live = some 0 ∧ answer (.ticketLoRead (acc 1) 63) live = some 0 ∧
    answer (.unticketedLoRead (acc 1)) live = some 0 ∧ answer (.rgrd (acc 3) 0x110C) live = some 0x11 := by
  unfold Privileged Unarmed; decide +kernel

/-! ## Operations for the states below -/

/-- An operation of queue `q` in flight. -/
def opr (id q : Nat) (kind : OpKind) : OpRec :=
  { id := id, q := q, seq := 7, desc := 0, first := 0, count := 1, rescue := false, headAt := 0, jindex := none,
    context := none, endDark := false, entries := [], dimH := 0, dimW := 0, dimC := 0, dimN := 0, chain := [],
    slivers := [], holds := [0], named := [], written := [], wrote := [], genIn := 0, genOut := 0, dhash := [],
    inplace := false, streams := [], flags := 0, committed := 0, status := 0, stopped := false, detail := 0,
    result := 0, phase := .running, kind := kind, replays := 0, fromJournal := false, writeRecord := true,
    noReplay := false, lostReads := [] }

def withOp (o : OpRec) (s : State) : State := { s with ops := s.ops ++ [o] }

/-! ## Power -/

def lower (n : Nat) : State := { live with power := { live.power with lowering := [(19, n)] } }
theorem test_VoltageHandshake : live.sb.vok.length = 20 ∧ live.sb.vreq.length = 20 ∧
    SMap.find live.power.lowering 19 = none ∧ SMap.find (lower 15).power.lowering 19 = some 15 ∧
    (lower 15).sb.vok[19]? = some true ∧ bit ((lower 15).regN 0x48120) 19 = false ∧ (lower 15).stopped = false ∧
    bit (live.regN 0x48020) 31 = false ∧
    (run (.islandStepConfirm 19) (lower 2)).sb.vreq[19]? = some 2 ∧
    (run (.islandStepConfirm 19) (lower 2)).sb.vok[19]? = some false ∧
    (run (.supplyFault 0) live).regN 0x48020 = 0x80000003 ∧ (run (.vokLate 19) live).regN 0x48020 = 0x80000004 ∧
    (run (.supplyFault 19) live).regN 0x48120 = 2 ^ 19 ∧ ((run (.supplyFaultEnd 19) live).island 319).supply = 15 := by
  decide +kernel
theorem test_vokRise_stopped : (let t := run (.vokRise 0) { live with stopped := true }
    (t.sb.vreq[0]?, t.domainStep 0, t.sb.vok[0]?)) = (some 0, 9, some false) ∧
    (run (.vokRise 19) { live with shut := .done }).sb.vreq[19]? = some 0 := by decide +kernel
theorem test_vokRise : (run (.vokRise 0) (sbState (fun b => { b with vok := setAt b.vok 0 false, vreq := setAt b.vreq 0 3 })
    live)).domainStep 0 = 3 := by decide +kernel

/-- Clusters 0 and 319 with the droop response on, at a depth. -/
def drooping (n : Nat) : State :=
  (setAll live [(clusterBase 0 + 0x210C, 0x10000), (clusterBase 319 + 0x210C, 0x10000)]).setIsland 319
    { Island.initial with droop := n }
theorem test_DroopResponse : (drooping 2).droopOn 319 = true ∧ ((drooping 2).island 319).droop = 2 ∧
    (setAll live [(clusterBase 5 + 0x210C, 0)]).droopOn 5 = false ∧ live.droopOn 320 = true ∧
    ((run (.droopDetect (.cluster 319)) (drooping 2)).island 319).droop = 3 ∧
    bit ((run (.droopDetect (.cluster 319)) (drooping 2)).regN (clusterBase 319 + 0x2018)) 0 = true ∧
    ((run (.droopDetect (.cluster 319)) (drooping 3)).island 319).droop = 3 ∧
    ((run (.droopDetect .control) live).island 321).droop = 1 ∧
    ((run (.droopQuiet (.cluster 319)) (drooping 3)).island 319).droop = 2 := by decide +kernel

theorem test_ControllerStaysWithinLimits : ({ live with stopped := true } : State).stopped = true ∧
    ({ live with mute := true } : State).mute = true ∧ (boot 3).bootStep < 4 ∧ (boot 11).bootStep = 11 ∧ (boot 4).stopped = false ∧
    (boot 4).mute = false ∧ 4 ≤ (boot 4).bootStep ∧ run .controlPeriod (boot 3) = boot 3 ∧
    ((run .emergencyLift (live.setIsland 319 { Island.initial with emergency := 14 })).island 319).emergency = 15 ∧
    bit ((run .calStale live).regN 0x481F8) 0 = true := by decide +kernel

/-- Interval 3 has ended at 4,000,000 ns, with 1,000 µJ raw on supply 20. -/
def metered (meas now : Nat) : State :=
  { live.setRegN 0x48190 meas with
    time := ⟨now, true, 0, 0, 0, true, true, 15⟩
    power := { live.power with held := [⟨3, [(20, 256000)], [], [], []⟩] } }
def ticketed : State := setAll live [(ticketKey 63, 0x80000005)]
theorem test_CalibrationAndTickets : Performs (metered 600 4000000) (acc 0) 0x48000 ∧ (acc 0).priv = 0 ∧
    ((metered 600 4000000).completed.find? fun i => i.number % 65536 == 3).isSome = true ∧
    ((metered 600 8000000).completed.find? fun i => i.number % 65536 == 3) = none ∧
    ((metered 600 3999999).completed.find? fun i => i.number % 65536 == 3) = none ∧
    (256000 ≤ 256000 ∧ 256000 ≤ 2 * (500 * 256) ∧ 500 * 256 < 2 * 256000) ∧
    bit (0x13F#32).toNat 8 = true ∧ bit (ticketed.regN (ticketKey 63)) 31 = true ∧
    (withOp { opr 1 0 .compute with desc := 0x50000 } ticketed).jobRuns 5 = true ∧ ticketed.jobRuns 5 = false ∧
    bit (0x80800004#32).toNat 2 = true ∧ fld (0x808004#32).toNat 8 8 + fld (0x808004#32).toNat 16 8 = 256 ∧
    (run (.measSeqWrite (acc 0) 3) (metered 1001 4000000)).gain 20
      = eighthStep (live.gain 20) (1001 * 256 * 2 ^ 14 / 256000) % 65536 ∧
    (run (.measSeqWrite (acc 0) 3) (metered 499 4000000)).gain 20 = live.gain 20 ∧
    (run (.measSeqWrite (acc 0) 3) (metered 1001 3999999)).regF 0x481F8 8 8 = 1 ∧
    answer (.ticketRelease (acc 0) 0x13F) (withOp { opr 1 0 .compute with desc := 0x50000 } ticketed) = some 0x11 ∧
    bit ((run (.ticketRelease (acc 0) 0x13F) ticketed).regN (ticketKey 63)) 31 = false ∧
    (run (.learnClear (acc 0) 4) (live.setRegN (0x48700 + 4 * 63) 9)).reg (0x48700 + 4 * 63) = 0 := by
  simp only [performs_iff]; decide +kernel

/-! ## Security -/

def mboxed (n : Nat) (f : Sec → Sec) : State := { live.setRegN 0x54400 n with sec := f live.sec }
theorem test_ServicesForUsers : Performs (mboxed 512 id) (acc 1) 0x54000 ∧ bit ((mboxed 512 id).regN 0x54104) 0 = false ∧
    (mboxed 512 id).sec.error = false ∧ Privileged (acc 1) ∧ (acc 1).priv = 1 ∧ (1#32).toNat % 256 = 1 ∧
    (1 ≤ (mboxed 512 id).mbox 0 ∧ (mboxed 512 id).mbox 0 ≤ 512) ∧ (mboxed 0 id).mbox 0 = 0 ∧ 512 < (mboxed 513 id).mbox 0 ∧
    live.fuses.killed = false ∧
    (run (.random (acc 1) 2) (mboxed 513 id)).regN 0x54104 = 0x400 ∧ (run (.random (acc 1) 2) (mboxed 0 id)).regN 0x54104 = 0x400 ∧
    (run (.selftest (acc 0) 1 .pass) (mboxed 0 id)).sec.testOk = true ∧
    (run (.attest (acc 1) 3) { mboxed 0 id with fuses := { live.fuses with killed := true } }).regN 0x54104 = 0x300 := by
  unfold Privileged; simp only [performs_iff]; decide +kernel

/-- A login without a challenge fails. -/
def loggingIn (ch : Option (List Byte)) (failed : Nat) : State :=
  { live with sec := { live.sec with challenge := ch, failed := failed } }
/-- A login against a challenge of zeros that verifies: key and signature computed in Python. -/
def ownerKey : List Byte :=
  toBE 48 0x440A72A383D95DA7660E2E3BAD26EF3AA29AEEE1E20E55FD7D41FEF098C0E44F405D393B081E4FDCF437B29FC2A2309C
    ++ toBE 48 0xEAE63662B1CCB5EC4E38F7BA0EA18566507E240306CB25CA1A7A71140A33CB6DEC6A31318FBADDF0A9AF1D377C5B7B9B
def ownerSig : List Byte :=
  toBE 48 0xE4BEB3D2DE39A1812AC8A712BAF6DB5057C94233EE276886B48B694F0FCB5B9E79296366BE63C003736BD7BB6C8AC0C9
    ++ toBE 48 0xE4BEB3D2DE39A1812AC8A712BAF6DB5057C94233EE276886B48B694F0FCB5B9E79296366BE63C003736BD7BB6C8AC0C9
def owning : State :=
  { live.putMbox (ownerKey ++ ownerSig) with
    sec := { live.sec with challenge := some (zeros 48), failed := 7 }
    fuses := { live.fuses with ownerHash := some (sha384 ownerKey) } }
theorem test_CryptoOfficerSession : Performs (loggingIn none 7) (acc 0) 0x54000 ∧
    bit ((loggingIn none 7).regN 0x54104) 0 = false ∧ (loggingIn none 7).sec.error = false ∧ (acc 0).priv = 0 ∧
    (loggingIn none 7).auditRoom = true ∧ (5#32).toNat % 256 = 5 ∧ (loggingIn none 7).sec.failed < 8 ∧
    8 ≤ (loggingIn none 8).sec.failed ∧ (loggingIn none 7).loginOk = false ∧
    (run (.coLogin (acc 0) 5) (loggingIn none 7)).regN 0x54104 = 0x500 ∧
    (run (.coLogin (acc 0) 5) (loggingIn none 7)).sec.failed = 8 ∧
    (run (.coLogin (acc 0) 5) (loggingIn none 8)).regN 0x54104 = 0x300 ∧
    (run (.coLogout (acc 0) 6) (mboxed 0 fun x => { x with session := true })).sec.session = false := by
  simp only [performs_iff]; decide +kernel

theorem test_coLogin : owning.loginOk = true ∧ Performs owning (acc 0) 0x54000 ∧ owning.sec.failed < 8 := by
  simp only [performs_iff]; decide +kernel

def session (n : Nat) : State := mboxed n fun x => { x with session := true, keys := [(15, [1]), (3, [2])] }
/-- LOAD_KEY for slot 15 with the base point, or no point at all, as the ephemeral key, on a die whose private scalar is 1.
What a wrapped key opens to takes the kernel minutes, so no test holds it: `keyUnwrap` was run on the 256-bit vector of
RFC 3394 outside. -/
def keying (eph : List Byte) : State :=
  { live.putMbox (toLE 4 15 ++ eph) with sec := { live.sec with session := true, kaPriv := zeros 48 } }
theorem test_loadKey : unwrapKey (keying []).sec.kaPriv ((keying []).mboxBytes 4 96) ((keying []).mbox 0)
      (keying []).fuses.serial.toNat ((keying []).mboxBytes 100 40) = none ∧ (keying []).mbox 0 = 15 ∧
    sharedSecret (keying []).sec.kaPriv ((keying (pointBytes basePoint)).mboxBytes 4 96) = some (toBE 48 baseX) ∧
    (run (.loadKey (acc 0) 7) (keying [])).regN 0x54104 = 0x700 := by decide +kernel
theorem test_KeysAndFuses : Performs (session 15) (acc 0) 0x54000 ∧ bit ((session 15).regN 0x54104) 0 = false ∧
    (session 15).sec.error = false ∧ (session 15).auditRoom = true ∧ (session 15).sec.session = true ∧
    (session 15).mbox 0 ≤ 15 ∧ 15 < (session 16).mbox 0 ∧ (session 0).fuses.ownerHash = none ∧
    ({ session 0 with fuses := { live.fuses with ownerHash := some [] } } : State).fuses.ownerHash ≠ none ∧
    (session 0x4B494C4C).mbox 0 = 0x4B494C4C ∧
    (run (.loadKey (acc 0) 7) (session 16)).regN 0x54104 = 0x400 ∧
    (run (.clearKey (acc 0) 8) (session 15)).sec.keys = [(3, [2])] ∧
    (run (.raiseSvn (acc 0) 11) { session 0 with sec := { (session 0).sec with svn := 5 } }).fuses.svnMin = 5 ∧
    (run (.kill (acc 0) 12) (session 0x4B494C4C)).fuses.killed = true ∧
    (run (.kill (acc 0) 12) (session 0x4B494C4D)).fuses.killed = false ∧
    (run (.fuseOwner (acc 0) 10) { session 0 with fuses := { live.fuses with ownerHash := some [] } }).regN 0x54104 = 0x800 := by
  simp only [performs_iff]; decide +kernel

theorem test_ServiceRefusals : Performs live (acc 1) 0x54000 ∧ Privileged (acc 1) ∧
    bit ((live.setRegN 0x54104 1).regN 0x54104) 0 = true ∧ bit (live.regN 0x54104) 0 = false ∧
    (0x100#32).toNat % 256 = 0 ∧ 12 < (13#32).toNat % 256 ∧ serviceLevel 12 (acc 0).priv.toNat = true ∧
    (mboxed 0 fun x => { x with error := true }).sec.error = true ∧ live.sec.session = false ∧
    answer (.rgwr (acc 1) 0x54100 1) (live.setRegN 0x54104 1) = some 0x11 ∧
    (run (.rgwr (acc 1) 0x54100 13) live).regN 0x54104 = 0x400 ∧ (run (.rgwr (acc 0) 0x54100 3) live).regN 0x54104 = 0x100 ∧
    (run (.rgwr (acc 1) 0x54100 4) live).regN 0x54104 = 0x100 ∧ (run (.rgwr (acc 0) 0x54100 12) live).regN 0x54104 = 0x200 ∧
    (run (.rgwr (acc 0) 0x54100 12) (mboxed 0 fun x => { x with error := true })).regN 0x54104 = 0x300 := by
  unfold Privileged; simp only [performs_iff]; decide +kernel

/-- Epoch 9, staged words, and an operation of queue 15 and job 5. -/
def protecting : State := setAll live [(0x56144, 9), (0x56120, 1), (0x56134, 6)]
def tasking : State := withOp { opr 1 15 .compute with desc := 0x50000 } (live.setQueue 15 { Queue.initial with
  tasks := [⟨5, none, false, false⟩, ⟨6, none, false, false⟩] })
theorem test_ProtectionEntryIsApplied : Performs protecting (acc 0) 0x56000 ∧ (acc 0).priv = 0 ∧
    (0x900FF#32).toNat / 2 ^ 16 = protecting.regF 0x56144 0 16 ∧ protecting.auditRoom = true ∧
    (0x800FF#32).toNat / 2 ^ 16 ≠ protecting.regF 0x56144 0 16 ∧ bit (protecting.regN 0x56020) 31 = false ∧
    tasking.taskRuns ((0x5000F#32).toNat % 16) ((0x5000F#32).toNat / 2 ^ 16) = true ∧
    tasking.taskRuns ((0x6000F#32).toNat % 16) ((0x6000F#32).toNat / 2 ^ 16) = false ∧
    (run (.protApply (acc 0) 0x900FF) protecting).protEntry 255 = ⟨1, 0, 0, 0, 0, 6⟩ ∧
    (run (.protApply (acc 0) 0x900FF) protecting).regF 0x56144 0 16 = 10 ∧
    (run (.protApply (acc 0) 0x800FF) protecting).regN 0x56020 = 0x80000001 ∧
    answer (.taskEnd (acc 0) 0x5000F) tasking = some 0x11 ∧
    ((run (.taskEnd (acc 0) 0x6000F) tasking).queue 15).tasks = [⟨5, none, false, false⟩] := by
  simp only [performs_iff]; decide +kernel

def auditing (configured : Bool) : State :=
  { setAll live [(0x5510C, 5), (0x55110, 2)] with audit := { live.audit with configured := configured, held := [zeros 128] } }
theorem test_AuditRingAndHeldRecords : Performs (auditing false) (acc 0) 0x55000 ∧ Privileged (acc 1) ∧
    6 ≤ (6#32).toNat ∧ (16#32).toNat ≤ 16 ∧ (auditing false).audit.configured = false ∧ (auditing true).audit.configured = true ∧
    ((5 : Word) - 2 ≤ (auditing true).auditWritten - (auditing true).reg 0x55110) ∧
    ((auditing true).auditWritten - (auditing true).reg 0x55110 < (5 : Word) - 1) ∧
    answer (.auditReadWrite (acc 1) 2) (auditing true) = some 0 ∧ answer (.auditReadWrite (acc 1) 1) (auditing true) = some 0x11 ∧
    answer (.auditReadWrite (acc 1) 6) (auditing true) = some 0x11 ∧
    (auditing false).unread + 1 ≤ 2 ^ 6 ∧ 2 ^ 6 < (setAll (auditing false) [(0x5510C, 66)]).unread + 1 ∧
    answer (.auditRingSizeWrite (acc 0) 6) (setAll (auditing false) [(0x5510C, 66)]) = some 0x11 ∧
    answer (.auditRingSizeWrite (acc 0) 16) (auditing true) = some 0x11 := by
  unfold Privileged; simp only [performs_iff]; decide +kernel
theorem test_auditRingSizeWrite : (run (.auditRingSizeWrite (acc 0) 6) (auditing false)).audit.configured = true ∧
    (run (.auditRingSizeWrite (acc 0) 6) (auditing false)).audit.held = [] := by decide +kernel

/-! ## Cluster pages, test registers, ports -/

/-- Cluster 319: handle 63 in banks 46 and 47 with 3 slots (a twin of one bank each side), window enabled, counter 5;
core 255 selected, which holds work. -/
def cl : Nat := clusterBase 319
def clustered : State :=
  (setAll live [(handleKey 319 63 0, 46 + 64 + 2 ^ 21), (handleKey 319 63 1, 160), (handleKey 319 63 4, 2 ^ 30 + 5 * 2 ^ 24),
    (cl + 0x3100, 255), (cl + 0x1C14, 9), (coreKey 81919 0x208, 0x80000001), (coreKey 81919 0x224, 7)]).setCore 81919
      { Core.idle with work := [⟨1, ⟨0, 319, 0, 1, 0, 1, 1, 1⟩, 0, 0, 1⟩] }
def testing (s : State) : State := s.setRegN 0x7F100 1
theorem test_ClusterAndTestRegisters : Privileged (acc 1) ∧ clustered.ladder 319 = 0 ∧ Performs clustered (acc 1) (cl + 0x3000) ∧
    Performs clustered (acc 1) (cl + 0x1000) ∧ (testing clustered).testUnlocked = true ∧
    clustered.selectedCore 319 = 81919 ∧ (clustered.core 81919).holdsWork = true ∧ (live.core (live.selectedCore 319)).holdsWork = false ∧
    bit (0x80000003#32).toNat 31 = true ∧
    (run (.fxStatusClear (acc 1) 319 0x80000000) clustered).regN (coreKey 81919 0x208) = 1 ∧
    (run (.rescueLogClear (acc 1) 319 0x80000000) clustered).regN (coreKey 81919 0x224) = 0 ∧
    answer (.tQuadWrite (acc 1) 319 0x80000003) (testing clustered) = some 0x11 ∧
    (run (.tQuadWrite (acc 1) 319 0x80000003) (testing live)).regN (coreKey (256 * 319) 0xF20) = 0x80000003 ∧
    genOf (run (.tagReset (acc 1) 319 0x13F) clustered) 319 63 = 1 ∧
    (run (.tagReset (acc 1) 319 0x13F) clustered).full = [slotKey 319 46 0, slotKey 319 46 1, slotKey 319 46 2,
      slotKey 319 47 0, slotKey 319 47 1, slotKey 319 47 2] ∧
    clustered.openRefused 319 63 = false ∧ clustered.openRefused 319 62 = true ∧
    answer (.winOpen (acc 1) 319 1 0x80000000) clustered = some 0 ∧ answer (.winOpen (acc 1) 319 1 0xC0000000) clustered = some 0x11 ∧
    (run (.winOpen (acc 1) 319 1 0x80000000) clustered).regN (winCountKey 319 5) = 0 := by
  unfold Privileged; simp only [performs_iff]; decide +kernel
theorem test_ClusterAndTestRegisters_inject : Performs (testing live) (acc 1) 0x1000 ∧ pageAt 0x1000 = some pgSteward ∧
    pgSteward.base = 0x1000 ∧ pgSteward.inst = 0 ∧ fld (0x80010002#32).toNat 0 4 ∈ pgSteward.kind.injKinds ∧
    Performs (testing live) (acc 1) (cl + 0x1000) ∧ (pageAt (cl + 0x1000)) = some (pgStore 319) ∧
    fld (0x80010003#32).toNat 0 4 ∈ PageKind.injKinds .store ∧
    (run (.tInjArm (acc 1) 0x1000 0x80010002) (testing live)).regN 0x1F10 = 0x80010002 ∧
    (run (.tInjArm (acc 1) 0x1000 0x80010003) (testing live)).regN 0x1F10 = 0 := by
  simp only [performs_iff]; decide +kernel
def auditFull : State := { live with audit := { live.audit with held := List.replicate 16 [] } }
theorem test_testctlUnlock : Performs live (acc 0) 0x7F000 ∧ live.testUnlocked = false ∧ live.auditRoom = true ∧
    auditFull.auditRoom = false ∧ (testing live).testUnlocked = true ∧
    answer (.testctlUnlock (acc 0) 1) auditFull = some 0x11 ∧ (run (.testctlUnlock (acc 0) 1) live).testUnlocked = true ∧
    (run (.testctlUnlock (acc 0) 0) ((testing live).setRegN 0x1F10 0x80010002)).regN 0x1F10 = 0 := by
  simp only [performs_iff]; decide +kernel
theorem test_PortRetrainAndPosition : Privileged (acc 1) ∧ Performs live (acc 1) (portKey 31 0) ∧ Performs spareLive (acc 0) 0x40000 ∧
    fld (5#32).toNat 1 2 ≠ 3 ∧ bit (5#32).toNat 0 = true ∧ bit (4#32).toNat 0 = false ∧
    ((training .repair id).port 31).train ≠ .up ∧ spareLive.admitSt = 3 ∧ live.admitSt ≠ 3 ∧
    ((run (.portRetrainRequest (acc 1) 31 5) live).port 31).train = .detect ∧
    (run (.portRetrainRequest (acc 1) 31 5) live).regN (portKey 31 0x104) = 5 ∧
    (run (.positionWrite (acc 0) 6) spareLive).pos = 6 ∧ (run (.positionWrite (acc 0) 6) spareLive).admitSt = 2 ∧
    issued (.positionWrite (acc 0) 6) spareLive = [(.flush, 15), (.rgwa, 5)] ∧
    answer (.positionWrite (acc 0) 6) live = some 0x11 := by
  unfold Privileged; simp only [performs_iff]; decide +kernel

/-! ## The journal -/

/-- Journal on, WRITTEN 5, FLOOR 3, and the ring at 1000h. -/
def journaled (r : ReplaySt) : State :=
  { setAll live [(0x4D010, 1), (0x4D10C, 5), (0x4D110, 3), (0x4D100, 0x1000)] with
    replay := r, journal := [⟨3, 2, 7, true⟩, ⟨4, 2, 8, false⟩] }
/-- An operation of queue 2 with a JOURNAL_MARK descriptor; its entry at index 4 and its ring slot as package memory has them. -/
def markDesc : Desc := 11
def markOp : OpRec :=
  { opr 9 2 .mark with desc := markDesc, dhash := descHash markDesc [] [] none, jindex := some 4, phase := .interrupted }
def place (a : Nat) (d : List Byte) : List (Nat × Byte) := (List.range d.length).map fun i => (a + i, (d[i]?).getD 0)
def entryView : HubView := { bytes := place 0x1200 (markOp.entryBytes 4) ++ [(0, 11)], status := [] }
theorem test_JournalCommands : Performs live (acc 0) 0x4D000 ∧ live.queuesOff = true ∧ live.journalOn = false ∧
    viewRange noView live.jcb 1088 = .ok ∧ (enabled .run).queuesOff = false ∧ (journaled .idle).journalOn = true ∧
    (journaled .idle).queuesOff = true ∧ (journaled .idle).admitSt = 2 ∧ spareLive.admitSt ≠ 2 ∧
    (∀ i, i < 16 → bit (bytesAt (((viewBytes noView (journaled .idle).jcb 1088).drop (64 + 64 * i)).take 64) 24 4) 0 = false) ∧
    ((journaled .idle).setRegN 0x4D110 5).written = ((journaled .idle).setRegN 0x4D110 5).floor ∧
    answer (.journalEnable (acc 0) 1 noView) (enabled .run) = some 0x11 ∧
    (run (.journalEnable (acc 0) 0 noView) (journaled .idle)).regN 0x4D010 = 0 ∧
    answer (.replayCmdStart (acc 0) 1 noView) spareLive = some 0x11 ∧
    (run (.replayCmdStart (acc 0) 1 noView) (journaled .idle)).replay = .journal 3 := by
  simp only [performs_iff]; decide +kernel
theorem test_retireWrite : Privileged (acc 1) ∧ 2 ^ 31 < (0x80000001#32 - live.reg (retireKey 2)).toNat ∧
    ¬ (2 ^ 31 < (0x80000000#32 - live.reg (retireKey 2)).toNat) ∧
    (let o := opr 1 2 .mark
     o ∈ (withOp o live).accepted ∧ o.q = 2 ∧ 1 ≤ ((8 : Word) - o.seq).toNat ∧ ((8 : Word) - o.seq).toNat ≤ 2 ^ 31 ∧
      answer (.retireWrite (acc 1) 2 8) (withOp o live) = some 0x11 ∧ answer (.retireWrite (acc 1) 2 7) (withOp o live) = some 0) ∧
    (journaled (.journal 3)).replay = .journal 3 ∧ (journaled (.failing 3 5)).replay = .failing 3 5 ∧
    answer (.retireWrite (acc 1) 2 8) (journaled (.journal 3)) = some 0x11 ∧
    (run (.retireWrite (acc 1) 2 8) (journaled .idle)).regN 0x4D110 = 4 ∧
    (run (.retireWrite (acc 1) 2 7) (journaled .idle)).regN 0x4D110 = 3 := by
  unfold Privileged; decide +kernel
theorem test_replayEntry : (journaled (.failing 3 255)).mute = false ∧ (journaled (.failing 3 255)).replay = .failing 3 255 ∧
    (journaled (.journal 5)).written = 5 ∧ (∀ o ∈ (journaled (.journal 5)).ops, o.fromJournal = false) ∧
    (journaled (.journal 4)).journal.find? (·.index == 4) = some ⟨4, 2, 8, false⟩ ∧
    (journaled (.journal 4)).entryDone ⟨4, 2, 8, false⟩ = false ∧
    ((journaled (.journal 3)).setRegN (retireKey 2) 8).entryDone ⟨3, 2, 7, true⟩ = true ∧
    entryValid (viewBytes noView 0x1200 128) 4 = false ∧
    (run (.replayEntry noView) (journaled (.journal 5))).replay = .idle ∧
    (run (.replayEntry noView) (journaled (.journal 4))).replay = .failing 4 0x31 ∧
    (run (.replayEntry noView) ((journaled (.journal 3)).setRegN (retireKey 2) 8)).replay = .journal 4 ∧
    (run (.replayEntry noView) (journaled (.failing 3 255))).regN 0x4D120 = 0xFF03 := by decide +kernel
/-- The entry at index 4 as its replay reads it again. -/
def rereads : Reread := (journaled (.journal 4)).countReplay.reread 4 entryView
theorem test_replayEntry_runs : (let r := rereads
    let u := r.st.enterEntry r.sample
    let o := u.passed r.sample r.st.nextOp (r.st.darkNext r.sample.q r.sample.desc) r.recs r.list entryView
    r.ok = true ∧ u.checkDesc r.sample r.recs r.list = none ∧ fromJournalOk o (bit (bytesAt r.entry 10 1) 5) = true ∧
      (∀ p ∈ u.ops, p.id ≠ r.st.nextOp) ∧ o.kind = .mark) ∧
    (journaled (.journal 4)).admitSt ≠ 5 ∧
    (run (.replayEntry entryView) (journaled (.journal 4))).ops.map (fun p => (p.status, p.jindex)) = [(0x30, some 4)] := by
  decide +kernel
theorem test_replayEntry_stops : (3 : Word) + w32 1 = 4 ∧ 1 < ((journaled (.failing 3 9)).written - 3).toNat ∧
    (journaled (.failing 3 9)).entryAddr 4 = 0x1200 ∧ entryValid (viewBytes entryView 0x1200 128) 4 = true ∧
    entryStatus (viewBytes entryView 0x1200 128) = 0xFF ∧ (journaled (.failing 3 9)).ops = [] ∧
    ((run (.replayEntry entryView) (journaled (.failing 3 9))).queue 2).st = .halted := by decide +kernel
def flying (o : OpRec) : State := withOp o (journaled (.flight [9]))
theorem test_replayInFlight : (flying markOp).replay = .flight (9 :: []) ∧ (flying markOp).op 9 = some markOp ∧
    markOp.phase = .interrupted ∧ markOp.kind ≠ .secure ∧ markOp.jindex = some 4 ∧ markOp.noReplay = false ∧
    ((flying markOp).countReplay.reread 4 entryView).ok = true ∧
    ((flying markOp).countReplay.reread 4 entryView).st.sameInputs markOp
      ((flying markOp).countReplay.reread 4 entryView).entry = true ∧
    ({ markOp with jindex := none } : OpRec).jindex = none ∧ entryValid (viewBytes noView 0x1200 128) 4 = false ∧
    ((run (.replayInFlight noView) (flying markOp)).op 9).map (·.status) = some 0x31 ∧
    ((run (.replayInFlight entryView) (flying markOp)).op 9).map (·.status) = some 0x30 ∧
    ((run (.replayInFlight entryView) (flying { markOp with kind := .compute })).op 9).map (·.replays) = some 1 := by
  decide +kernel

/-! ## Groups -/

/-- The concord window of group 63 is handle 0 of cluster 0, with 2 KiB; the die is member 0 and position 4 is member 1. -/
def forming (f : Group → Group) (bytes : List (Nat × Nat)) : State :=
  let s := setAll live [(0x50100, 63), (handleKey 0 0 0, 64 + 9 * 2 ^ 24), (handleKey 0 0 1, 2048), (clusterBase 0 + 0x1108, 1)]
  let s := bytes.foldl (fun (t : State) p => t.writeStore 0 0 (p.1 / 64) (p.1 % 64) (toLE 4 p.2)) s
  s.setGroup 63 (f { Group.zero with members := [0x8000FF00, 0x8000FF04] ++ List.replicate 14 0 })
def exchanging (second : Bool) (mine : List Nat) (bytes : List (Nat × Nat)) : State :=
  forming (fun g => { g with st := .forming, sent := [(1, 0)], round2 := second, mine := mine }) bytes
/-- The own die sends 0 in every word: its digest is a record's first two words. -/
def goodRecords : List (Nat × Nat) :=
  let d := concordDigest 0 0 0 0
  [(128, ofLE (d.take 4)), (132, ofLE (d.drop 4)), (128 + 24, 63 + 256), (128 + 64 + 32, 63 + 64 + 256)]
theorem test_GroupsFormExchangeAndDissolve : Performs (forming id []) (acc 1) 0x50000 ∧ Privileged (acc 1) ∧
    (forming id []).regF 0x50100 0 6 = 63 ∧ ((forming id []).group 63).st = .empty ∧ (forming id []).admitSt ≠ 3 ∧
    (((List.range 16).filter fun m => bit (((forming id []).group 63).member m) 31)).length = 2 ∧
    (((List.range 16).filter fun m => bit (((forming id []).group 63).member m) 31).filter fun m =>
      fld (((forming id []).group 63).member m) 0 4 == (forming id []).pos && fld (((forming id []).group 63).member m) 8 8 == 0xFF) = [0] ∧
    ((forming id []).group 63).cluster < 320 ∧ (forming id []).windowOpen 0 0 = true ∧ ((forming id []).handle 0 0).fmt = 9 ∧
    ((forming id []).handle 0 0).tagMode = 0 ∧ ((forming id []).handle 0 0).extent = 2048 ∧
    answer (.gCtrlForm (acc 1) 1) (forming (fun g => { g with st := .formed }) []) = some 0x11 ∧
    answer (.gCtrlForm (acc 1) 1) ((forming id []).setRegN (handleKey 0 0 1) 2047) = some 0x11 ∧
    bit (1#32).toNat 0 = true ∧ bit (1#32).toNat 1 = false ∧ bit (2#32).toNat 0 = false ∧ bit (2#32).toNat 1 = true ∧
    ((run (.gCtrlDissolve (acc 1) 2) (forming (fun g => { g with st := .formed }) [])).group 63).st = .empty := by
  unfold Privileged; simp only [performs_iff]; decide +kernel
def fencing : State := withOp (opr 1 0 (.fence 2 63 [] true)) (forming (fun g => { g with st := .fencing }) [])
theorem test_gCtrlDissolve_fence : (fencing.group 63).st ≠ .empty ∧ fencing.groupFence 63 = some 1 ∧
    (fencing.op 1).map (·.kind) = some (.fence 2 63 [] true) ∧ (opr 1 0 (.fence 2 63 [] true)).ended = false ∧
    (forming id []).groupFence 63 = none ∧
    ((run (.gCtrlDissolve (acc 1) 2) fencing).group 63).mask = 128 ∧
    ((run (.gCtrlDissolve (acc 1) 2) fencing).op 1).map (·.status) = some 0x23 := by decide +kernel
theorem test_gCtrlForm : ((run (.gCtrlForm (acc 1) 1) (forming id [])).group 63).st = .forming ∧
    issued (.gCtrlForm (acc 1) 1) (forming id []) = [(.wwr, 15), (.rgwa, 5)] ∧
    ((run (.gCtrlForm (acc 1) 1) (forming id [])).out.head?.map (·.addr)) = some (8 * 2 ^ 48 + 2 ^ 40 * 0xFF + 2 ^ 36 * 4) := by
  decide +kernel
theorem test_concordRound : ((exchanging false [] [(152, 319)]).group 63).sent ≠ [] ∧
    ((exchanging false [] [(152, 319)]).group 63).st = .forming ∧
    (∀ m ∈ ((exchanging false [] [(152, 319)]).group 63).others,
      (exchanging false [] [(152, 319)]).concordHas 63 ((exchanging false [] [(152, 319)]).group 63) m 0 = true) ∧
    (exchanging false [] []).concordHas 63 ((exchanging false [] []).group 63) 1 0 = false ∧
    run (.concordRound 63) (exchanging false [] []) = exchanging false [] [] ∧
    ((run (.concordRound 63) (exchanging false [] [(152, 319)])).group 63).round2 = true ∧
    issued (.concordRound 63) (exchanging false [] [(152, 319)]) = [(.wwr, 15)] := by decide +kernel
theorem test_concordEvaluate : (let s := exchanging true [0, 0, 0, 0] goodRecords
    (s.group 63).mask = 0 ∧ (s.group 63).peers = [1] ∧ s.concordHas 63 (s.group 63) 1 1 = true ∧
    ((run (.concordEvaluate 63) s).group 63).st = .formed ∧
    ((run (.concordEvaluate 63) (exchanging true [0, 0, 0, 5] goodRecords)).group 63).mask = 8) := by decide +kernel

/-! ## Mailbox, shutdown, watchdog -/

def mail (arg : Nat) (f : State → State) : State := f (live.setRegN 0x1204 arg)
/-- A securing descriptor as the template of R399 in package memory at 0. -/
def secureView : HubView := { bytes := [(0, 10)], status := [] }
theorem test_MailboxAndWatchdog : Performs (mail 319 id) (acc 1) 0x1000 ∧ Privileged (acc 1) ∧
    bit ((mail 0 fun s => s.setRegN 0x1208 1).regN 0x1208) 0 = true ∧ bit ((mail 319 id).regN 0x1208) 0 = false ∧
    (1#32).toNat % 256 = 1 ∧ (mail 319 id).regN 0x1204 = 319 ∧ 320 ≤ (mail 320 id).regN 0x1204 ∧
    (mail 319 fun s => s.setRegN (clusterBase 319 + 0x2104) 4).ladder 319 = 4 ∧ (mail 319 id).ladder 319 ≠ 4 ∧ ((mail 319 id).island 319).darkening = false ∧
    (mail 319 id).shut = .none ∧ (mail 319 id).bootStep = 10 ∧
    (mail 81919 id).regN 0x1204 = 81919 ∧ (mail (2 ^ 30 + 15) id).regN 0x1204 = 2 ^ 30 + 15 ∧ ((mail 0 id).queue 15).st = .disabled ∧
    (mail (2 ^ 31 + 31) id).regN 0x1204 = 2 ^ 31 + 31 ∧ ((mail 0 id).port 31).train = .up ∧
    2 ≤ (mail 2 id).regN 0x1204 ∧ (mail 1 id).regN 0x1204 < 2 ∧ (mail 1 fun s => s.setRegN 0x4010C 4).admitSt = 4 ∧
    answer (.islandReset (acc 1) 1) (mail 0 fun s => s.setRegN 0x1208 1) = some 0x11 ∧
    (run (.islandReset (acc 1) 1) (mail 320 id)).regN 0x1208 = 0x200 ∧
    (run (.islandReset (acc 1) 1) (mail 319 fun s => s.setRegN (clusterBase 319 + 0x2104) 4)).regN 0x1208 = 0x100 ∧
    (run (.islandReset (acc 1) 1) (mail 319 fun s => s.setIsland 319 { Island.initial with darkening := true })).regN 0x1208 = 0x100 ∧
    (run (.blockReset (acc 1) 2) (mail 81919 id)).regN 0x1104 = 4 + 256 * 81919 ∧
    (run (.blockReset (acc 1) 2) (mail (2 ^ 30 + 3) fun s => s.setQueue 3 { Queue.initial with st := .run })).regN 0x1208 = 0x100 ∧
    ((run (.blockReset (acc 1) 2) (mail (2 ^ 31 + 31) id)).port 31).train = .detect ∧
    (run (.shutdown (acc 1) 3 noView) (mail 2 id)).regN 0x1208 = 0x200 ∧
    (run (.shutdown (acc 1) 3 noView) (mail 1 fun s => s.setRegN 0x4010C 4)).regN 0x1208 = 0x100 ∧
    (run (.shutdown (acc 1) 3 noView) (mail 0 id)).shut = .stopping := by
  unfold Privileged; simp only [performs_iff]; decide +kernel
theorem test_islandReset : (run (.islandReset (acc 1) 1) (mail 319 id)).regN 0x1104 = 3 + 256 * 319 ∧
    (run (.islandReset (acc 1) 1) (mail 319 id)).regN 0x1208 = 0 := by decide +kernel
/-- SHUTDOWN with a securing on queue 3. -/
def closing : State := mail 1 fun s => (s.setRegN 0x4C114 0x30).setQueue 3 { Queue.initial with st := .run }
theorem test_shutdown : viewRange secureView (closing.regN 0x4C118 + 2 ^ 32 * closing.regN 0x4C11C) 64 = .ok ∧
    Desc.opcode (BitVec.ofNat 512 (ofLE (viewBytes secureView 0 64))) = 10 ∧ closing.securing = none ∧
    closing.regF 0x4C114 4 4 = 3 ∧ (closing.queue 3).st = .run ∧
    (run (.shutdown (acc 1) 3 secureView) closing).shut = .securing ∧
    ((run (.shutdown (acc 1) 3 secureView) closing).queue 3).ahead = some 10 := by decide +kernel
def finishing : State := { live with shut := .stopping, shutResult := 3 }
theorem test_shutdownFinish : finishing.shut = .stopping ∧ finishing.ops = [] ∧
    (∀ w ∈ finishing.openList, finishing.windowBusy w.1 w.2 = false) ∧ finishing.replay = .idle ∧ finishing.shutResult < 2 ^ 16 ∧
    ({ finishing with replay := .stopped } : State).replay = .stopped ∧ live.shut ≠ .stopping ∧
    run .shutdownFinish (withOp (opr 1 0 .compute) finishing) = withOp (opr 1 0 .compute) finishing := by decide +kernel
theorem test_watchdogExpiry : (live.setRegN 0x1140 0).regF 0x1140 0 16 = 0 ∧ live.regF 0x1140 0 16 ≠ 0 ∧ live.mute = false ∧
    (∃ o ∈ (withOp (opr 1 0 .compute) live).ops, 0 ∈ o.holds) ∧ live.ladder 0 ≠ 4 ∧ live.shut = .none ∧ live.bootStep = 10 ∧
    bit (live.regN 0x1020) 31 = false ∧
    (run (.watchdogExpiry 0) (withOp (opr 1 0 .compute) live)).regN 0x1020 = 0x80000002 := by decide +kernel

/-! ## Heat and health -/

/-- Sensor 63 at 124.75 °C, 125 °C and beyond 150 °C, and at −40 °C (R385): readings count in 0.25 °C. -/
def readings (x : Option Int) : List (Option Int) := List.replicate 63 none ++ [x]
def warm (l : List Nat) : State := { live with therm := { hot := l } }
theorem test_HeatLadderAndHealth : (readings (some 600))[63]? = some (some 600) ∧ (readings (some 601))[63]? = some (some 601) ∧
    (readings none)[63]? = some none ∧ (readings none)[64]? = none ∧ live.sensorFailed 63 = false ∧
    (run (.thermalSample (readings (some (-160)))) live).regN 0x492FC = 2048 - 160 ∧
    (run (.thermalSample (readings (some 499))) (warm [63])).therm.hot = [] ∧
    (run (.thermalSample (readings (some 500))) live).therm.hot = [63] ∧
    (run (.thermalSample (readings (some 500))) live).stopped = false ∧
    (run (.thermalSample (readings (some 500))) (warm [63])).stopped = true ∧
    (run (.thermalSample (readings (some 601))) live).sensorFailed 63 = true ∧
    bit ((run (.thermalSample (readings (some 480))) live).regN 0x49018) 2 = true ∧
    bit ((run (.thermalSample (readings (some 479))) live).regN 0x49018) 2 = false := by decide +kernel
def throttling : State := setAll live [(0x49118, 2 ^ 31), (0x492FC, 400), (0x49100, 95), (0x49104, 5)]
theorem test_throttleStep : throttling.throttled 63 = true ∧ live.throttled 63 = false ∧ throttling.sensorFailed 63 = false ∧
    throttling.tempOf 63 = 400 ∧ 4 * ((throttling.regF 0x49100 0 8 : Int) - (throttling.regF 0x49104 0 4 : Int)) = 360 ∧
    live.tempOf 63 ≤ 360 ∧ (setAll live [(0x49120, 2 ^ 31)]).sensorFailed 63 = true ∧ bit (live.regN 0x49020) 31 = false ∧
    sensorOf 319 = 63 ∧ ((run (.throttleStep 63) throttling).island 319).thermal = 14 ∧
    ((run (.throttleReleaseStep 63) throttling).island 319).thermal = 15 ∧
    ((run (.throttleReleaseStep 63) ((throttling.setRegN 0x492FC 360).setIsland 319 { Island.initial with thermal := 7 })).island
      319).thermal = 8 ∧
    (run (.sensorTimeout 63) throttling).regN 0x49020 = 0x80000001 := by decide +kernel
def ladderAt (state ctrl : Nat) : State := setAll live [(clusterBase 319 + 0x2104, state), (clusterBase 319 + 0x2108, ctrl)]
theorem test_islandLadder : (ladderAt 0 1).ladder 319 = 0 ∧ (ladderAt 0 1).islandIdle 319 = true ∧ (ladderAt 0 1).waiting 319 = [] ∧
    (ladderAt 0 1).regF (clusterBase 319 + 0x2108) 0 2 ≠ 0 ∧ (ladderAt 0 0).regF (clusterBase 319 + 0x2108) 0 2 = 0 ∧
    (ladderAt 2 2).ladder 319 = 2 ∧ (ladderAt 2 2).regF (clusterBase 319 + 0x2108) 0 2 = 2 ∧ (ladderAt 2 1).mute = false ∧
    (ladderAt 3 2).ladder 319 = 3 ∧ ({ ladderAt 3 2 with mute := true } : State).mute = true ∧
    ((ladderAt 3 2).island 319).darkening = false ∧ (ladderAt 3 2).bank (bankKey 319 47) = .on ∧ (ladderAt 3 2).wanted 319 47 = 0 ∧
    (((ladderAt 3 2).setRegN (clusterBase 319 + 0x100) 0x800).wanted 319 47) = 1 ∧
    (run (.islandStillEntry 319) (ladderAt 0 1)).ladder 319 = 2 ∧ (run (.islandKeepEntry 319) (ladderAt 2 2)).ladder 319 = 3 ∧
    (run (.islandWake 319) (ladderAt 3 2)).ladder 319 = 0 := by decide +kernel
theorem test_coolstop : live.stopped = false ∧ (run .coolstopCcc { live with stopped := true }).regN 0x4910C = 2 := by decide +kernel
/-- RISK was 63 and 127, and 5 corrected errors at 64 each score 255; their weight is 15. -/
def risky (old : Nat) : State :=
  { setAll (closing) [(0x4C100, old), (0x4C104, 15), (0x4C108, 64), (0x4C114, 0x31)] with
    health := { live.health with ce := 5 } }
theorem test_healthEvaluation : ({ live with stopped := true } : State).stopped = true ∧ (risky 63).stopped = false ∧
    (risky 63).mute = false ∧ (risky 63).health.alertArmed = true ∧ (risky 127).health.secureArmed = true ∧
    (risky 63).scores = [255, 0, 0, 0, 0, 0, 0] ∧ (risky 63).regF 0x4C110 0 8 = 64 ∧ (risky 127).regF 0x4C110 8 8 = 128 ∧
    bit ((risky 127).regN 0x4C114) 0 = true ∧ (risky 127).regF 0x4C114 4 4 = 3 ∧ ((risky 127).queue 3).st = .run ∧
    (run (.healthEvaluation secureView) (risky 63)).regF 0x4C100 0 8 = 255 ∧
    bit ((run (.healthEvaluation secureView) (risky 63)).regN 0x4C018) 0 = true ∧
    ((run (.healthEvaluation secureView) (risky 127)).queue 3).ahead = some 10 := by decide +kernel

/-! ## Acceptance -/

/-- Queue 15 in run, with rings of 16 and a descriptor read ahead. -/
def queued (d : Option Desc) : State :=
  setAll (live.setQueue 15 { Queue.initial with st := .run, held := d })
    [(queueKey 15 0x108, 4), (queueKey 15 0x128, 4), (queueKey 15 0x10, 1), (queueKey 15 0x10C, 1), (queueKey 15 0x100, 0x4000)]
theorem test_DescriptorsAreAccepted : (queued (some 11)).nextDesc 15 = some 11 ∧ (11 : Desc).opcode = 11 ∧
    (queued (some 11)).turnOf = some 15 ∧ reservedBit 11 11 = none ∧ (queued (some 11)).darkClusters = [] ∧
    ((queued (some 11)).queue 15).tasks = [] ∧ (14 : Desc).opcode = 14 ∧ (0 : Desc).opcode = 0 ∧
    (reservedBit (BitVec.ofNat 512 (2 ^ 256 + 11)) 11).isSome = true ∧ bit (live.regN 0x2020) 31 = false ∧
    (queued none).nextDesc 15 = none ∧ (queued none).shut = .none ∧
    (queued none).reg (queueKey 15 0x10C) ≠ (queued none).reg (queueKey 15 0x110) ∧ (queued none).bootStep = 10 ∧
    (live.queue 15).st ≠ .run ∧ (enabled .halted).turnOf = none ∧
    ((run (.journalMark 15 noView) (queued (some 11))).op 0).map (·.status) = some 0 ∧
    ((run (.descriptorRead 15) (queued (some 14))).op 0).map (·.status) = some 0x12 ∧
    ((run (.journalMark 15 noView) (queued (some (BitVec.ofNat 512 (2 ^ 256 + 11))))).op 0).map (·.status) = some 0x12 ∧
    (run (.signal 15 noView) (queued (some 11))) = queued (some 11) ∧
    issued (.descriptorRead 15) (queued none) = [(.rd, 23)] := by decide +kernel
theorem test_DescriptorsAreAccepted_opcodes : ∀ n ∈ [1, 2, 3, 4, 5, 6, 7, 8, 9, 10, 12, 13],
    Desc.opcode (BitVec.ofNat 512 n) = n ∧ (queued (some (BitVec.ofNat 512 n))).turnOf = some 15 := by decide +kernel

/-- A descriptor: its opcode, its mode word and fields from further words on (R135 to R152). -/
def desc (op mode : Nat) (fs : List (Nat × Nat)) : Desc :=
  BitVec.ofNat 512 ((fs.map fun f => f.2 * 2 ^ (32 * f.1)).sum + 2 ^ 32 * mode + op)
def handleRef (h : Nat) : Nat := 2 ^ 62 + h
/-- Queue 15 works on cluster 5 with handles 1 to 3 in QH16, of one bank each and 64 bytes with rows of 8 bytes; handle 1
holds an image of 2 × 1 × 3 × 1. Its jobs may read, write and send to memory, windows and messages. -/
def ready (f : State → State) (d : Desc) : State :=
  let h (i : Nat) : List (Nat × Nat) :=
    [(handleKey 5 i 0, i + 64 + 7 * 2 ^ 24), (handleKey 5 i 1, 64), (handleKey 5 i 2, 8), (handleKey 5 i 5, 2 + 2 ^ 16),
      (handleKey 5 i 6, 3 + 2 ^ 16)]
  let s := setAll (queued (some d)) ([(queueKey 15 0x140, 5 + 2 ^ 16)] ++ h 1 ++ h 2 ++ h 3)
  let all (hi : Word) : ProtEntry := ⟨0x80008000, 0xFFFF0000, 0, hi, 0xFFFFFFFF, 7⟩
  f { s with prot := [(0, all 0), (1, all 0x80000), (2, all 0xF0000)] }
/-- The operation that a descriptor on queue 15 becomes, and what R137's checks leave behind. -/
def enters (f : State → State) (d : Desc) : State × OpRec := (ready f d).enterNext 15 d noView
def Passes (f : State → State) (d : Desc) (code : Nat) : Prop :=
  (ready f d).nextDesc 15 = some d ∧ d.opcode = code ∧ (ready f d).turnOf = some 15 ∧ (enters f d).2.kind ≠ .failed ∧
    ∀ p ∈ (enters f d).1.ops, p.id ≠ (ready f d).nextOp
/-- Scales of 1, M = 2, N = `n` and K = 3. -/
def scaled (n : Nat) : List (Nat × Nat) := [(8, 0x3FC00000), (9, 0x3FC00000), (10, 2 + 2 ^ 20 * n + 2 ^ 40 * 3)]
def abc : List (Nat × Nat) := [(2, handleRef 1), (4, handleRef 2), (6, handleRef 3)]
def matmulDesc (n : Nat) : Desc := desc 1 0x777 (abc ++ scaled n)
/-- A kernel of 1 × 1 and 4 output channels. -/
def convDesc (n : Nat) : Desc := desc 2 0x777 (abc ++ [(8, 0x3FC00000), (9, 0x3FC00000), (10, 2 ^ 28 * n)])
def elementwiseDesc (n : Nat) : Desc := desc 4 0x777
  [(2, handleRef 1), (6, handleRef 3), (8, 0x3FC00000), (9, 0x3FC00000), (10, 2 + 2 ^ 20 * n)]
def moveDesc (n : Nat) : Desc := desc 5 0x707 [(2, handleRef 1), (6, handleRef 3), (10, 2 + 2 ^ 20 * n)]
/-- A list at 0 in package memory, whose entries name handle 1 for A and B and handle 3 for C. -/
def batchedDesc (n : Nat) : Desc := desc 3 0x777 ([(4, n)] ++ scaled 4)
def listView : HubView :=
  { bytes := place 0 (toLE 8 (handleRef 1) ++ toLE 8 (handleRef 1) ++ toLE 8 (handleRef 3) ++ toLE 8 0), status := [] }
theorem noMarks {s : State} (h : s.cores = []) (n : Nat) : ∀ c, ∀ m ∈ (s.core c).marks, m.op ≠ n := by
  intro c m hm
  simp [State.core, h, SMap.getD, SMap.find, Core.idle] at hm
theorem test_compute : ∀ x ∈ [(1, matmulDesc), (2, convDesc), (4, elementwiseDesc), (5, moveDesc)],
    Passes id (x.2 4) x.1 ∧ (enters id (x.2 4)).2.slivers.map (·.cluster) = [5] ∧ (enters id (x.2 4)).1.cores = [] ∧
      Passes id (x.2 0) x.1 ∧ (enters id (x.2 0)).2.slivers = [] := by unfold Passes; decide +kernel
theorem test_compute_batched : Passes id (batchedDesc 0) 3 ∧ (enters id (batchedDesc 0)).2.slivers = [] ∧
    (let x := (ready id (batchedDesc 1)).enterNext 15 (batchedDesc 1) listView
     x.2.kind = .compute ∧ x.2.slivers.map (·.cluster) = [5] ∧ x.1.cores = [] ∧ x.1.ops = []) := by
  unfold Passes; decide +kernel
theorem test_matmul : ((run (.matmul 15 noView) (ready id (matmulDesc 4))).core (5 * 256)).work.map
      (fun w => (w.op, w.next)) = [(0, 0)] ∧
    ((run (.move 15 noView) (ready id (moveDesc 0))).op 0).map (·.phase) = some .finished := by decide +kernel
/-- To cluster 9 of the position 2's window 3, 64 bytes each. -/
def windowDesc (len : Nat) : Desc :=
  desc 6 7 [(2, handleRef 1), (6, 8 * 2 ^ 48 + 2 * 2 ^ 36 + 9 * 2 ^ 27 + 3 * 2 ^ 21), (8, len)]
theorem test_windowWrite : Passes id (windowDesc 64) 6 ∧ (enters id (windowDesc 64)).2.kind = .window [(5, 0)] [] [] ∧
    ((enters id (windowDesc 64)).2.entries.head?.map (·.a)) = some (.handle 1 false) ∧
    Passes id (windowDesc 0) 6 ∧ (enters id (windowDesc 0)).2.kind = .window [] [] [] ∧
    ((run (.windowWrite 15 noView) (ready id (windowDesc 64))).waiting 5).map (·.dest) = [.winSource 0 0] ∧
    ((run (.windowWrite 15 noView) (ready id (windowDesc 0))).op 0).map (·.phase) = some .finished := by
  unfold Passes; decide +kernel
/-- Counter 5 of cluster 319, with the window of `clustered` that is linked to it, or without. -/
def waitDesc (close target : Nat) : Desc := desc 7 close [(2, 319 + 5 * 2 ^ 16), (3, target), (4, 7)]
def linked (s : State) : State :=
  (setAll s [(handleKey 319 63 0, 46 + 64 + 2 ^ 21), (handleKey 319 63 1, 160), (handleKey 319 63 4, 2 ^ 30 + 5 * 2 ^ 24),
    (winCountKey 319 5, 9)]).setWindow 319 63 true
theorem test_waitCount : Passes id (waitDesc 0 0) 7 ∧ (enters id (waitDesc 0 0)).2.kind = .wait 319 5 0 7 false none false ∧
    (enters id (waitDesc 0 0)).1.windowOf 319 5 = none ∧
    Passes linked (waitDesc 1 9) 7 ∧ (enters linked (waitDesc 1 9)).2.kind = .wait 319 5 9 7 true none false ∧
    (enters linked (waitDesc 1 9)).1.windowOf 319 5 = some 63 ∧ (enters linked (waitDesc 1 9)).1.regN (winCountKey 319 5) = 9 ∧
    Passes linked (waitDesc 0 10) 7 ∧
    ((run (.waitCount 15 noView) (ready id (waitDesc 0 0))).op 0).map (fun o => (o.phase, o.result)) = some (.finished, 0) ∧
    (run (.waitCount 15 noView) (ready linked (waitDesc 1 9))).closing = [20479] := by unfold Passes; decide +kernel
def signalDesc : Desc := desc 8 0 [(2, 0xF * 2 ^ 48), (4, 0x1234)]
theorem test_signal : Passes id signalDesc 8 ∧ issued (.signal 15 noView) (ready id signalDesc) = [(.flush, 23)] := by
  unfold Passes; decide +kernel
def withGroup (st : GroupSt) (s : State) : State := withOp (opr 77 15 .compute)
  ((s.setRegN (queueKey 15 0x10) 0x101).setGroup 63 { Group.zero with st := st })
theorem test_fence : Passes id (desc 9 0 []) 9 ∧ (enters id (desc 9 0 [])).2.kind = .fence 0 0 [] false ∧
    Passes (withGroup .empty) (desc 9 1 []) 9 ∧ (enters (withGroup .empty) (desc 9 1 [])).2.kind = .fence 1 0 [77] false ∧
    Passes (withGroup .degraded) (desc 9 0x3F02 []) 9 ∧ ((enters (withGroup .degraded) (desc 9 0x3F02 [])).1.group 63).st = .degraded ∧
    Passes (withGroup .formed) (desc 9 0x3F02 []) 9 ∧ (enters (withGroup .formed) (desc 9 0x3F02 [])).2.kind = .fence 2 63 [77] false ∧
    ((enters (withGroup .formed) (desc 9 0x3F02 [])).1.group 63).st = .formed ∧
    ((enters (withGroup .formed) (desc 9 0x3F02 [])).1.op 77).isSome = true ∧
    ((run (.fence 15 noView) (ready (withGroup .formed) (desc 9 0x3F02 []))).group 63).st = .fencing ∧
    ((run (.fence 15 noView) (ready (withGroup .degraded) (desc 9 0x3F02 []))).op 0).map (·.status) = some 0x22 := by
  unfold Passes; decide +kernel
def keyed (s : State) : State := { s with sec := { s.sec with keys := [(0, [1])] } }
def secureDesc : Desc := desc 10 0 [(2, 0x1000), (6, 0x8000)]
def scrubDesc (dark : Nat) : Desc := desc 13 dark [(2, 4), (4, 5 + 2 ^ 16)]
theorem test_secureState_scrub : Passes keyed secureDesc 10 ∧ Passes id (desc 12 0 [(2, 0x1000), (4, 0x8000)]) 12 ∧
    Passes id (scrubDesc 0) 13 ∧ (enters id (scrubDesc 1)).2.kind = .scrub 4 5 1 true ∧
    (run (.secureState 15 noView) (ready keyed secureDesc)).securing.map (fun y => (y.op, y.clusters)) = some (0, [5]) ∧
    ((run (.scrub 15 noView) (ready id (scrubDesc 1))).handle 5 2).power = 2 ∧
    (run (.scrub 15 noView) (ready id (scrubDesc 0))).regN (handleKey 5 2 7) = 1 := by unfold Passes; decide +kernel

/-! ## Responses -/

/-- A transaction awaits its response on port 31 with tag 4095. -/
def awaiting (op : TxnOp) (words : Nat) (why : Purpose) (s : State) : State :=
  { s with outst := [⟨31, op, 4095, 3, 0x1000, words, why, none⟩] }
def reading : State := live.setQueue 15 { Queue.initial with st := .run, reading := true }
theorem test_ResponsesEndTheirTransactions : live.mute = false ∧
    (∀ y ∈ (awaiting .rd 16 (.descRead 15 false) reading).outst, y.held = none) ∧
    (awaiting .rd 16 (.descRead 15 false) reading).findOutst 31 0 (4095#12).toNat =
      some ⟨31, .rd, 4095, 3, 0x1000, 16, .descRead 15 false, none⟩ ∧
    (reading.queue 15).st = .run ∧ (reading.queue 15).reading = true ∧ (0x10#8) ≠ 0 ∧ (0x10#8) ≠ 0xF0 ∧
    (withOp (opr 1 0 .compute) live).wants 1 = true ∧ bit ((withOp (opr 1 0 .compute) live).regN 0xF10) 31 = false ∧
    live.op 1 = none ∧
    (awaiting .atom 2 (.atomic 1) live).findOutst 31 0 4095 = some ⟨31, .atom, 4095, 3, 0x1000, 2, .atomic 1, none⟩ ∧
    ((run (.rdr 31 4095 0 [9]) (awaiting .rd 16 (.descRead 15 false) reading)).queue 15).held = some 9 ∧
    ((run (.rdr 31 4095 0xF0 []) (awaiting .rd 16 (.descRead 15 false) reading)).outst.map (·.purpose)) = [.descRead 15 true] ∧
    ((run (.rdr 31 4095 0xF0 []) (awaiting .rd 16 (.descRead 15 true) reading)).queue 15).halt = 0x10 ∧
    (run (.rdr 31 4095 0 [1, 2, 3, 4, 5, 6, 7, 8]) (awaiting .rd 2 (.stage 1 319)
      (withOp (opr 1 0 .compute) live))).stagedByte 319 1 0x1007 = some 8 := by decide +kernel
theorem test_atr : (let s := awaiting .atom 2 (.atomic 1) (withOp (opr 1 0 .compute) live)
    s.op 1 = some (opr 1 0 .compute) ∧ s.coresBusy 1 = false ∧ s.accessesOf 1 = false ∧
      (s.outst.head?.map fun x => (s.dropOutst x).waitsFor 1) = some false ∧
      ((run (.atr 31 4095 0 (zeros 8)) s).op 1).map (fun o => (o.phase, o.status)) = some (.finished, 0) ∧
      ((run (.atr 31 4095 0x10 []) s).op 1).map (fun o => (o.stopped, o.status)) = some (true, 0x10)) := by decide +kernel
def winOp (todo sent acked : List (Nat × Nat)) : State := withOp (opr 1 0 (.window todo sent acked)) live
theorem test_wack : (awaiting .wwr 16 (.windowWrite 1 319 64) (winOp [] [(319, 64)] [])).findOutst 31 2 4095 =
      some ⟨31, .wwr, 4095, 3, 0x1000, 16, .windowWrite 1 319 64, none⟩ ∧
    ((winOp [] [(319, 64)] []).op 1).map (·.kind) = some (.window [] [(319, 64)] []) ∧
    (((fencing.group 63).st = .fencing) ∧ (1 : Nat) / 2 = (fencing.group 63).exchange) ∧
    ((run (.wack 31 4095 0) (awaiting .wwa 16 (.windowWrite 1 319 64) (winOp [(0, 0)] [(319, 64)] []))).op 1).map (·.kind) =
      some (.window [(0, 0)] [] [(319, 64)]) ∧
    ((run (.wack 31 4095 0x21) (awaiting .wwr 16 (.windowWrite 1 319 64) (winOp [] [(319, 64)] []))).op 1).map (·.status) = some 0x21 ∧
    ((run (.wack 31 4095 0x21) (awaiting .wwr 16 (.concord 63 1 1) fencing)).group 63).mask = 64 := by decide +kernel
def busyVec (n : Nat) : State := { live.setRegN (0x20C + 16 * 31) n with vecBusy := [31] }
theorem test_mack : (awaiting .msg 2 (.vector 31) (busyVec 2)).findOutst 31 3 4095 = some ⟨31, .msg, 4095, 3, 0x1000, 2, .vector 31, none⟩ ∧
    bit ((busyVec 2).regN (0x20C + 16 * 31)) 1 = true ∧ bit ((busyVec 2).regN (0x20C + 16 * 31)) 0 = false ∧
    bit ((busyVec 0).regN (0x20C + 16 * 31)) 1 = false ∧
    ((withOp (opr 1 0 (.signal true false)) live).op 1).map (fun o => (o.ended, o.stopped)) = some (false, false) ∧
    (run (.mack 31 4095 0) (awaiting .msg 2 (.vector 31) (busyVec 0))).vecBusy = [] ∧
    issued (.mack 31 4095 0) (awaiting .msg 2 (.vector 31) (busyVec 2)) = [(.flush, 15)] ∧
    ((run (.mack 31 4095 0x22) (awaiting .msg 2 (.signal 1) (withOp (opr 1 0 (.signal true false)) live))).op 1).map (·.status) = some 0x22 := by
  decide +kernel
theorem test_flack : (awaiting .flush 1 (.vectorFlush 31) live).findOutst 31 0 4095 = some ⟨31, .flush, 4095, 3, 0x1000, 1, .vectorFlush 31, none⟩ ∧
    ({ opr 1 7 (.signal false false) with phase := .flushing 2 } : OpRec).phase = .flushing (0 + 2) ∧
    (withOp (opr 1 7 (.signal false false)) live).op 1 = some (opr 1 7 (.signal false false)) ∧
    issued (.flack 31 4095 0) (awaiting .flush 1 (.vectorFlush 31) live) = [(.msg, vectorPort 31)] ∧
    (run (.flack 31 4095 0) (awaiting .flush 1 (.jcbFlush 9) live)).jfloor = 9 ∧
    issued (.flack 31 4095 0) (awaiting .flush 1 (.sideFlush 0x14 6) live) = [(.msg, 15)] ∧
    issued (.flack 31 4095 0) (awaiting .flush 1 (.signalFlush 1) (withOp (opr 1 7 (.signal false false)) live)) = [(.msg, 15)] ∧
    ((run (.flack 31 4095 0) (awaiting .flush 1 (.doneFlush 1)
      (withOp { opr 1 7 (.signal false false) with phase := .flushing 2 } live))).op 1).map (·.phase) = some (.flushing 1) := by decide +kernel
/-- The header of a failed write to 1000h with tag 4095 on stream 3. -/
def errHdr : HdrWords := ⟨0x3FFF003A, 0x1000, 0, 0, 0⟩
theorem test_huberr : (fld errHdr.w0.toNat 16 12 = 4095 ∧ fld errHdr.w0.toNat 28 4 = 3) ∧ live.findPosted 31 4095 3 0x1000 = none ∧
    (awaiting .wr 1 (.opWrite 1 0 0 0) (withOp (opr 1 0 .compute) live)).findPosted 31 4095 3 0x1000 =
      some ⟨31, .wr, 4095, 3, 0x1000, 1, .opWrite 1 0 0 0, none⟩ ∧
    (opr 1 0 .compute).stopped = false ∧ (reading.queue 15).st = .run ∧
    ((run (.huberr 31 errHdr) (awaiting .wr 1 (.opWrite 1 0 0 0) (withOp (opr 1 0 .compute) live))).op 1).map (·.status) = some 0x10 ∧
    ((run (.huberr 31 errHdr) (awaiting .wr 1 (.record 15 7) reading)).queue 15).halt = 0x10 ∧
    bit ((run (.huberr 31 errHdr) live).regN (portKey 31 0x18)) 3 = true := by decide +kernel

/-! ## Completion -/

def ending (f : OpRec → OpRec) (k : OpKind) : State :=
  setAll (withOp (f (opr 1 15 k)) (live.setQueue 15 { Queue.initial with st := .run }))
    [(queueKey 15 0x128, 4), (queueKey 15 0x12C, 0xFFFFFFFF), (queueKey 15 0x130, 0xFFFFFFF0)]
def done (o : OpRec) : OpRec := { o with phase := .finished, streams := [(3, 2)] }
theorem test_OperationsComplete : ((ending done .compute).op 1).map (·.phase) = some .finished ∧
    (∀ x ∈ (ending done .compute).ops, ∀ n, x.phase ≠ .flushing n) ∧ (ending done .compute).outst = [] ∧
    (ending done .compute).mute = false ∧ (ending done .slot).cplRoom 15 = true ∧
    (∃ x ∈ (withOp { opr 2 15 .compute with phase := .flushing 1 } (ending done .compute)).ops, x.q = 15 ∧ x.phase = .flushing 1) ∧
    (awaiting .flush 1 (.journalFlush 1) (ending done .compute)).outst.map (·.purpose) = [.journalFlush 1] ∧
    (ending id .compute).op 1 = some (opr 1 15 .compute) ∧ (opr 1 15 .compute).phase ≠ .finished ∧
    (∀ i ∈ [2, 3], (ending id (.fence 1 0 [2, 3] false)).op i = none) ∧
    issued (.operationCompletion 1) (ending done .compute) = [(.flush, 3), (.flush, 23)] ∧
    run (.operationCompletion 1) (withOp { opr 2 15 .compute with phase := .flushing 1 } (ending done .compute)) =
      withOp { opr 2 15 .compute with phase := .flushing 1 } (ending done .compute) ∧
    ((run (.operationCompletion 1) (ending id (.fence 1 0 [2, 3] false))).op 1).map (·.phase) = some (.flushing 1) := by
  refine ⟨?_, fun x hx n => ?_, ?_⟩
  · decide +kernel
  · have h : (ending done .compute).ops = [done (opr 1 15 .compute)] := by decide +kernel
    rw [h] at hx
    simp only [List.mem_singleton] at hx
    subst hx
    simp [done]
  · decide +kernel
def flushingOp (status : Nat) (desc : Desc) (o : OpRec) : OpRec :=
  { o with phase := .flushing 1, status := status, desc := desc, wrote := [20479] }
theorem test_OperationsComplete_record :
    (awaiting .flush 1 (.doneFlush 1) (ending (flushingOp 0x31 0) .compute)).findOutst 31 0 4095 =
      some ⟨31, .flush, 4095, 3, 0x1000, 1, .doneFlush 1, none⟩ ∧
    (flushingOp 0x31 0 (opr 1 15 .compute)).jindex = none ∧ (flushingOp 0x31 0 (opr 1 15 .compute)).writeRecord = true ∧
    (flushingOp 0x31 0 (opr 1 15 .compute)).wrote.Nodup ∧ halting live 0x31 = true ∧
    ((ending id .compute).queue 15).tasks = [] ∧
    (let t := run (.flack 31 4095 0) (awaiting .flush 1 (.doneFlush 1) (ending (flushingOp 0x31 0) .compute))
     t.op 1 = none ∧ t.regN (queueKey 15 0x12C) = 0 ∧ t.regN (queueKey 15 0x148) = 7 ∧ (t.queue 15).halt = 0x31 ∧
      genOf t 319 63 = 1 ∧ t.outst.map (fun y => (y.port, y.addr)) = [(23, 240)]) := by decide +kernel
/-- The same of an operation with entry 4 of the journal: its entry is marked done first (R406). -/
def markingOp (o : OpRec) : OpRec := { flushingOp 0 0 o with jindex := some 4 }
theorem test_OperationsComplete_journal : Unarmed (ending markingOp .compute) 0x4D000 ∧
    issued (.flack 31 4095 0) (awaiting .flush 1 (.doneFlush 1) (ending markingOp .compute)) = [(.wr, 15), (.flush, 15)] ∧
    ((run (.flack 31 4095 0) (awaiting .flush 1 (.doneFlush 1) (ending markingOp .compute))).outst.map (·.purpose)).getLast? =
      some (.journalFlush 1) ∧
    (run (.flack 31 4095 0) (awaiting .flush 1 (.journalFlush 1) (ending markingOp .compute))).op 1 = none := by
  unfold Unarmed; decide +kernel
def waiting (timeout : Word) (close : Bool) (f : State → State) : State :=
  f (withOp (opr 1 0 (.wait 319 5 9 timeout close none false)) clustered)
theorem test_waitCountTimeout : (waiting 0 false id).op 1 = some (opr 1 0 (.wait 319 5 9 0 false none false)) ∧
    (opr 1 0 (.wait 319 5 9 7 false none false)).phase = .running ∧
    (waiting 7 true id).windowOf 319 5 = none ∧
    (waiting 7 true fun s => s.setWindow 319 63 true).windowOf 319 5 = some 63 ∧
    run (.waitCountTimeout 1) (waiting 0 false id) = waiting 0 false id ∧
    ((run (.waitCountTimeout 1) (waiting 7 true id)).op 1).map (fun o => (o.status, o.result)) = some (0x13, 9) ∧
    (run (.waitCountTimeout 1) (waiting 7 true fun s => s.setWindow 319 63 true)).closing = [20479] := by decide +kernel

/-! ## Cores -/

/-- A MATMUL of one element of format 6 with QI32 accumulation, from handles 0 and 1 to handle 2, in cluster 319. -/
def mmDesc : Desc := BitVec.ofNat 512 (1 + 2 ^ 32 * (6 + 6 * 16 + 9 * 256 + 2 ^ 12))
def mmEntry : Entry := ⟨0, 1, 1, 1, .handle 0 false, .handle 1 false, .handle 2 false⟩
def mmSliver : Sliver := ⟨0, 319, 0, 1, 0, 1, 8, 8⟩
def mmOp (d : Desc) (e : Entry) : OpRec := { opr 1 0 .compute with desc := d, entries := [e], slivers := [mmSliver], holds := [319] }
def mmTile : Tile :=
  { op := 1, sliver := mmSliver, t := 0, first := true, accs := [], k0 := 0, g := 0, k1 := 0, walked := false, round := 0,
    clock := 0, busy := false, vec := 0, loaded := false, erefs := [], parts := [], fx := [], exc := 0, ecA := 255,
    ecB := 255, reruns := 0, lastOp := 0, stop := false, entry := false, complete := false }
def coreAt (o : OpRec) (c : Core) : State := (withOp o live).setCore 81919 c
def tiled (f : Tile → Tile) (g : Core → Core) : State :=
  coreAt (mmOp mmDesc mmEntry) (g { Core.idle with tile := some (f mmTile) })
def runOf (s : State) : Option Run := s.running 81919
def mmRun (f : Tile → Tile) : Run := ⟨f mmTile, mmOp mmDesc mmEntry, mmEntry⟩
/-- Operand B's only element has come over the crossbar. -/
def arrivedB (c : Core) : Core := { c with arrived := [(arrivedKey 0 1 0, 251)] }
def rectB : Rect := ⟨0, 1, 0, 1⟩
theorem test_CoresComputeTheirTiles : (live.core 81919).tile = none ∧ (live.core 81919).work = [] ∧
    (runOf (tiled id id)).map (fun r => (r.tile, r.op, r.entry)) = some (mmTile, mmOp mmDesc mmEntry, mmEntry) ∧
    (tiled id id).asleep (81919 / 256) = false ∧ mmDesc.isProduct = true ∧ Unarmed (tiled id id) (coreKey 81919 0) ∧
    (let s := tiled id arrivedB
     let d := (mmRun id).side true
     d.isFed = true ∧ (d.at s false 0 0).isSome = true ∧ (s.core 81919).findLine d false 0 0 = none ∧
      d.target (s.core 81919) mmTile false 0 0 = some (0, 0, false) ∧ d.fetchRect s 0 false 0 0 = rectB ∧
      s.fetched d false 81919 0 rectB 0 0 0 = some [251] ∧
      makeRoom (mmOp mmDesc mmEntry) true true 1 1 [] = some (3072, []) ∧
      d.operand = .handle 1 false ∧ 0 ∈ d.bytesOf s false rectB ∧ (tiled id id).arrivedByte 81919 0 1 0 = none ∧
      (tiled id id).arriving 81919 (arrivedKey 0 1 0) = false ∧ (tiled id id).readsInFlight 81919 < 8 ∧
      (let u := (run (.feederFetch 81919 true 0 (.element 0) .clean) s).core 81919
       u.feeder.map (fun l => (l.sideB, l.pos)) = [(true, 3072)] ∧ u.fs = [(3072, 251)]) ∧
      (run (.feederFetch 81919 true 0 (.element 0) .uncorrectable) s).regN 0x4C12C = 1) ∧
    ((run (.feederFetch 81919 false 0 (.element 0) .clean) (tiled id id)).waiting 319).map (·.handle) = [some 0] := by
  unfold Unarmed; decide +kernel
/-- Operands of format 1 with a scale plane at 64 in handle 1. -/
def scaleDesc : Desc := BitVec.ofNat 512 (1 + 2 ^ 32 * (2 + 1 * 16 + 7 * 256))
def withScales : State :=
  (coreAt (mmOp scaleDesc mmEntry) { Core.idle with tile := some mmTile }).setRegN (handleKey 319 1 3) (2 ^ 31 + 64)
theorem test_feederFetch_scale : (let d := (⟨mmTile, mmOp scaleDesc mmEntry, mmEntry⟩ : Run).side true
    d.hasScale withScales = true ∧ (d.at withScales true 0 0) = some (64, 0, 1) ∧
      d.target (withScales.core 81919) mmTile true 0 0 = some (0, 0, false)) ∧
    ((run (.feederFetch 81919 true 0 (.scale 0) .clean) withScales).waiting 319).map (fun a => (a.handle, a.byte, a.len)) =
      [(some 1, 0, 4)] := by decide +kernel
/-- The same with operand A in package memory. -/
def recordEntry : Entry := { mmEntry with a := .record 0x1000 none 4 4 0 0 }
def staging (l : List (Nat × Byte)) : State :=
  (coreAt (mmOp mmDesc recordEntry) { Core.idle with tile := some mmTile }).setStage 319 { Staging.empty with bytes := l }
theorem test_feederFetch_record : (staging []).mute = false ∧
    (let d := (⟨mmTile, mmOp mmDesc recordEntry, recordEntry⟩ : Run).side false
     d.operand = .record 0x1000 none 4 4 0 0 ∧ d.fetchRect (staging []) 0 false 0 0 = ⟨0, 1, 0, 1⟩ ∧
      (staging []).fetched d false 81919 0 ⟨0, 1, 0, 1⟩ 0 0 0 = none ∧
      d.slotRect false 0 0 = ⟨0, 1, 0, 1⟩ ∧ (staging []).findSlot d false ⟨0, 1, 0, 1⟩ 0 = none ∧
      d.bytesOf (staging []) false ⟨0, 1, 0, 1⟩ = [0x1000] ∧ (staging []).staging? 1 319 0x1000 = false) ∧
    (staging []).stagedByte 319 1 0x1000 = none ∧ (staging [(stageKey 1 0x1000, 3)]).stagedByte 319 1 0x1000 = some 3 ∧
    (staging []).stageCapacity 319 ≠ 0 ∧ (staging []).pendingAccesses 319 = [] ∧
    issued (.feederFetch 81919 false 0 (.element 0) .clean) (staging []) = [(.rd, homePort 319)] ∧
    ((run (.feederFetch 81919 false 0 (.element 0) .clean) (staging [(stageKey 1 0x1000, 3)])).waiting 319).map (·.dest) =
      [.staging 0] := by decide +kernel
/-- Both operands' lines stand in the feeder store: 3 and −5. -/
def fed (c : Core) : Core :=
  { c with fs := [(0, 3), (3072, 251)], feeder := [⟨1, 0, false, false, 0, 1, 0, 1, 0⟩, ⟨1, 0, true, false, 0, 1, 0, 1, 3072⟩] }
/-- PE 0 of the first quad holds −5. -/
def stationary : SMap (BitVec 64) := [(0, 251)]
theorem test_passStart : mmTile.walked = false ∧ mmTile.busy = false ∧ mmTile.vec = 0 ∧ mmTile.behind mmTile.clock = false ∧
    mmTile.loaded = false ∧
    (let s := tiled id fed
     let r := mmRun id
     let p := r.pass
     p.galley = false ∧ p.load s (s.core 81919) r.stat (r.stat.span 0).1 = some stationary ∧
      r.refs s (s.core 81919) = some [(0, 15)] ∧ (r.vector s { s.core 81919 with working := stationary }).isSome = true ∧
      0 ∈ p.rows ∧ 0 ∈ p.cols ∧ 0 ∈ p.blocks ∧ p.k1 = 0 ∧ p.stop = 1 ∧
      (r.elem s { s.core 81919 with working := stationary } false 0 0).isSome = true ∧
      (r.elem s { s.core 81919 with working := stationary } true 0 0).isSome = true) ∧
    ({ mmTile with loaded := true } : Tile).loaded = true ∧
    run (.passStart 81919) (tiled (fun t => { t with walked := true }) id) = tiled (fun t => { t with walked := true }) id ∧
    (((run (.passStart 81919) (tiled id fed)).core 81919).tile.map fun t => (t.walked, t.parts.map fun x => x.elems.map (·.q))) =
      some (true, [[-15]]) ∧
    ((run (.passStart 81919) (tiled id fed)).core 81919).working = stationary := by decide +kernel
def part (q : Int) : Partial := ⟨0, 0, 0, 15, true, 16, [⟨0, q, false, false, false, false, false⟩]⟩
def accum (code : Word) (sat : Bool) : Accum := ⟨code, false, false, false, sat⟩
def queueOf (n : Nat) (c : Core) : Core := { c with slugs := List.replicate n ⟨1, mmSliver, 0, [], [], 0, false⟩ }
def promoting (code : Word) (sat : Bool) (q : Int) (n : Nat) : State :=
  tiled (fun t => { t with walked := true, parts := [part q], accs := [(0, accum code sat)] }) (queueOf n)
def promoted (code : Word) (sat : Bool) (q : Int) : Option (Word × Bool) :=
  ((run (.blockPromotion 81919) (promoting code sat q 3)).core 81919).tile.bind fun t =>
    (SMap.find t.accs 0).map fun a => (a.code, a.sat)
theorem test_blockPromotion : takeReady [] = none ∧ takeReady [part 5] = some (part 5, []) ∧
    ((part 5).elems.map (·.idx)).Nodup ∧ (mmOp mmDesc mmEntry).desc.accInt = true ∧
    ({ mmTile with walked := true } : Tile).now = none ∧ (part 5).lastOfFirst mmEntry.k = true ∧
    mmTile.mayRerun (mmOp mmDesc mmEntry) = false ∧ ((promoting 0 false 5 4).core 81919).entries = 4 ∧
    ((promoting 0 false 5 3).core 81919).entries = 3 ∧
    ((run (.blockPromotion 81919) (promoting 0 false 5 4)).core 81919).fullStalls = 1 ∧
    promoted 0x7FFFFFF0 false 15 = some (0x7FFFFFFF, false) ∧ promoted 0x7FFFFFF0 false 16 = some (0x7FFFFFFF, true) ∧
    promoted 0x80000000 false (-1) = some (0x80000000, true) ∧ promoted 7 true 1 = some (7, true) := by decide +kernel
/-- A float tile with a saturated accumulator under rescue (R124, R125). -/
def rescued (ecA ecB reruns n : Nat) : State :=
  let o := { mmOp (BitVec.ofNat 512 (1 + 2 ^ 32 * (6 + 6 * 16 + 9 * 256))) mmEntry with rescue := true }
  coreAt o (queueOf n { Core.idle with tile := some { mmTile with
    walked := true, accs := [(0, accum 9 true)], ecA := ecA, ecB := ecB, reruns := reruns } })
def scales (s : State) : Option (Nat × Nat × Bool × Bool) :=
  ((run (.tileComplete 81919) s).core 81919).tile.map fun t => (t.ecA, t.ecB, t.complete, t.stop)
theorem test_tileComplete : (([(0, accum 9 true)] : SMap Accum).map fun a => (a.2.sat, a.2.isNan)) = [(true, false)] ∧
    scales (rescued 255 255 2 0) = some (251, 255, false, false) ∧ scales (rescued 5 6 0 0) = some (5, 2, false, false) ∧
    scales (rescued 5 4 0 0) = some (1, 4, false, false) ∧ scales (rescued 4 4 0 0) = some (4, 4, true, true) ∧
    scales (rescued 255 255 3 0) = some (255, 255, true, true) ∧
    scales (tiled (fun t => { t with walked := true }) id) = some (255, 255, true, false) ∧
    ((run (.tileComplete 81919) (rescued 255 255 3 4)).core 81919).fullStalls = 1 := by decide +kernel
theorem test_slugEnqueue : (mmEntry.a ≠ .accFile 0) ∧ (queueOf 3 Core.idle).entries < 4 ∧ 4 ≤ (queueOf 4 Core.idle).entries ∧
    run (.slugEnqueue 81919) (tiled id id) = tiled id id ∧
    ((run (.slugEnqueue 81919) (tiled (fun t => { t with complete := true, accs := [(0, accum 9 false)] }) (queueOf 3))).core
      81919).slugs.map (·.codes) = [[], [], [], [(0, 9)]] ∧
    ((run (.slugEnqueue 81919) (tiled (fun t => { t with complete := true }) (queueOf 4))).core 81919).fullStalls = 1 := by
  decide +kernel
theorem test_product : (product 15 (.fin true 3 0) (.fin false 5 0)).q = -15 ∧ (product 17 (.fin true 3 0) (.fin true 5 0)).q = 3 ∧
    (product 15 (.inf true) (.fin true 0 3)).inv = true ∧ (product 15 (.inf true) (.inf false)).ninf = true := by decide

/-! ## The drain -/

/-- A bit-copying MOVE of one byte from handle 0 to handle 2. -/
def mvDesc : Desc := BitVec.ofNat 512 (5 + 2 ^ 32 * (6 + 6 * 256))
def slug (codes : List (Nat × Word)) : Slug := ⟨1, mmSliver, 0, codes, [], 5, true⟩
def drained (d : Desc) (e : Entry) (chain : List Word) (f : Core → Core) : State :=
  coreAt { mmOp d e with chain := chain } (f { Core.idle with slugs := [slug [(0, 77)]] })
/-- A chain that loads buffer 0 from handle 3, of format 6 in cluster 319: by columns (2) or tile-shaped (1). -/
def chainLoads (load : Nat) : List Word := [0, w32 (load * 64 + 3)]
def filling (f : Core → Core) : State := (drained mmDesc mmEntry (chainLoads 2) f).setRegN (handleKey 319 3 0) (64 + 6 * 2 ^ 24)
def loading : OpRec := { mmOp mmDesc mmEntry with chain := chainLoads 2 }
def bufArrived (c : Core) : Core := { c with arrived := [(arrivedKey useBuf 3 0, 2)] }
theorem test_TheDrainWritesSlugs : (filling id).asleep (81919 / 256) = false ∧ Core.idle.slugs = [] ∧ Core.idle.chain = none ∧
    ((filling id).core 81919).slugs = slug [(0, 77)] :: [] ∧ ((filling id).core 81919).current = some (slug [(0, 77)]) ∧
    (filling id).op 1 = some loading ∧ ((filling id).core 81919).chainAt = (false, 0) ∧ (0, 0) ∈ loading.fills false 0 ∧
    (3, 3) ∉ loading.fills false 0 ∧ (0, 0) ∉ ((filling id).core 81919).filled ∧ loading.tileSource 0 = false ∧
    ((chainPlaces (filling id) loading mmSliver 0 0 0).map (·.1)).Nodup ∧
    placesNeeds (chainPlaces (filling id) loading mmSliver 0 0 0) = [0] ∧
    (filling bufArrived).arrivedByte 81919 useBuf 3 0 = some 2 ∧ loading.entryOf mmSliver = some mmEntry ∧
    Unarmed (filling id) (coreKey 81919 0) ∧ (filling id).formeFree 81919 loading = true ∧ loading.rred = none ∧
    ((run (.tileBufferFill 81919 0 0) (filling bufArrived)).core 81919).filled = [(0, 0)] ∧
    ((run (.slugDrain 81919 .clean) (filling id)).core 81919).chain.map (·.seg) = some 0 ∧
    run (.slugDrain 81919 .clean) live = live := by
  unfold Unarmed; decide +kernel
def wholeWrite : FormeWrite := ⟨64, [1, 2, 3, 4], [0xFF, 0xFF, 0xFF, 0xFF]⟩
def formeOf (ws : List FormeWrite) (waits : Nat) : Forme := ⟨1, mmSliver, 0, 2, [], [], ws, waits, [], true, false⟩
theorem test_slugDrain : (mmOp mvDesc mmEntry).desc.bitCopy = true ∧ (mmOp mvDesc mmEntry).fills false 0 = [] ∧
    (mmOp mvDesc mmEntry).segments mmSliver = 1 ∧ (mmOp mvDesc mmEntry).rred = none ∧
    (drained mvDesc mmEntry [] id).formeFree 81919 (mmOp mvDesc mmEntry) = true ∧
    (drained mvDesc mmEntry [] fun c => { c with formes := [formeOf [wholeWrite] 0, formeOf [wholeWrite] 1] }).formeFree 81919
      (mmOp mvDesc mmEntry) = false ∧
    (((run (.slugDrain 81919 .clean) (drained mvDesc mmEntry [] id)).core 81919).formes.map fun f =>
      (f.status, f.writes.map fun w => (w.addr, w.data, w.mask))) = [(5, [(0, [77, 0, 0, 0], [255, 0, 0, 0])])] := by decide +kernel
/-- A slug of 16 × 16 elements takes four segments of a tile-shaped buffer (R196). -/
def wide : Sliver := ⟨0, 319, 0, 16, 0, 16, 16, 16⟩
def wideOp : OpRec := { mmOp mmDesc { mmEntry with m := 16, n := 16 } with chain := chainLoads 1, slivers := [wide] }
def sweeping : State := coreAt wideOp { Core.idle with slugs := [⟨1, wide, 0, [], [], 0, true⟩], filled := [(0, 0)] }
theorem test_slugDrain_segments : wideOp.segments wide = 4 ∧ wideOp.fills false 0 = [(0, 0)] ∧
    sweeping.formeFree 81919 wideOp = true ∧ (wideOp.entryOf wide).isSome = true ∧ sweeping.op 1 = some wideOp ∧
    ((run (.slugDrain 81919 .clean) sweeping).core 81919).chain.map (·.seg) = some 1 := by decide +kernel
def formed (ph : Phase) (e : Entry) (ws : List FormeWrite) (waits : Nat) : State :=
  coreAt { mmOp mvDesc e with phase := ph } { Core.idle with formes := [formeOf ws waits] }
def outRecord : Entry := { mmEntry with c := .record 0x1000 none 4 4 0 0 }
def outFile : Entry := { mmEntry with c := .accFile 81919 }
theorem test_recastWrite : ((formed .running mmEntry [wholeWrite] 0).core 81919).heldFormes.map (·.writes) = [[wholeWrite]] ∧
    wholeWrite.mask = List.replicate wholeWrite.data.length 0xFF ∧ mmEntry.c = .handle 2 false ∧
    (formed .running mmEntry [wholeWrite] 0).laneStalled 81919 = false ∧ outFile.c = .accFile 81919 ∧
    (formed .running outFile [wholeWrite] 0).fileBusy (mmOp mvDesc outFile) 81919 = false ∧
    (mmOp mvDesc outRecord).desc.cAcc = false ∧ wholeWrite.data ≠ [] ∧ (formed .running mmEntry [] 0).mute = false ∧
    (formed .running outRecord [wholeWrite] 0).backPressed 81919 outRecord.c = false ∧
    ((run (.recastWrite 81919) (formed .running mmEntry [wholeWrite] 0)).waiting 319).map (fun a => (a.lane, a.data)) =
      [(255, [1, 2, 3, 4])] ∧
    (run (.recastWrite 81919) (formed .running outFile [wholeWrite] 0)).cores.map (fun p => p.2.file) = [[(16, 0x04030201)]] ∧
    run (.recastWrite 81919) (formed .journaling outRecord [wholeWrite] 0) = formed .journaling outRecord [wholeWrite] 0 ∧
    issued (.recastWrite 81919) (formed .running outRecord [wholeWrite] 0) = [(.wr, homePort 319)] := by decide +kernel
theorem test_slugCommit : ((formed .running mmEntry [] 0).core 81919).formes = formeOf [] 0 :: [] ∧
    run (.slugCommit 81919) (formed .running mmEntry [wholeWrite] 0) = formed .running mmEntry [wholeWrite] 0 ∧
    run (.slugCommit 81919) (formed .running mmEntry [] 1) = formed .running mmEntry [] 1 ∧
    run (.slugCommit 81919) (formed .journaling mmEntry [] 0) = formed .journaling mmEntry [] 0 ∧
    ((run (.slugCommit 81919) (formed .running mmEntry [] 0)).op 1).map (·.committed) = some 1 := by decide +kernel

/-! ## Banks, tags and windows -/

def bankAcc (kind : AccKind) (tagMode timeout : Nat) (dest : Dest) : BankAcc :=
  { lane := 257, op := none, bank := 47, row := 511, byte := 0, kind := kind, len := 64, data := List.replicate 64 9, fmt := 9,
    handle := some 63, tagMode := tagMode, timeout := timeout, dest := dest }
def winDest : Dest := .window 5 4095 3 2 1 5
def bankKeyTop : Nat := bankKey 319 47
def banked (st : BankSt) (l : List BankAcc) : State := ({ live with xbar := [(319, l)] } : State).setBank bankKeyTop st
def parkedTop (a : BankAcc) (full : List Nat) : State := { live with parked := [(bankKeyTop, [a])], full := full }
def coreDest : Dest := .arrived 81919 0
theorem test_BanksTagsAndWindows : nthFor 47 ((banked .on []).waiting 319) 0 0 = none ∧
    (let a := bankAcc .write 1 0 winDest
     nthFor 47 ((banked .on [a]).waiting 319) 0 0 = some (0, a) ∧ (banked .on [a]).asleep 319 = false ∧
      (banked .on [a]).parkedAt bankKeyTop = [] ∧ (banked .on [a]).mute = false ∧ a.handle = some 63 ∧
      (banked .on [a]).securing = none ∧ Unarmed (banked .on [a]) (clusterBase 319 + 0x1000) ∧ Unarmed (banked .on [a]) 0 ∧
      Unarmed (banked .on [a]) (clusterBase 319) ∧ (banked .on [a]).bank bankKeyTop = .on ∧ (banked .on [a]).tagAllows 319 a = true ∧
      (run (.bankAccess 319 47 0 .clean) (banked .on [a])).full = [slotKey 319 47 511] ∧
      (run (.bankAccess 319 47 0 .clean) (banked .on [a])).readStore 319 47 511 0 64 = List.replicate 64 9) ∧
    (banked .on [bankAcc .acc 0 0 winDest]).tagAllows 319 (bankAcc .acc 0 0 winDest) = true ∧
    (let a := bankAcc .read 1 0 coreDest
     (banked .on [a]).tagAllows 319 a = false ∧ ({ banked .on [a] with full := [slotKey 319 47 511] } : State).tagAllows 319 a = true ∧
      (run (.bankAccess 319 47 0 .clean) (banked .on [a])).parkedAt bankKeyTop = [a] ∧
      (run (.bankAccess 319 47 0 .clean) { banked .on [a] with full := [slotKey 319 47 511] }).full = []) ∧
    answer (.bankAccess 319 47 0 .clean) (banked .dark [bankAcc .write 0 0 winDest]) = some 0x20 ∧
    (run (.bankAccess 319 47 0 .clean) (banked .keep [bankAcc .write 0 0 winDest])).bank bankKeyTop = .waking false ∧
    run (.bankAccess 319 47 0 .clean) (banked (.waking true) [bankAcc .write 0 0 winDest]) =
      banked (.waking true) [bankAcc .write 0 0 winDest] := by
  unfold Unarmed; decide +kernel
theorem test_bankAccess_errors : (∀ p t st po pk c, (bankAcc .read 0 0 coreDest).dest ≠ .window p t st po pk c) ∧
    (run (.bankAccess 319 47 0 .corrected) (banked .on [bankAcc .read 0 0 coreDest])).regN 0x4C128 = 1 ∧
    (run (.bankAccess 319 47 0 .corrected) (banked .on [bankAcc .read 0 0 coreDest])).regN 0x4C12C = 0 := by
  refine ⟨fun p t st po pk c h => ?_, ?_⟩
  · cases h
  · decide +kernel
theorem test_parkedAccess : (live.parkedReady 319 (live.parkedAt bankKeyTop) [] 0 = none) ∧
    (let a := bankAcc .write 1 7 winDest
     (parkedTop a []).parkedAt bankKeyTop = a :: [] ∧ a.bank = 47 ∧ (parkedTop a []).bank bankKeyTop = .on ∧
      (parkedTop a []).asleep 319 = false ∧ (parkedTop a []).securing = none ∧ (parkedTop a []).tagAllows 319 a = true ∧
      (parkedTop a []).tagAllows 319 a = true ∧ ((parkedTop a []).parkedAt bankKeyTop)[0]? = some a ∧ a.timeout ≠ 0 ∧
      (run (.parkedAccessServe 319 47) (parkedTop a [])).full = [slotKey 319 47 511] ∧
      answer (.tagTimeout 319 47 0) (parkedTop a [slotKey 319 47 511]) = some 0x13 ∧
      run (.tagTimeout 319 47 0) (parkedTop { a with timeout := 0 } []) = parkedTop { a with timeout := 0 } [] ∧
      Unarmed (parkedTop a []) (clusterBase 319 + 0x1000) ∧ Unarmed (parkedTop a []) (clusterBase 319) ∧ Unarmed (parkedTop a []) 0) := by
  unfold Unarmed; decide +kernel
/-- Banks 0 to 7 of cluster 319 stage; nothing lies in bank 47, which is in a state. -/
def bankSet (st : BankSt) : State := (live.setRegN (clusterBase 319 + 0x100) 0x800).setBank bankKeyTop st
theorem test_bankStates : (∀ d, (bankSet .on).bank bankKeyTop ≠ .closing d) ∧ (∀ d, (bankSet .on).bank bankKeyTop ≠ .waking d) ∧
    (bankSet (.closing false)).bank bankKeyTop = .closing false ∧ (bankSet (.closing true)).bank bankKeyTop = .closing true ∧
    (bankSet (.waking true)).wanted 319 47 = 1 ∧ (bankSet (.waking true)).wanted 319 7 = 0 ∧
    ((bankSet .on).bank bankKeyTop = .on ∧ (bankSet .on).wanted 319 47 = 1 ∧ (bankSet .on).outstanding 319 47 = 0 ∧
      ∀ a ∈ (bankSet .on).waiting 319, a.bank ≠ 47) ∧ ((bankSet (.closing true)).xbar.map (·.1)).Nodup ∧
    Unarmed (bankSet (.waking false)) (clusterBase 319 + 0x1000) ∧
    ((bankSet (.waking true)).setRegN (cl + 0x1100) (2 ^ 20)).wanted 319 47 = 2 ∧
    (run (.bankWakeDone 319 ⟨47, 5, .clean⟩) ((bankSet (.waking true)).setRegN (cl + 0x1100) (2 ^ 20))).bank bankKeyTop = .dark ∧
    (run (.bankWakeDone 319 ⟨47, 5, .clean⟩) (bankSet (.waking true))).bank bankKeyTop = .keep ∧
    (run (.bankWakeDone 319 ⟨47, 5, .clean⟩) (bankSet (.waking false))).bank bankKeyTop = .on ∧
    (run (.bankKeepReturn 319 47) (bankSet .on)).bank bankKeyTop = .keep ∧
    (run (.closeTimeout 319 47) (bankSet (.closing true))).bank bankKeyTop = .dark := by
  refine ⟨fun d => ?_, fun d => ?_, ?_⟩
  · have h : (bankSet .on).bank bankKeyTop = .on := by decide +kernel
    simp [h]
  · have h : (bankSet .on).bank bankKeyTop = .on := by decide +kernel
    simp [h]
  · unfold Unarmed; decide +kernel
theorem test_patrolScrub : Unarmed clustered (clusterBase 319 + 0x1000) ∧ Unarmed clustered 0x1000 ∧ ((List.range 64).find? fun i => ((clustered.handle 319 i).slotAt 47 2).isSome) = some 63 ∧
    clustered.bank bankKeyTop = .on ∧ clustered.asleep 319 = false ∧ clustered.waiting 319 = [] ∧
    (run (.patrolScrub 319 47 2 .corrected) clustered).regN 0x4C128 = 1 ∧ run (.patrolScrub 319 47 2 .clean) clustered = clustered := by
  unfold Unarmed; decide +kernel
/-- Handle 63 of cluster 319 with its window open; its close has taken effect and a WAIT_COUNT waits for it. -/
def opened (ext : Nat) : State := (clustered.setRegN (handleKey 319 63 1) ext).setWindow 319 63 true
def closer (f : OpRec → OpRec) : State :=
  withOp (f (opr 1 0 (.wait 319 5 9 0 true (some 63) false))) { opened 160 with closing := [20479] }
theorem test_windowCloseComplete : (20479 ∉ live.closing) ∧ 20479 ∈ (closer id).closing ∧ (closer id).windowBusy 319 63 = false ∧
    SMap.find (closer id).endedOwners 20479 = none ∧ ((closer id).handle 319 63).winCtr = 5 ∧
    (∀ x ∈ (closer id).ops, x.id = 1 → x = opr 1 0 (.wait 319 5 9 0 true (some 63) false)) ∧
    (opr 1 0 (.wait 319 5 9 0 true (some 63) false)).stopped = false ∧
    ((run (.windowCloseComplete 319 63) (closer id)).op 1).map (fun o => (o.status, o.result)) = some (0, 9) ∧
    ((run (.windowCloseComplete 319 63) (closer fun o => { o with replays := 1 })).op 1).map (·.status) = some 0x30 ∧
    genOf (run (.windowCloseComplete 319 63) (closer id)) 319 63 = 1 := by decide +kernel
/-- A window write to an offset of a handle of cluster 319, at a port. -/
def hubWrite (port : Fin 32) (h off : Nat) (fmt : BitVec 4) : WinWrite :=
  ⟨port, 9, 3, BitVec.ofNat 36 (319 * 2 ^ 27 + h * 2 ^ 21 + off), 0, fmt, 2, 1, List.replicate 64 7⟩
def home319 : Fin 32 := Fin.ofNat 32 (homePort 319)
/-- The same handle with a format, tag mode and 128 bytes. -/
def opened9 (fmt tag : Nat) : State := (opened 128).setRegN (handleKey 319 63 0) (46 + 64 + 2 ^ 21 + fmt * 2 ^ 24 + tag * 2 ^ 28)
theorem test_windowWrites : (319 < 320 ∧ homePort 319 = home319.val) ∧ homePort 319 ≠ (home319 + 1).val ∧
    (let s := opened9 9 0
     s.mute = false ∧ s.admitSt ≠ 3 ∧ s.windowOpen 319 63 = true ∧ 20479 ∉ s.closing ∧ 64 + 64 ≤ (s.handle 319 63).extent ∧
      s.concordWindow 319 63 = false ∧ (s.handle 319 63).fmt = 9 ∧ (s.handle 319 63).tagMode = 0 ∧
      answer (.wwr (hubWrite (home319 + 1) 63 0 9)) s = some 0x10 ∧
      answer (.wwr (hubWrite home319 63 0 9)) (s.setRegN 0x4010C 3) = some 0x11 ∧
      answer (.wwr (hubWrite home319 62 0 9)) s = some 0x21 ∧ answer (.wwr (hubWrite home319 63 128 9)) s = some 0x10 ∧
      answer (.wwr (hubWrite home319 63 64 8)) s = some 0x12 ∧ answer (.wwa (hubWrite home319 63 64 9)) (opened9 9 1) = some 0x12 ∧
      answer (.wwa (hubWrite home319 63 64 6)) (opened9 6 0) = some 0x12 ∧
      ((run (.wwr (hubWrite home319 63 64 9)) s).waiting 319).map (fun a => (a.bank, a.row, a.kind)) = [(46, 1, .write)] ∧
      ((run (.wwa (hubWrite home319 63 64 9)) s).waiting 319).map (·.kind) = [.acc]) := by decide +kernel

/-! ## Securing -/

/-- A securing of handle 63 of cluster 319, a twin of 3 slots, drained from side 0 by operation 1. -/
def secureOp (f : OpRec → OpRec) : OpRec := f { opr 1 2 .secure with desc := BitVec.ofNat 512 (10 + 2 ^ 64 * 0x10000 + 2 ^ 192 * 0x20000) }
def sec0 : Securing :=
  { op := 1, clusters := [319], handles := [63], side := [(20479, false)], snapshot := false, pos := [], imageId := 77,
    ivBase := [], dpos := 0, acc := [], digests := [], drained := 0, written := false, older := [], failed := none }
def securingState (f : Securing → Securing) (g : OpRec → OpRec) (h : State → State) : State :=
  h (withOp (secureOp g) { (clustered.writeStore 319 46 1 0 (List.replicate 64 5)) with securing := some (f sec0) })
def draining (x : Securing) : Securing := { x with snapshot := true, pos := [(319, (0, 1))], acc := [(319, zeros 64)], drained := 1 }
theorem test_SecuringDrainsAndCompletes : (securingState id id id).securing = some sec0 ∧ sec0.op = 1 ∧ sec0.op ≠ 2 ∧
    (securingState id id id).op 1 = some (secureOp id) ∧ (secureOp id).phase = .running ∧ (securingState id id id).mute = false ∧
    (∃ p ∈ (securingState id id (withOp { opr 0 9 .compute with written := [20479] })).ops, p.id < 1 ∧
      (p.q = 2 ∨ ∃ k ∈ p.written, (SMap.find sec0.side k).isSome = true)) ∧
    (∀ p ∈ (securingState id id id).ops, ¬ p.id < 1) ∧
    run (.secureSnapshotPoint 1) (securingState id id (withOp { opr 0 9 .compute with written := [20479] })) =
      securingState id id (withOp { opr 0 9 .compute with written := [20479] }) ∧
    (securingState draining id id).drainPos (draining sec0) 319 = some (0, 1) ∧ (319 : Nat) ∈ (draining sec0).clusters ∧
    SMap.find (draining sec0).side 20479 = some false ∧ (SMap.getD (draining sec0).acc 319 []).length = 64 * 1 ∧
    movedKey 319 63 1 ∉ (securingState draining id id).moved ∧ (draining sec0).failed = none ∧ (draining sec0).written = false ∧
    (securingState draining id id).drainPos { draining sec0 with pos := [(319, (1, 0))] } 319 = none ∧
    (run (.secureDrain 1 319) (securingState draining id id)).readStore 319 47 1 0 64 = List.replicate 64 5 ∧
    (run (.secureDrain 1 319) (securingState draining id id)).regN 0x4E10C = 1 ∧
    (run (.secureDrain 1 319) (securingState draining id id)).outst.map (fun y => (y.op, y.addr)) =
      [(.wr, 0x10000 + 256 + 8192 + 64)] ∧
    (run (.secureDrain 1 319) (securingState draining id fun s => { s with moved := [movedKey 319 63 1] })).readStore 319 47 1 0 64
      = zeros 64 := by
  decide +kernel
def sealing (failed : Option Nat) (stopped : Bool) : State :=
  securingState (fun x => { x with snapshot := true, written := true, failed := failed })
    (fun o => { o with stopped := stopped, status := 0x24 }) id
theorem test_secureComplete : (secureOp id).q < 16 ∧ (sec0.side.map (·.1)).Nodup ∧ (∀ p ∈ sec0.side, p.1 < 320 * 64) ∧
    (sealing none false).outst = [] ∧ (sealing (some 0x10) false).op 1 = some (secureOp fun o => { o with status := 0x24 }) ∧
    (∃ y ∈ (awaiting .flush 1 (.secureFlush 1) (sealing none false)).outst, y.purpose = .secureFlush 1) ∧
    (let t := run (.secureComplete 1) (sealing none false)
     t.securing = none ∧ (t.handle 319 63).cur = true ∧ genOf t 319 63 = 1 ∧ t.regN (retireKey 2) = 7 ∧ t.regN 0x4E108 = 77 ∧
      (t.op 1).map (fun o => (o.status, o.result)) = some (0, 77) ∧ bit (t.regN 0x4E018) 0 = true) ∧
    ((run (.secureComplete 1) (sealing (some 0x10) false)).op 1).map (·.status) = some 0x10 ∧
    ((run (.secureComplete 1) (sealing (some 0x10) true)).op 1).map (·.status) = some 0x24 := by decide +kernel

end Sys2Proof.Tests
end

/-! ## Every command's frame (O1): one `Keep` lemma of Laws/ for each arm of the dispatcher -/

namespace Sys2Proof.Machine

theorem Sub.refl (l : List Field) : Sub l l := ⟨fun _ h => h⟩

/-- Every command answers a next state that differs from the old one in the parts listed for it alone. The arms that
call the same operation of the block share the operation's own lemma. -/
theorem exec_next_keep (c : Instr) (s : State) : ∃ t, exec c s = .next t ∧ Keep (mayChange c) s t := by
  have hl := Sub.refl (mayChange c)
  have h : Keep (mayChange c) s s := Keep.refl _ s
  cases c with
  | matmul _ _ | conv _ _ | batched _ _ | elementwise _ _ | move _ _ | windowWrite _ _
    | waitCount _ _ | signal _ _ | fence _ _ | secureState _ _ | journalMark _ _ | restoreCheck _ _
    | scrub _ _ => exact ⟨_, rfl, h.accept _ _ _⟩
  | descriptorRead _ => exact ⟨_, rfl, h.readSlot _⟩
  | operationCompletion _ => exact ⟨_, rfl, h.operationCompletion _⟩
  | feederFetch _ _ _ part _ => cases part <;> exact ⟨_, rfl, h.feederFetch _ _ _ _ _ _⟩
  | passStart _ => exact ⟨_, rfl, h.runPass _⟩
  | blockPromotion _ => exact ⟨_, rfl, h.promoteNext _⟩
  | tileComplete _ => exact ⟨_, rfl, h.completeTile _⟩
  | slugEnqueue _ => exact ⟨_, rfl, h.enqueue _⟩
  | slugDrain _ _ => exact ⟨_, rfl, h.drain _ _⟩
  | tileBufferFill _ _ _ => exact ⟨_, rfl, h.fillBuffer _ _ _⟩
  | recastWrite _ => exact ⟨_, rfl, h.recastWrite _⟩
  | slugCommit _ => exact ⟨_, rfl, h.commitSlug _⟩
  | bankAccess _ _ _ _ => exact ⟨_, rfl, h.bankAccess _ _ _ _⟩
  | parkedAccessServe _ _ => exact ⟨_, rfl, h.serveParked _ _⟩
  | tagTimeout _ _ _ => exact ⟨_, rfl, h.tagTimeout _ _ _⟩
  | bankWakeDone _ _ => exact ⟨_, rfl, h.wakeDone _ _ _ _⟩
  | bankKeepReturn _ _ => exact ⟨_, rfl, h.keepReturn _ _⟩
  | closeTimeout _ _ => exact ⟨_, rfl, h.closeTimeout _ _⟩
  | patrolScrub _ _ _ _ => exact ⟨_, rfl, h.patrol _ _ _ _⟩
  | windowCloseComplete _ _ => exact ⟨_, rfl, h.closeComplete _ _⟩
  | waitCountTimeout _ => exact ⟨_, rfl, h.waitTimeout _⟩
  | winOpen _ _ _ _ | tagReset _ _ _ | rgwr _ _ _ | dbTailWrite _ _ _ | cplHeadWrite _ _ _
    | ringLoWrite _ _ _ | cplLoWrite _ _ _ | queueEnable _ _ _ | resume _ _ _ | intStatusWrite _ _ _
    | intEnableWrite _ _ _ | intvCtrlWrite _ _ _ | errCauseClear _ _ _ | fxStatusClear _ _ _
    | rescueLogClear _ _ _ | pageCommit _ _ _ | shadowDiscard _ _ _ | dieCommit _ _
    | portRetrainRequest _ _ _ | positionWrite _ _ | testctlUnlock _ _ | tInjArm _ _ _
    | tQuadWrite _ _ _ | measSeqWrite _ _ | ticketRelease _ _ | learnClear _ _ | journalEnable _ _ _
    | retireWrite _ _ _ | replayCmdStart _ _ _ | gCtrlForm _ _ | gCtrlDissolve _ _ | islandReset _ _
    | blockReset _ _ | shutdown _ _ _ | selftest _ _ _ | random _ _ | attest _ _ | coChallenge _ _
    | coLogin _ _ | coLogout _ _ | loadKey _ _ | clearKey _ _ | zeroise _ _ | fuseOwner _ _
    | raiseSvn _ _ | kill _ _ | protApply _ _ | taskEnd _ _ | auditRingSizeWrite _ _
    | auditReadWrite _ _ => exact ⟨_, rfl, h.accessWrite _ _ _ _⟩
  | wwr _ | wwa _ => exact ⟨_, rfl, h.windowArrive _ _⟩
  | rdr _ _ _ _ => exact ⟨_, rfl, h.answered _ _ _ _ _ _ _ _ fun _ _ _ hu => hu.readReturned _ _ _⟩
  | atr _ _ _ _ => exact ⟨_, rfl, h.answered _ _ _ _ _ _ _ _ fun _ _ _ hu => hu.atomicReturned _ _⟩
  | wack _ _ _ => exact ⟨_, rfl, h.answered _ _ _ _ _ _ _ _ fun _ _ _ hu => hu.windowAnswered _ _⟩
  | mack _ _ _ => exact ⟨_, rfl, h.answered _ _ _ _ _ _ _ _ fun _ _ _ hu => hu.messageAnswered _ _⟩
  | flack _ _ _ => exact ⟨_, rfl, h.flack _ _ _⟩
  | huberr _ _ => exact ⟨_, rfl, h.huberr _ _⟩
  | headerFlitReceive _ _ _ _ => exact ⟨_, rfl, h.flitReceive _ _ _ _⟩
  | replayRequest _ _ => exact ⟨_, rfl, h.replayRequest _ _⟩
  | portTrainingStart _ => exact ⟨_, rfl, h.trainingStart _⟩
  | trainingStateEnd _ _ => exact ⟨_, rfl, h.trainingStep _ _⟩
  | tsFlitReceive _ _ _ _ => exact ⟨_, rfl, h.tsReceive _ _ _ _⟩
  | pwakeIRise _ => exact ⟨_, rfl, h.pwakeRise _ _⟩
  | strobeLoss _ _ => exact ⟨_, rfl, h.strobeLost _ _⟩
  | commitAdoption _ => exact ⟨_, rfl, h.commitAdoption _⟩
  | nowLoRead _ | energyLoRead _ _ | ticketLoRead _ _ | unticketedLoRead _ | rgrd _ _ => exact ⟨_, rfl, h.accessRead _ _⟩
  | replayEntry _ => exact ⟨_, rfl, h.replayEntry _⟩
  | replayInFlight _ => exact ⟨_, rfl, h.replayFlight _⟩
  | secureSnapshotPoint _ => exact ⟨_, rfl, h.snapshot _⟩
  | secureDrain _ _ => exact ⟨_, rfl, h.drainSlot _ _⟩
  | secureComplete _ => exact ⟨_, rfl, h.secureDone _⟩
  | concordRound _ => exact ⟨_, rfl, h.concordRound _⟩
  | concordEvaluate _ => exact ⟨_, rfl, h.concordEvaluate _⟩
  | peerLost _ _ _ => exact ⟨_, rfl, h.signalled _ _ fun _ hu => hu.peerLost _ _⟩
  | peerBack _ _ _ => exact ⟨_, rfl, h.signalled _ _ fun _ hu => hu.peerBack _ _⟩
  | peerSpare _ _ _ => exact ⟨_, rfl, h.signalled _ _ fun _ hu => hu.peerSpare⟩
  | isolate _ => exact ⟨_, rfl, h.signalled _ _ fun _ hu => hu.isolate _ _⟩
  | grant _ _ => exact ⟨_, rfl, h.signalled _ _ fun _ hu => hu.grant _⟩
  | deny _ => exact ⟨_, rfl, h.signalled _ _ fun _ hu => hu.deny⟩
  | softwareSideSignal _ _ => exact ⟨_, rfl, h.softSignal _ _⟩
  | refclkLoss _ => exact ⟨_, rfl, h.refclkLost _⟩
  | tbaseFrame _ _ => exact ⟨_, rfl, h.tbaseFrame _ _⟩
  | readmit => exact ⟨_, rfl, h.readmit⟩
  | readmitTrain _ => exact ⟨_, rfl, h.readmitTrain _ _⟩
  | sbUcodeWrite _ _ => exact ⟨_, rfl, h.sbUcode _ _⟩
  | setdasa _ | rstdaa => exact ⟨_, rfl, h.setDynAddr _⟩
  | enec | disec => exact ⟨_, rfl, h.enableIbi _⟩
  | getpid | getbcr | getdcr => exact ⟨_, rfl, h.sbReply _⟩
  | getstatus => exact ⟨_, rfl, h.sbStatus⟩
  | rstact _ => exact ⟨_, rfl, h.configureRst _⟩
  | targetResetPattern => exact ⟨_, rfl, h.resetPattern⟩
  | tapInstruction _ => exact ⟨_, rfl, (h.tapLoad _).tapScan _⟩
  | coldReset _ => exact ⟨_, rfl, h.coldReset⟩
  | warmReset => exact ⟨_, rfl, h.warmReset⟩
  | vokRise _ => exact ⟨_, rfl, h.vokRise _⟩
  | supplyFault _ => exact ⟨_, rfl, h.supplyFault _⟩
  | vokLate _ => exact ⟨_, rfl, h.vokLate _⟩
  | supplyFaultEnd _ => exact ⟨_, rfl, h.supplyFaultEnd _⟩
  | islandStepConfirm _ => exact ⟨_, rfl, h.stepConfirm _⟩
  | controlPeriod => exact ⟨_, rfl, h.controlPeriod⟩
  | emergencyLift => exact ⟨_, rfl, h.emergencyLift⟩
  | calStale => exact ⟨_, rfl, h.calStale⟩
  | droopDetect _ => exact ⟨_, rfl, h.droopDetect _⟩
  | droopQuiet _ => exact ⟨_, rfl, h.droopQuiet _⟩
  | thermalSample _ => exact ⟨_, rfl, h.thermalSample _⟩
  | throttleStep _ => exact ⟨_, rfl, h.throttleStep _⟩
  | throttleReleaseStep _ => exact ⟨_, rfl, h.throttleRelease _⟩
  | sensorTimeout _ => exact ⟨_, rfl, h.failSensor _⟩
  | healthEvaluation _ => exact ⟨_, rfl, h.healthEvaluate _⟩
  | islandStillEntry _ => exact ⟨_, rfl, h.stillEntry _⟩
  | islandKeepEntry _ => exact ⟨_, rfl, h.keepEntry _⟩
  | islandWake _ => exact ⟨_, rfl, h.wakeIsland _⟩
  | coolstopBond => exact ⟨_, rfl, h.coolstopBond⟩
  | coolstopCcc => exact ⟨_, rfl, h.stopDie _ _⟩
  | shutdownFinish => exact ⟨_, rfl, h.shutdownFinish⟩
  | watchdogExpiry _ => exact ⟨_, rfl, h.watchdogExpiry _⟩
  | fuseRead _ => exact ⟨_, rfl, h.fuseRead _⟩
  | stewardBoot _ => exact ⟨_, rfl, h.stewardBoot _⟩
  | portsStartup _ => exact ⟨_, rfl, h.portsStartup _⟩
  | microcodeFetch _ => exact ⟨_, rfl, h.microcodeFetch _⟩
  | storeSelfTest _ => exact ⟨_, rfl, h.storeSelfTest _⟩
  | numericSelfTest _ => exact ⟨_, rfl, h.numericSelfTest _⟩
  | admission => exact ⟨_, rfl, h.admission⟩
  | timeBaseLost => exact ⟨_, rfl, h.timeBaseLost⟩
  | entropyHealthTestFailure => exact ⟨_, rfl, h.entropyFailed⟩

/-- Settles O1, by the frame of each command's operation. Log entry 9 lets an event that cannot occur change nothing. -/
theorem everyCommandCompletesInItsFrame : Obligations.EveryCommandCompletesInItsFrame := by
  intro c s
  obtain ⟨t, ht, hk⟩ := exec_next_keep c s
  exact ⟨t, ht, hk.same.same⟩

end Sys2Proof.Machine

/-! ## The idle step, the words of the table and the resets (O7 to O10) -/

namespace Sys2Proof.Machine

/-- The idle die's ports change nothing but themselves, their REPLAYS registers and the record of activity (R275). -/
theorem pumpPorts_keep (s : State) : Keep [.regs, .ports, .power] s s.pumpPorts :=
  have hl := Sub.refl [.regs, .ports, .power]
  (Keep.refl _ s).pumpPorts

theorem tick_keep (s : State) : Keep [.regs, .ports, .time, .power] s (tick s) :=
  have hl := Sub.refl [.regs, .ports, .time, .power]
  (Keep.refl _ s).tick

/-- The time base after one reference period: what the ports send comes after it and leaves it (R300). -/
theorem tick_time (s : State) : (tick s).time = { s.time with now :=
    if s.time.lock && s.time.ref != 0 && !s.stopped then (s.time.now + 10) % 2 ^ 64 else s.time.now } := by
  have hp : (tick s).time = (if s.time.lock && s.time.ref != 0 && !s.stopped then
      { s with time := { s.time with now := (s.time.now + 10) % 2 ^ 64 } } else s).time :=
    (pumpPorts_keep _).same.same .time (by decide)
  rw [hp]
  split <;> rfl

/-- Settles O7: on an empty queue the step is `tick`, whose frame and time base are known. -/
theorem idleStepIsOneReferencePeriod : Obligations.IdleStepIsOneReferencePeriod := by
  intro s hs
  refine ⟨tick s, by simp only [step, hs], tick_time s, fun f hf => (tick_keep s).same.same f fun hm => hf ?_⟩
  simp only [List.mem_cons, List.not_mem_nil, or_false] at hm ⊢
  tauto

/-- Settles O8: the table gives no row any bits. -/
theorem noWordSpellsACommand : Obligations.NoWordSpellsACommand :=
  fun _ _ _ => ⟨rfl, rfl⟩

/-- Refutes O9: QUEUE 0's CONTROL reads F00h after a reset, since R335 gives its DEPTH_M1 the Reset value Fh. -/
theorem not_resetValuesOfRegisters : ¬ Obligations.ResetValuesOfRegisters := by
  rintro ⟨-, -, -, -, -, -, -, -, -, hq, -⟩
  have hcontrol : State.reset.reg (queueKey 0 0x10) = 0xF00 := by decide
  exact absurd ((hq 0).1.symm.trans hcontrol) (by decide)

/-! The registers after a cold reset are those of `State.reset`, whatever the state before it held. -/

theorem State.reg_coldReset (s : State) (key : Nat) : s.coldReset.reg key = regReset key := rfl

theorem State.bootStep_coldReset (s : State) : s.coldReset.bootStep = 1 := by
  have h : State.reset.bootStep = 1 := by decide
  exact h

theorem State.bootFailed_coldReset (s : State) : s.coldReset.bootFailed = false := by
  have h : State.reset.bootFailed = false := by decide
  exact h

theorem State.admitSt_coldReset (s : State) : s.coldReset.admitSt = 0 := by
  have h : State.reset.admitSt = 0 := by decide
  exact h

/-- Settles O10: the registers by the lemmas above, every other part by the definition of a cold reset. That the
stores read 0 afterwards is log entry 1. -/
theorem coldResetKeepsOnlyFuses : Obligations.ColdResetKeepsOnlyFuses := by
  intro s cause
  refine ⟨s.coldReset, rfl, s.reg_coldReset, s.bootStep_coldReset, s.bootFailed_coldReset, s.admitSt_coldReset, ?_⟩
  simp [State.coldReset, State.reset]

end Sys2Proof.Machine

/-! ## What sending, raising a line and recording an event leave (R325, R327, R331) -/

namespace Sys2Proof.Machine

/-! ## Bits and fields -/

@[simp] theorem w32_toNat (w : Word) : w32 w.toNat = w := by
  simp [w32]

theorem toNat_w32 {n : Nat} (h : n < 2 ^ 32) : (w32 n).toNat = n := by
  simpa [w32] using h

theorem bit_eq_testBit (n i : Nat) : bit n i = n.testBit i := by
  simp [bit, Nat.testBit_eq_decide_div_mod_eq]

@[simp] theorem bit_or (x y i : Nat) : bit (x ||| y) i = (bit x i || bit y i) := by
  simp [bit_eq_testBit]

/-! ## Sending -/

/-- A transaction sent changes its port, the record of what was issued and the record of activity. -/
theorem State.send_keep (s : State) (t : Txn) : Keep [.ports, .out, .power] s (s.send t) :=
  have hl := Sub.refl [.ports, .out, .power]
  (Keep.refl _ s).send t

theorem State.out_send (s : State) (t : Txn) (h : s.mute = false) : (s.send t).out = s.out ++ [t] := by
  have hx (u : State) (cluster job n) : (u.cross cluster job n).out = u.out :=
    ((Keep.refl [.power] u).cross cluster job n (Sub.refl _)).same.same .out (by decide)
  simp [State.send, h, hx]

theorem State.reg_of_regs {s t : State} (h : t.regs = s.regs) (k : Nat) : t.reg k = s.reg k := by
  simp only [State.reg, h]

@[simp] theorem State.reg_send (s : State) (t : Txn) (k : Nat) : (s.send t).reg k = s.reg k :=
  State.reg_of_regs ((s.send_keep t).same.same .regs (by decide)) k

@[simp] theorem State.mute_send (s : State) (t : Txn) : (s.send t).mute = s.mute :=
  (s.send_keep t).same.same .mute (by decide)

@[simp] theorem State.reg_respond (s : State) (a : Access) (op : TxnOp) (st aux k : Nat) :
    (s.respond a op st aux).reg k = s.reg k :=
  s.reg_send _ k

@[simp] theorem State.regN_respond (s : State) (a : Access) (op : TxnOp) (st aux k : Nat) :
    (s.respond a op st aux).regN k = s.regN k :=
  congrArg BitVec.toNat (s.reg_respond a op st aux k)

/-! ## Registers that raising a line leaves -/

theorem State.reg_foldl {α : Type} {g : State → α → State} {k : Nat} (h : ∀ u x, (g u x).reg k = u.reg k) (l : List α)
    (s : State) : (l.foldl g s).reg k = s.reg k := by
  induction l generalizing s with
  | nil => rfl
  | cons x l ih => rw [List.foldl_cons, ih, h]

/-- A send of a vector changes PEND in the vector's own control register at most (R331). -/
theorem State.reg_vectorSend (s : State) (v : Nat) {k : Nat} (h : k ≠ 0x20C + 16 * v) :
    (s.vectorSend v).reg k = s.reg k := by
  have hflush (u : State) (port stream why) : (u.flush port stream why).reg k = u.reg k :=
    State.reg_of_regs (((Keep.refl [.ports, .out, .outst, .power] u).flush port stream why
      (Sub.refl _)).same.same .regs (by decide)) k
  unfold State.vectorSend
  dsimp only
  split
  · exact State.reg_orReg_other _ _ h
  · exact hflush _ _ _ _

/-- A raised line changes INT_STATUS of its page and PEND of its vector or of vector 16 alone (R327, R331, R333). -/
theorem State.reg_raise (s : State) (p : Page) (bits : Nat) {k : Nat} (hv : k ≠ 0x20C + 16 * p.vector)
    (he : k ≠ 0x30C) : (s.raise p bits).reg k = (s.orReg (p.base + 0x18) bits).reg k := by
  unfold State.raise
  dsimp only
  split
  · rw [State.reg_vectorSend _ _ he]
    split
    · exact State.reg_vectorSend _ _ hv
    · rfl
  · split
    · exact State.reg_vectorSend _ _ hv
    · rfl

/-! ## Registers that recording an event leaves -/

/-- Where an event of a page is recorded: its INT_STATUS, error capture and REFUSALS (R317, R325), and the control
registers of its vector and of vector 16 (R330). -/
def Page.records (p : Page) (k : Nat) : Prop :=
  (p.base + 0x18 ≤ k ∧ k < p.base + 0x4C) ∨ k = 0x20C + 16 * p.vector ∨ k = 0x30C

/-- The page's registers lie above those of the vectors in DIE. -/
def Page.AboveVectors (p : Page) : Prop := 0x20C + 16 * p.vector < p.base ∧ 0x30C < p.base

theorem Page.not_records_of_le {p : Page} (hp : p.AboveVectors) {k : Nat} (h : p.base + 0x4C ≤ k) : ¬ p.records k := by
  obtain ⟨hv, he⟩ := hp
  unfold Page.records
  omega

theorem State.reg_raise_other (s : State) {p : Page} (bits : Nat) {k : Nat} (h : ¬ p.records k) :
    (s.raise p bits).reg k = s.reg k := by
  simp only [Page.records, not_or, not_and] at h
  obtain ⟨hr, hv, he⟩ := h
  rw [State.reg_raise _ _ _ hv he]
  exact State.reg_orReg_other _ _ (by omega)

/-- INT_STATUS of a page above the vectors takes the bits raised. -/
theorem State.reg_raise_status (s : State) {p : Page} (bits : Nat) (hp : p.AboveVectors) :
    (s.raise p bits).reg (p.base + 0x18) = s.reg (p.base + 0x18) ||| w32 bits := by
  obtain ⟨hv, he⟩ := hp
  rw [State.reg_raise _ _ _ (by omega) (by omega), State.reg_orReg_same]

/-- Another register of a page above the vectors stays. -/
theorem State.reg_raise_page (s : State) {p : Page} (bits : Nat) (hp : p.AboveVectors) {o : Nat} (ho : o ≠ 0x18) :
    (s.raise p bits).reg (p.base + o) = s.reg (p.base + o) := by
  obtain ⟨hv, he⟩ := hp
  rw [State.reg_raise _ _ _ (by omega) (by omega)]
  exact State.reg_orReg_other _ _ (by omega)

theorem State.reg_putWords_other (ws : List Word) (s : State) {key k : Nat}
    (h : k < key ∨ key + 4 * ws.length ≤ k) : (s.putWords key ws).reg k = s.reg k := by
  induction ws generalizing s key with
  | nil => rfl
  | cons w t ih =>
    simp only [List.length_cons] at h
    rw [State.putWords, ih _ (by omega)]
    exact State.reg_setReg_other _ _ (by omega)

theorem PageKind.countOff_range (p : PageKind) : 0x30 ≤ p.countOff ∧ p.countOff ≤ 0x38 := by
  cases p <;> decide

/-- A capture of up to five words writes the page's record alone (R325). -/
theorem State.reg_capture_other (s : State) {p : Page} (cause : Nat) {ws : List Word} {k : Nat}
    (hw : ws.length ≤ 5) (h : ¬ p.records k) : (s.capture p cause ws).reg k = s.reg k := by
  have hc := p.kind.countOff_range
  have hk : ¬ (p.base + 0x18 ≤ k ∧ k < p.base + 0x4C) := fun hr => h (.inl hr)
  unfold State.capture
  dsimp only
  split
  · exact State.reg_setReg_other _ _ (by omega)
  · rw [State.reg_raise_other _ _ h, State.reg_setReg_other _ _ (by omega), State.reg_putWords_other,
      State.reg_setReg_other _ _ (by omega)]
    simp only [List.length_append, List.length_replicate]
    omega

/-- An empty capture takes the cause with VALID. -/
theorem State.reg_capture_cause (s : State) {p : Page} (cause : Nat) (ws : List Word) (hp : p.AboveVectors)
    (hs : bit (s.regN (p.base + 0x20)) 31 = false) :
    (s.capture p cause ws).reg (p.base + 0x20) = w32 (2 ^ 31 + cause) := by
  have hc := p.kind.countOff_range
  simp only [State.capture, hs, Bool.false_eq_true, if_false]
  rw [State.reg_raise_page _ _ hp (by decide), State.reg_setReg_other _ _ (by omega),
    State.reg_putWords_other _ _ (by omega), State.reg_setReg_same]
  rfl

/-- An empty capture takes the first word at 024h. -/
theorem State.reg_capture_word (s : State) {p : Page} (cause : Nat) (w : Word) (ws : List Word) (hp : p.AboveVectors)
    (hs : bit (s.regN (p.base + 0x20)) 31 = false) :
    (s.capture p cause (w :: ws)).reg (p.base + 0x24) = w := by
  have hc := p.kind.countOff_range
  simp only [State.capture, hs, Bool.false_eq_true, if_false, List.cons_append, State.putWords]
  rw [State.reg_raise_page _ _ hp (by decide), State.reg_setReg_other _ _ (by omega),
    State.reg_putWords_other _ _ (by omega), State.reg_setReg_same]

/-- A capture leaves the page's REFUSALS. -/
theorem State.reg_capture_refusals (s : State) {p : Page} (cause : Nat) {ws : List Word} (hw : ws.length ≤ 5)
    (hp : p.AboveVectors) : (s.capture p cause ws).reg (p.base + 0x48) = s.reg (p.base + 0x48) := by
  have hc := p.kind.countOff_range
  unfold State.capture
  dsimp only
  split
  · exact State.reg_setReg_other _ _ (by omega)
  · rw [State.reg_raise_page _ _ hp (by decide), State.reg_setReg_other _ _ (by omega), State.reg_putWords_other,
      State.reg_setReg_other _ _ (by omega)]
    simp only [List.length_append, List.length_replicate]
    omega

theorem State.noteRefusal_eq (s : State) {p : Page} (h : p.kind ≠ .store) :
    s.noteRefusal p = (s.incReg (p.base + 0x48)).raise p 0x80000000 := by
  unfold State.noteRefusal
  dsimp only
  split
  · contradiction
  · rfl

/-! ## Answers -/

theorem State.refuseWrite_keep (s : State) (p : Page) (cause off priv : Nat) :
    Keep [.regs, .ports, .out, .outst, .vecBusy, .power] s (s.refuseWrite p cause off priv) :=
  have hl := Sub.refl [.regs, .ports, .out, .outst, .vecBusy, .power]
  (Keep.refl _ s).refuseWrite p cause off priv

/-- The answer to a write is the last transaction that it issues. -/
theorem answers_of_respond {c : Instr} {s u : State} {a : Access} {status : Nat}
    (h : exec c s = .next (u.respond a .rgwa status)) (ho : OutExtends s u) (hm : u.mute = false) :
    Answers c s (u.respond a .rgwa status) (rgwaOf a status) := by
  obtain ⟨l, hl⟩ := ho
  refine ⟨h, l, ?_⟩
  rw [← hl]
  exact State.out_send u _ hm

/-- A write that the state of a page refuses, its capture, count and interrupt (R326, R355). -/
theorem refusedForState_of_exec {c : Instr} {s : State} {a : Access} {p : Page} {cause o : Nat}
    (h : exec c s = .next ((s.refuseWrite p cause o a.priv.toNat).respond a .rgwa 0x11)) (hm : s.mute = false)
    (hp : p.AboveVectors) (hk : p.kind ≠ .store) (ho : o < 4096) : RefusedForState c s a p cause o := by
  have keep := s.refuseWrite_keep p cause o a.priv.toNat
  have hmute : (s.refuseWrite p cause o a.priv.toNat).mute = false :=
    (keep.same.same .mute (by decide)).trans hm
  have hpriv := a.priv.isLt
  have hword : commonWord o a.priv.toNat = w32 (o + a.priv.toNat * 4096) := by
    rw [commonWord, Nat.mod_eq_of_lt ho, Nat.mod_eq_of_lt (by omega)]
  refine ⟨_, answers_of_respond h keep.out hmute, ?_, ?_, fun hs => ⟨?_, ?_⟩⟩
  · rw [State.reg_respond, State.refuseWrite, State.noteRefusal_eq _ hk, State.reg_raise_page _ _ hp (by decide),
      State.reg_incReg_same, State.captureCommon, State.reg_capture_refusals _ _ (by simp) hp]
    rfl
  · rw [State.regN_respond, State.regN, State.refuseWrite, State.noteRefusal_eq _ hk, State.reg_raise_status _ _ hp,
      BitVec.toNat_or, bit_or]
    exact Bool.or_eq_true_iff.2 (.inr (by decide))
  · rw [State.reg_respond, State.refuseWrite, State.noteRefusal_eq _ hk, State.reg_raise_page _ _ hp (by decide),
      State.reg_incReg_other _ _ (by omega), State.captureCommon, State.reg_capture_cause _ _ _ hp hs]
  · rw [State.reg_respond, State.refuseWrite, State.noteRefusal_eq _ hk, State.reg_raise_page _ _ hp (by decide),
      State.reg_incReg_other _ _ (by omega), State.captureCommon, State.reg_capture_word _ _ _ _ hp hs, hword]

end Sys2Proof.Machine

/-! ## Register accesses, and the checks of a write (O28) -/

namespace Sys2Proof.Machine

/-! ### Accesses that are served, on pages with nothing armed -/

theorem Performs.takesWrites {s : State} {a : Access} {base : Nat} (h : Performs s a base) : s.takesWrites a = true := by
  obtain ⟨hheard, hstep, hadm, hfail, hbell, -⟩ := h
  cases hm : a.msg <;> simp_all [State.takesWrites, State.served]

theorem Performs.mute {s : State} {a : Access} {base : Nat} (h : Performs s a base) : s.mute = false := by
  have hh := h.heard
  simp only [State.heard, Bool.and_eq_true, Bool.not_eq_true'] at hh
  obtain ⟨⟨⟨hm, -⟩, -⟩, -⟩ := hh
  exact hm

/-- A page with nothing armed has no word of control state lost or corrected at an access (R357). -/
theorem State.readControl_of_unarmed {s : State} {base : Nat} (h : Unarmed s base) (place : Nat) :
    s.readControl base place = (s, false) := by
  have hi (kind : Nat) : s.injects base kind place = false := by
    have hw : bit (s.regN (base + 0xF10)) 31 = false := h
    simp [State.injects, hw]
  simp [State.readControl, State.injectWord, hi]

theorem State.pageInject_of_unarmed {s : State} {p : Page} (h : Unarmed s p.base) (o : Nat) : s.pageInject p o = s := by
  unfold State.pageInject
  cases p.kind <;> simp [State.readControl_of_unarmed h]

/-! ### Writes -/

section Write

variable {s : State} {a : Access} {base off : Nat} {p : Page} {r : RegRow} {v : Word} {aux : WriteAux}

theorem accessWrite_of_none (hw : Performs s a base) (hr : regAt off = none) :
    s.accessWrite a off v aux = s.respond a .rgwa 0x10 := by
  simp [State.accessWrite, hw.takesWrites, hr]

theorem accessWrite_of_row (hw : Performs s a base) (hr : regAt off = some (p, r)) :
    s.accessWrite a off v aux =
      (s.writeRegister p r (off - p.base) v a.priv.toNat a.port.val aux).1.respond a .rgwa
        (s.writeRegister p r (off - p.base) v a.priv.toNat a.port.val aux).2 := by
  simp [State.accessWrite, hw.takesWrites, hr]

/-- A write that its level, the lock of the test region or an RL field refuses (R13, R324, R358). -/
theorem accessWrite_of_accessRefused (hw : Performs s a base) (hr : regAt off = some (p, r)) {cause : Nat}
    (h : s.accessRefused p r (off - p.base) a.priv.toNat = some cause) :
    s.accessWrite a off v aux =
      (s.captureCommon p cause (off - p.base) a.priv.toNat).respond a .rgwa 0x11 := by
  rw [accessWrite_of_row hw hr]
  simp [State.writeRegister, h]

/-- The write meets no refusal for its level, a dark cluster, a pending commit or a reserved encoding, nor one of PROT's
own: what is left to judge is the page's state (R324, R382, R348, R15, R456). -/
structure Judged (s : State) (p : Page) (r : RegRow) (o : Nat) (v : Word) (priv : Nat) : Prop where
  access   : s.accessRefused p r o priv = none
  dark     : s.darkPage p = false
  commit   : s.commitRefused p r o v = none
  encoding : reservedValue p.kind o v.toNat = false
  prot     : s.protRefused p o v = none

/-- A write that the page's state refuses, or R409 at a level other than 0 (R326, R355). -/
theorem accessWrite_of_stateRefused (hw : Performs s a base) (hr : regAt off = some (p, r))
    (hj : Judged s p r (off - p.base) v a.priv.toNat)
    (h : ((journalSetup p (off - p.base) && a.priv.toNat != 0) || s.stateRefused p (off - p.base) v) = true) :
    s.accessWrite a off v aux = (s.refuseWrite p 0xE6 (off - p.base) a.priv.toNat).respond a .rgwa 0x11 := by
  rw [accessWrite_of_row hw hr]
  simp only [State.writeRegister, hj.access, hj.dark, hj.commit, hj.encoding, hj.prot, h, Bool.false_eq_true,
    if_false, if_true]

/-- A write of a page that wakes no island, with nothing that refuses it, takes effect (R287). -/
theorem accessWrite_of_accepted (hw : Performs s a p.base) (hr : regAt off = some (p, r))
    (hj : Judged s p r (off - p.base) v a.priv.toNat) (hawake : s.wakeFor p = s) (hk : p.kind ≠ .store)
    (h : ((journalSetup p (off - p.base) && a.priv.toNat != 0) || s.stateRefused p (off - p.base) v) = false) :
    s.accessWrite a off v aux =
      (s.writeEffect p r (off - p.base) v a.priv.toNat a.port.val aux).respond a .rgwa 0 := by
  rw [accessWrite_of_row hw hr]
  simp only [State.writeRegister, hj.access, hj.dark, hj.commit, hj.encoding, hj.prot, h, hawake,
    State.pageInject_of_unarmed hw.unarmed, hk, false_and, Bool.false_eq_true, if_false]

end Write

/-! ### Levels (R13, R323, R324) -/

theorem journalSetup_eq_false_of_le {p : Page} {o : Nat} (h : 0x119 ≤ o) : journalSetup p o = false := by
  simp only [journalSetup, List.contains_eq_mem, Bool.and_eq_false_iff, decide_eq_false_iff_not, List.mem_cons,
    List.not_mem_nil, or_false]
  omega

theorem levelRefused_three (p : Page) (r : RegRow) (o : Nat) : levelRefused p r o 3 = some 0xE1 := rfl

theorem levelRefused_two {p : Page} {o : Nat} (r : RegRow) (h : ¬ (p.kind = .queue ∧ (o = 0x10C ∨ o = 0x130))) :
    levelRefused p r o 2 = some (if r.rl then 0xE0 else 0xE1) := by
  simp [levelRefused, h]

theorem levelRefused_privileged (p : Page) (r : RegRow) (o : Nat) {priv : Nat} (h : priv < 2) :
    levelRefused p r o priv = none := by
  simp only [levelRefused]
  rw [if_neg (by omega), if_neg (by omega)]

theorem Privileged.lt {a : Access} (h : Privileged a) : a.priv.toNat < 2 := by
  rcases h with h | h <;> rw [h] <;> decide

/-- A level that may not write the register (R324). -/
theorem accessRefused_of_level (s : State) {p : Page} {r : RegRow} {o priv cause : Nat} (hj : journalSetup p o = false)
    (h : levelRefused p r o priv = some cause) : s.accessRefused p r o priv = some cause := by
  simp [State.accessRefused, hj, h]

/-- A level that may write, by the lock of the test region and the RL field (R13, R358). -/
theorem accessRefused_of_privileged (s : State) (p : Page) (r : RegRow) (o : Nat) {priv : Nat} (h : priv < 2) :
    s.accessRefused p r o priv =
      if 0xF00 ≤ o ∧ s.testUnlocked = false then some 0xE5
      else if r.rl ∧ priv ≠ 0 ∧ journalSetup p o = false then some 0xE0 else none := by
  have hl : (if journalSetup p o = true then none else levelRefused p r o priv) = none := by
    rw [levelRefused_privileged p r o h, ite_self]
  rw [State.accessRefused, hl]

/-- A register of the journal's set-up is refused by no level (R409). -/
theorem accessRefused_of_journalSetup (s : State) {p : Page} (r : RegRow) {o : Nat} (priv : Nat)
    (hj : journalSetup p o = true) : s.accessRefused p r o priv = none := by
  have ho : ¬ 0xF00 ≤ o := fun h => by
    rw [journalSetup_eq_false_of_le (by omega)] at hj
    exact absurd hj (by decide)
  simp [State.accessRefused, hj, ho]

/-! ### The journal's page -/

theorem pageAt_of_regAt {off : Nat} {p : Page} {r : RegRow} (h : regAt off = some (p, r)) : pageAt off = some p := by
  unfold regAt at h
  split at h
  · obtain ⟨q, hq, hr⟩ := Option.bind_eq_some_iff.1 h
    obtain ⟨x, -, hx⟩ := Option.map_eq_some_iff.1 hr
    rw [hq, (Prod.mk.inj hx).1]
  · cases h

theorem clusterPageKind_ne_journal (i : Nat) : clusterPageKind i ≠ .journal := by
  unfold clusterPageKind
  split_ifs <;> decide

/-- Of the die-level page indices only 4Dh gives a journal page (R321). -/
theorem diePage_journal :
    ∀ i : Fin 256, (diePage i).all (fun p => p.kind != .journal || p == pgJournal) = true := by
  decide +kernel

/-- The journal has one page (R321). -/
theorem eq_pgJournal_of_regAt {off : Nat} {p : Page} {r : RegRow} (h : regAt off = some (p, r))
    (hk : p.kind = .journal) : p = pgJournal := by
  have hp := pageAt_of_regAt h
  unfold pageAt at hp
  split at hp
  · next hlow =>
    have hi := diePage_journal ⟨off / 0x1000, by omega⟩
    simp only [hp, Option.all_some, hk, bne_self_eq_false, Bool.false_or, beq_iff_eq] at hi
    exact hi
  · split at hp
    · cases hp
      exact absurd hk (clusterPageKind_ne_journal _)
    · cases hp

theorem kind_of_journalSetup {p : Page} {o : Nat} (h : journalSetup p o = true) :
    p.kind = .journal ∧ o ∈ [0x10, 0x100, 0x104, 0x108, 0x114, 0x118] := by
  simpa [journalSetup] using h

/-- A write of the journal's set-up, with no reserved encoding, is judged by its level and the queues alone (R409). -/
theorem judged_of_journalSetup (s : State) {p : Page} {r : RegRow} {o : Nat} {v : Word} (priv : Nat)
    (hj : journalSetup p o = true) (hrs : r.rs = 0) (he : reservedValue p.kind o v.toNat = false) :
    Judged s p r o v priv := by
  obtain ⟨hk, ho⟩ := kind_of_journalSetup hj
  refine ⟨accessRefused_of_journalSetup s r priv hj, by simp [State.darkPage, hk], ?_, he, by simp [State.protRefused, hk]⟩
  have h40 : o ≠ 0x40 ∧ o ≠ 0x44 := by
    constructor <;> rintro rfl <;> exact absurd ho (by decide)
  simp [State.commitRefused, h40, hrs, hk]

/-- Settles O28: each case is the first check of the write that fails. The order of the checks is log entry 23, E6h for
the journal's set-up log entry 98. -/
theorem registerAccessChecks : Obligations.RegisterAccessChecks := by
  intro s a off v base hw
  refine ⟨fun hn => congrArg _ (accessWrite_of_none hw hn), fun p r hr hb => ?_⟩
  intro o refused
  have of_access {cause : Nat} (h : s.accessRefused p r o a.priv.toNat = some cause) : refused cause :=
    congrArg _ (accessWrite_of_accessRefused hw hr h)
  refine ⟨fun h3 hj => ?_, fun h2 hj hq => ?_, fun hpriv ho ht => ?_, fun h1 hrl ho hj => ?_, fun h0 ho hd hc he => ?_,
    fun hn hj hrs he => ?_⟩
  · exact of_access (accessRefused_of_level s hj (by rw [h3]; exact levelRefused_three p r o))
  · exact of_access (accessRefused_of_level s hj (by rw [h2]; exact levelRefused_two r hq))
  · refine of_access ?_
    rw [accessRefused_of_privileged s p r o hpriv.lt, if_pos ⟨ho, ht⟩]
  · refine of_access ?_
    rw [accessRefused_of_privileged s p r o (by rw [h1]; decide), if_neg (by omega), if_pos ⟨hrl, by rw [h1]; decide, hj⟩]
  · have ha : s.accessRefused p r o a.priv.toNat = none := by
      rw [h0, accessRefused_of_privileged s p r o (by decide), if_neg (by omega), if_neg (by simp)]
    refine congrArg Host.Outcome.next ?_
    rw [accessWrite_of_row hw hr]
    simp only [State.writeRegister, o, ha, hd, hc, he, Bool.false_eq_true, if_false, if_true]
  · have hpg := eq_pgJournal_of_regAt hr (kind_of_journalSetup hj).1
    have hlow : o < 4096 := by
      have hm := (kind_of_journalSetup hj).2
      simp only [List.mem_cons, List.not_mem_nil, or_false] at hm
      omega
    have hst : ((journalSetup p o && a.priv.toNat != 0) || s.stateRefused p o v) = true := by
      have hz : a.priv.toNat ≠ 0 := fun h => hn (BitVec.eq_of_toNat_eq h)
      simp [hj, hz]
    exact refusedForState_of_exec
      (congrArg _ (accessWrite_of_stateRefused hw hr (judged_of_journalSetup s _ hj hrs he) hst)) hw.mute
      (by rw [hpg]; exact ⟨by decide, by decide⟩) (by rw [hpg]; decide) hlow

end Sys2Proof.Machine

/-! ## Reads, and those that latch (O37) -/

namespace Sys2Proof.Machine

/-- A read that is served and refused by nothing, of a page that wakes no island, has its effect and is answered (R287). -/
theorem State.accessRead_of_row {s : State} {a : Access} {off : Nat} {p : Page} {r : RegRow}
    (hs : s.served a.port.val = true) (hr : regAt off = some (p, r))
    (hok : s.readRefused p (off - p.base) a.priv.toNat = none) (hawake : s.wakeFor p = s) (hu : Unarmed s p.base) :
    s.accessRead a off = (s.readEffect p (off - p.base)).answerRead a (s.readReg p r (off - p.base)) 0 := by
  simp [State.accessRead, hs, hr, hok, hawake, State.pageInject_of_unarmed hu]

/-- A level that may read, at a register outside the test region of a page that is not dark (R323). -/
theorem State.readRefused_of_privileged (s : State) {p : Page} {o priv : Nat} (hp : priv < 2) (ho : o < 0xF00)
    (hd : s.darkPage p = false) : s.readRefused p o priv = none := by
  unfold State.readRefused
  rw [if_neg (by omega)]
  simp [hd, ho]

/-- The pages of a cluster (R322). -/
theorem pageAt_cluster {c i o : Nat} (hc : c < 320) (hi : i < 4) (ho : o < 0x1000) :
    pageAt (clusterBase c + i * 0x1000 + o) = some ⟨clusterPageKind i, c, clusterBase c + i * 0x1000⟩ := by
  have hcluster : (0x1000000 + c * 0x4000 + i * 0x1000 + o - 0x1000000) / 0x4000 = c := by omega
  have hpage : (0x1000000 + c * 0x4000 + i * 0x1000 + o - 0x1000000) / 0x1000 % 4 = i := by omega
  unfold pageAt clusterBase
  rw [if_neg (by omega), if_pos (by omega)]
  simp only [hcluster, hpage]

/-- A register by its page and its row in the page's table. -/
theorem regAt_of_page {off o : Nat} {p : Page} {r : RegRow} (h4 : off % 4 = 0) (hp : pageAt off = some p)
    (ho : off - p.base = o) (hr : p.kind.rowAt o = some r) : regAt off = some (p, r) := by
  simp [regAt, h4, hp, ho, hr]

/-- ENERGY_LO of an ISLAND page (R364). -/
def energyLoRow : RegRow := { off := 0x118, name := "ENERGY_LO", ru := 364 }

theorem regAt_energyLo (c : Fin 320) : regAt (clusterBase c + 0x2118) = some (pgIsland c, energyLoRow) := by
  have h4 : (clusterBase c + 0x2118) % 4 = 0 := by unfold clusterBase; omega
  have hp : pageAt (clusterBase c + 0x2118) = some (pgIsland c) :=
    pageAt_cluster (i := 2) (o := 0x118) c.isLt (by decide) (by decide)
  have ho : clusterBase c + 0x2118 - (pgIsland c).base = 0x118 := by
    simp only [pgIsland]; omega
  exact regAt_of_page h4 hp ho rfl

/-- TICKET_LO is one row of 64 registers (R377). -/
theorem regAt_ticketLo (t : Fin 64) :
    regAt (0x48204 + 16 * t) = some (pgPower, { off := 0x204, name := "TICKET_LO", count := 64, stride := 16, ru := 377 }) := by
  fin_cases t <;> rfl

theorem regAt_unticketedLo :
    regAt 0x48600 = some (pgPower, { off := 0x600, name := "UNTICKETED_LO", ru := 377 }) :=
  regAt_of_page rfl (p := pgPower) rfl rfl rfl

/-- A read of TICKET_LO latches the upper half (R377). -/
theorem State.readEffect_ticketLo (s : State) {t : Nat} (ht : t < 64) :
    s.readEffect pgPower (0x204 + 16 * t) = s.setRegN (0x48208 + 16 * t) (s.ticketEnergy t / 2 ^ 32) := by
  have hi : (0x204 + 16 * t - 0x200) / 16 = t := by omega
  have hk : 0x48000 + (0x204 + 16 * t) + 4 = 0x48208 + 16 * t := by omega
  simp only [State.readEffect, pgPower]
  rw [if_pos ⟨by omega, by omega, by omega⟩, hi, hk]

theorem State.readReg_ticketLo (s : State) (r : RegRow) {t : Nat} (ht : t < 64) :
    s.readReg pgPower r (0x204 + 16 * t) = w32 (s.ticketEnergy t) := by
  have hi : (0x204 + 16 * t - 0x200) / 16 = t := by omega
  have hp : s.readPower (0x204 + 16 * t) = some (s.ticketEnergy t) := by
    unfold State.readPower
    rw [if_neg (by omega), if_pos (by omega)]
    dsimp only
    rw [if_neg (by omega), if_pos (by omega), hi]
  have h : s.readSpecial pgPower (0x204 + 16 * t) = some (s.ticketEnergy t) := by
    unfold State.readSpecial
    rw [if_neg (by omega), if_neg (by omega)]
    exact hp
  rw [State.readReg, h]

/-- REPAIR, a register read as stored (R460). -/
def repairRow : RegRow := { off := 0x10C, name := "REPAIR", ru := 460 }

theorem regAt_repair : regAt 0x110C = some (pgSteward, repairRow) :=
  regAt_of_page rfl (p := pgSteward) rfl rfl rfl

theorem State.served_of {s : State} {port : Nat} (hh : s.heard port = true) (hb : 5 ≤ s.bootStep)
    (ha : s.admitSt ≠ 5) : s.served port = true := by
  simp [State.served, hh, hb, ha]

/-- Settles O37: each read is served, refused by nothing and answered with what `readReg` and `readEffect` give for its
register. Energies are held in 1/256 µJ (log entry 7). -/
theorem latchingReads : Obligations.LatchingReads := by
  intro s a hh hb ha hmsg hpriv rd
  have hs := State.served_of hh hb ha
  have read {off : Nat} {p : Page} {r : RegRow} (hr : regAt off = some (p, r)) (ho : off - p.base < 0xF00)
      (hd : s.darkPage p = false) (hawake : s.wakeFor p = s) (hu : Unarmed s p.base) :
      s.accessRead a off = rd (s.readEffect p (off - p.base)) (s.readReg p r (off - p.base)) :=
    State.accessRead_of_row hs hr (s.readRefused_of_privileged hpriv.lt ho hd) hawake hu
  refine ⟨fun hu => ?_, fun c hu => ?_, fun t hu => ?_, fun hu => ?_, fun off hn => ?_, fun hu => ?_,
    fun b hport hb3 hbmsg => ?_⟩
  · exact congrArg _ (read (p := pgTime) (r := { off := 0x100, name := "NOW_LO", ru := 300 }) rfl (by decide) rfl rfl hu)
  · have ho : clusterBase c + 0x2118 - (pgIsland c).base = 0x118 := by
      simp only [pgIsland]; omega
    have h := read (regAt_energyLo c) (by rw [ho]; decide) rfl rfl hu
    rw [ho] at h
    exact congrArg _ h
  · have ho : 0x48204 + 16 * t.val - pgPower.base = 0x204 + 16 * t.val := by
      simp only [pgPower]; omega
    have h := read (regAt_ticketLo t) (by rw [ho]; omega) rfl rfl hu
    rw [ho] at h
    rw [State.readEffect_ticketLo s t.isLt, State.readReg_ticketLo s _ t.isLt] at h
    exact congrArg _ h
  · exact congrArg _ (read regAt_unticketedLo (by decide) rfl rfl hu)
  · refine congrArg Host.Outcome.next ?_
    simp only [State.accessRead, hs, hn]
    rfl
  · have h := read regAt_repair (by decide) rfl rfl hu
    have hv : s.readReg pgSteward repairRow 0x10C = s.reg 0x110C := rfl
    exact congrArg Host.Outcome.next (h.trans (congrArg (rd s) hv))
  · have hsb : s.served b.port.val = true := by rw [hport]; exact hs
    have href : s.readRefused pgSteward 0x10C b.priv.toNat = some (pgSteward, 0xE1, commonWord 0x10C 3) := by
      rw [hb3]; rfl
    have h : s.accessRead b 0x110C = (s.capture pgSteward 0xE1 [commonWord 0x10C 3]).answerRead b 0 0x11 := by
      simp only [State.accessRead, hsb, regAt_repair]
      rw [show 0x110C - pgSteward.base = 0x10C from rfl, href]
      rfl
    exact congrArg _ h

end Sys2Proof.Machine

/-! ## Fields of a register after a write (R13) -/

namespace Sys2Proof.Machine

theorem fld_zero (x w : Nat) : fld x 0 w = x % 2 ^ w := by
  simp [fld]

theorem testBit_fld (x lo w i : Nat) : (fld x lo w).testBit i = (decide (i < w) && x.testBit (lo + i)) := by
  rw [fld, Nat.testBit_mod_two_pow, Nat.testBit_div_two_pow, Nat.add_comm]

theorem testBit_putFld (x lo w v i : Nat) : (putFld x lo w v).testBit i =
    if i < lo then x.testBit i else if i < lo + w then v.testBit (i - lo) else x.testBit i := by
  have h : putFld x lo w v = 2 ^ lo * (2 ^ w * (x / 2 ^ (lo + w)) + v % 2 ^ w) + x % 2 ^ lo := by
    rw [putFld, pow_add]
    ring
  rw [h, Nat.testBit_two_pow_mul_add _ (Nat.mod_lt _ (by positivity))]
  split
  · next hi => rw [Nat.testBit_mod_two_pow, decide_eq_true hi, Bool.true_and]
  · next hi =>
    rw [Nat.testBit_two_pow_mul_add _ (Nat.mod_lt _ (by positivity))]
    split
    · next hw => rw [if_pos (by omega), Nat.testBit_mod_two_pow, decide_eq_true hw, Bool.true_and]
    · next hw =>
      rw [if_neg (by omega), Nat.testBit_div_two_pow]
      congr 1
      omega

theorem testBit_toNat_w32 (x i : Nat) : (w32 x).toNat.testBit i = (decide (i < 32) && x.testBit i) := by
  rw [w32, BitVec.toNat_ofNat, Nat.testBit_mod_two_pow]

/-- A field reads what was put into it. -/
theorem State.regF_setRegF_same (s : State) {k lo w : Nat} (v : Nat) (h : lo + w ≤ 32) :
    (s.setRegF k lo w v).regF k lo w = v % 2 ^ w := by
  refine Nat.eq_of_testBit_eq fun i => ?_
  rw [State.regF, State.regN, State.reg_setRegF_same, testBit_fld, testBit_toNat_w32, testBit_putFld,
    Nat.testBit_mod_two_pow]
  by_cases hi : i < w
  · rw [if_neg (by omega), if_pos (by omega), decide_eq_true (show lo + i < 32 by omega), Nat.add_sub_cancel_left,
      Bool.true_and]
  · simp [hi]

/-- A field that shares no bit with the one written reads as before. -/
theorem State.regF_setRegF_disjoint (s : State) {k lo w lo' w' : Nat} (v : Nat) (h : lo' + w' ≤ 32)
    (hd : lo' + w' ≤ lo ∨ lo + w ≤ lo') : (s.setRegF k lo w v).regF k lo' w' = s.regF k lo' w' := by
  refine Nat.eq_of_testBit_eq fun i => ?_
  rw [State.regF, State.regF, State.regN, State.reg_setRegF_same, testBit_fld, testBit_fld, testBit_toNat_w32,
    testBit_putFld]
  by_cases hi : i < w'
  · have hput : (if lo' + i < lo then (s.regN k).testBit (lo' + i) else if lo' + i < lo + w then v.testBit (lo' + i - lo)
        else (s.regN k).testBit (lo' + i)) = (s.regN k).testBit (lo' + i) := by
      rcases hd with hd | hd
      · rw [if_pos (by omega)]
      · rw [if_neg (by omega), if_neg (by omega)]
    rw [hput, decide_eq_true (show lo' + i < 32 by omega), Bool.true_and]
  · simp [hi]

/-- A bit written alone. -/
theorem State.bit_setRegF_same (s : State) {k i : Nat} (v : Nat) (h : i < 32) :
    bit ((s.setRegF k i 1 v).regN k) i = v.testBit 0 := by
  rw [bit_eq_testBit, State.regN, State.reg_setRegF_same, testBit_toNat_w32, testBit_putFld, if_neg (by omega),
    if_pos (by omega), decide_eq_true h, Nat.sub_self, Bool.true_and]

end Sys2Proof.Machine

/-! ## PORT_CTRL and POSITION (O49) -/

namespace Sys2Proof.Machine

/-- A send changes nothing of a port but what waits there. -/
theorem State.port_send (s : State) (t : Txn) (q : Nat) : ∃ l, (s.send t).port q = { s.port q with queue := l } := by
  have hcross (u : State) (cluster job n) : (u.cross cluster job n).port q = u.port q := by
    simp only [State.port, ((Keep.refl [.power] u).cross cluster job n (Sub.refl _)).same.same .ports (by decide)]
  unfold State.send
  split
  · exact ⟨_, rfl⟩
  · rw [hcross]
    by_cases h : q = t.port
    · subst h
      exact ⟨_, State.port_setPort_same _ _ _⟩
    · exact ⟨_, State.port_setPort_other _ _ h⟩

theorem portKey_sub_base (p o : Nat) : portKey p o - (pgPort p).base = o := by
  simp only [portKey, pgPort]
  omega

/-- PORT_CTRL (R295). -/
def portCtrlRow : RegRow := { off := 0x104, name := "PORT_CTRL", rw := 6, w1s := 1, ru := 295 }

theorem regAt_portCtrl (p : Fin 32) : regAt (portKey p 0x104) = some (pgPort p, portCtrlRow) := by
  have hp : ∀ q : Fin 32, pageAt (portKey q 0x104) = some (pgPort q) := by decide
  have h4 : portKey p 0x104 % 4 = 0 := by unfold portKey; omega
  exact regAt_of_page h4 (hp p) (portKey_sub_base p 0x104) rfl

/-- POSITION (R298). -/
def positionRow : RegRow := { off := 0x108, name := "POSITION", reset := 0xFF00, rw := 0xF, rl := true, ru := 298 }

theorem regAt_position : regAt 0x40108 = some (pgHublink, positionRow) :=
  regAt_of_page rfl (p := pgHublink) rfl rfl rfl

/-- An accepted write of PORT_CTRL, performed (R295). -/
theorem exec_portRetrainRequest {s : State} {a : Access} {p : Fin 32} {v : Word} (hw : Performs s a (portKey p 0))
    (hpriv : Privileged a) (hv : fld v.toNat 1 2 ≠ 3) :
    exec (.portRetrainRequest a p v) s =
      .next ((s.writePort (pgPort p) portCtrlRow 0x104 v).respond a .rgwa 0) := by
  have hj : Judged s (pgPort p) portCtrlRow 0x104 v a.priv.toNat := by
    refine ⟨?_, rfl, rfl, ?_, rfl⟩
    · rw [accessRefused_of_privileged _ _ _ _ hpriv.lt]
      rfl
    · simp [reservedValue, pgPort, hv]
  have h := accessWrite_of_accepted (v := v) (aux := .none) (p := pgPort p) hw (regAt_portCtrl p)
    (by rw [portKey_sub_base]; exact hj) rfl (by simp [pgPort]) (by rw [portKey_sub_base]; rfl)
  rw [portKey_sub_base] at h
  exact congrArg Host.Outcome.next h

/-- A port that is UP retrains on RETRAIN (R274). -/
theorem State.writePort_retrain {s : State} {p : Nat} {v : Word} (r : RegRow) (h0 : bit v.toNat 0 = true)
    (hup : (s.port p).train = .up) (hm : s.mute = false) :
    s.writePort (pgPort p) r 0x104 v =
      ((s.setRegF (portKey p 0x104) 1 2 (fld v.toNat 1 2)).setRegF (portKey p 0x104) 0 1 1).beginTraining p true := by
  simp [State.writePort, State.retrain, pgPort, h0, hup, hm]

/-- Without RETRAIN, or on a port that is not UP, only MAX_WIDTH is stored (log entry 67). -/
theorem State.writePort_width {s : State} {p : Nat} {v : Word} (r : RegRow)
    (h : bit v.toNat 0 = false ∨ (s.port p).train ≠ .up) :
    s.writePort (pgPort p) r 0x104 v = s.setRegF (portKey p 0x104) 1 2 (fld v.toNat 1 2) := by
  rcases h with h | h <;> simp [State.writePort, pgPort, h]

/-- A retrain of a port keeps its replay buffer and sequence numbers (R274). -/
theorem State.port_beginTraining (s : State) (p : Nat) (retrain : Bool) :
    ((s.beginTraining p retrain).port p).train = .detect ∧ ((s.beginTraining p retrain).port p).retrain = retrain ∧
      ((s.beginTraining p retrain).port p).replay = (s.port p).replay ∧
      ((s.beginTraining p retrain).port p).txSeq = (s.port p).txSeq ∧
      ((s.beginTraining p retrain).port p).rxSeq = (s.port p).rxSeq := by
  simp [State.beginTraining]

theorem State.regF_respond (s : State) (a : Access) (op : TxnOp) (st aux k lo w : Nat) :
    (s.respond a op st aux).regF k lo w = s.regF k lo w := by
  rw [State.regF, State.regN_respond, State.regF]

/-- POSITION, accepted: a spare takes its position and flushes before it says so (R299; log entry 13). -/
theorem State.takePosition_eq (s : State) (v : Nat) : s.takePosition v =
    ((s.setRegF 0x40108 0 4 v).setRegN 0x4010C 2).flush 15 15 (.sideFlush 0x14 (BitVec.ofNat 64 (v % 16))) := by
  simp [State.takePosition, State.sideSignal, fld]

/-- A write of POSITION at level 0 is judged by the die's admission state alone (R298, R299). -/
theorem judged_position (s : State) (v : Word) : Judged s pgHublink positionRow 0x108 v 0 :=
  ⟨rfl, rfl, rfl, rfl, rfl⟩

/-- Settles O49: the accepted writes act as `writePort` and `takePosition` say, the refused one as the state refusal of
HUBLINK. That only a port that is UP retrains is log entry 67, the FLUSH before POS_TAKEN log entry 13. -/
theorem portRetrainAndPosition : Obligations.PortRetrainAndPosition := by
  intro s a p v hpriv k
  refine ⟨fun hw hv => ⟨fun h0 hup => ?_, fun hno => ?_⟩, fun hw h0 => ⟨fun hspare => ?_, fun hactive => ?_⟩⟩
  · have hexec := exec_portRetrainRequest hw hpriv hv
    rw [State.writePort_retrain _ h0 hup hw.mute] at hexec
    let u := (s.setRegF k 1 2 (fld v.toNat 1 2)).setRegF k 0 1 1
    have hl := Sub.refl [.regs, .ports, .out, .power]
    have keep : Keep [.regs, .ports, .out, .power] s (u.beginTraining p true) :=
      (((Keep.refl _ s).setRegF _ _ _ _).setRegF _ _ _ _).beginTraining _ _
    obtain ⟨l, hport⟩ := State.port_send (u.beginTraining p true) (rgwaOf a 0) p
    obtain ⟨htrain, hretrain, hreplay, htx, hrx⟩ := u.port_beginTraining p true
    refine ⟨_, answers_of_respond hexec keep.out ((keep.same.same .mute (by decide)).trans hw.mute), ?_, ?_, ?_, ?_,
      ?_, ?_, ?_, fun f hf => (keep.respond _ _ _ _).same.same f hf⟩
    · exact (congrArg Port.train hport).trans htrain
    · exact (congrArg Port.retrain hport).trans hretrain
    · exact (congrArg Port.replay hport).trans hreplay
    · exact (congrArg Port.txSeq hport).trans htx
    · exact (congrArg Port.rxSeq hport).trans hrx
    · rw [State.regN_respond]
      exact State.bit_setRegF_same _ 1 (by decide)
    · rw [State.regF_respond]
      have hother : u.regF k 1 2 = (s.setRegF k 1 2 (fld v.toNat 1 2)).regF k 1 2 :=
        State.regF_setRegF_disjoint _ _ (by decide) (.inr (by decide))
      have hsame : (s.setRegF k 1 2 (fld v.toNat 1 2)).regF k 1 2 = fld v.toNat 1 2 % 2 ^ 2 :=
        State.regF_setRegF_same _ _ (by decide)
      exact (hother.trans hsame).trans (Nat.mod_mod _ _)
  · rw [exec_portRetrainRequest hw hpriv hv, State.writePort_width _ hno]
  · have hpriv0 : a.priv.toNat = 0 := by rw [h0]; rfl
    have hst : ((journalSetup pgHublink 0x108 && a.priv.toNat != 0) || s.stateRefused pgHublink 0x108 v) = false := by
      simp [journalSetup, State.stateRefused, pgHublink, hspare]
    have h := accessWrite_of_accepted (aux := .none) (p := pgHublink) hw regAt_position
      (by rw [hpriv0]; exact judged_position s v) rfl (by decide) hst
    refine congrArg Host.Outcome.next (h.trans ?_)
    rw [← State.takePosition_eq]
    rfl
  · have hpriv0 : a.priv.toNat = 0 := by rw [h0]; rfl
    have hst : ((journalSetup pgHublink 0x108 && a.priv.toNat != 0) || s.stateRefused pgHublink 0x108 v) = true := by
      simp [journalSetup, State.stateRefused, pgHublink, hactive]
    exact refusedForState_of_exec (congrArg Host.Outcome.next (accessWrite_of_stateRefused (aux := .none) hw regAt_position
      (by rw [hpriv0]; exact judged_position s v) hst)) hw.mute ⟨by decide, by decide⟩ (by decide) (by decide)

end Sys2Proof.Machine

/-! ## Writes of POWER: calibration, tickets and the learner (O41) -/

namespace Sys2Proof.Machine

/-! ### Writes of POWER -/

theorem pgPower_aboveVectors : pgPower.AboveVectors := ⟨by decide, by decide⟩

/-- A register of POWER that no event is recorded in. -/
theorem pgPower_not_records {k : Nat} (h : 0x4804C ≤ k) : ¬ pgPower.records k :=
  Page.not_records_of_le pgPower_aboveVectors h

/-- A write of POWER at level 0 that meets no reserved encoding and no state refusal (R377). -/
theorem accessWrite_power {s : State} {a : Access} {off o : Nat} {r : RegRow} {v : Word} (hw : Performs s a 0x48000)
    (h0 : a.priv = 0) (hr : regAt off = some (pgPower, r)) (ho : off - pgPower.base = o)
    (hj : Judged s pgPower r o v 0) (hst : s.stateRefused pgPower o v = false)
    (he : s.writeEffect pgPower r o v 0 a.port.val .none = s.writePower pgPower r o v) :
    s.accessWrite a off v = (s.writePower pgPower r o v).respond a .rgwa 0 := by
  have hpriv : a.priv.toNat = 0 := by rw [h0]; rfl
  have h := accessWrite_of_accepted (v := v) (aux := .none) (p := pgPower) hw hr (by rw [hpriv, ho]; exact hj) rfl
    (by decide) (by rw [hpriv, ho, hst]; rfl)
  rw [hpriv, ho, he] at h
  exact h

theorem State.writePower_keep (s : State) (r : RegRow) (o : Nat) (v : Word) :
    Keep [.regs, .ports, .out, .outst, .vecBusy, .power] s (s.writePower pgPower r o v) :=
  have hl := Sub.refl [.regs, .ports, .out, .outst, .vecBusy, .power]
  (Keep.refl _ s).writePower _ _ _ _

theorem answers_writePower {c : Instr} {s : State} {a : Access} {o : Nat} {r : RegRow} {v : Word}
    (hw : Performs s a 0x48000) (h : exec c s = .next ((s.writePower pgPower r o v).respond a .rgwa 0)) :
    Answers c s ((s.writePower pgPower r o v).respond a .rgwa 0) (rgwaOf a 0) := by
  have keep := s.writePower_keep r o v
  exact answers_of_respond h keep.out ((keep.same.same .mute (by decide)).trans hw.mute)

/-- MEAS_SEQ (R377). -/
def measSeqRow : RegRow := { off := 0x194, name := "MEAS_SEQ", rw := 0xFFFF, rl := true, ru := 377 }
/-- TICKET_CTRL (R377). -/
def ticketCtrlRow : RegRow := { off := 0x1FC, name := "TICKET_CTRL", wo := 0x13F, ru := 377 }
/-- LEARN_CTRL (R377). -/
def learnCtrlRow : RegRow := { off := 0x10C, name := "LEARN_CTRL", reset := 0x00291500, rw := 0xFFFF03, wo := 4, ru := 377 }

theorem regAt_measSeq : regAt 0x48194 = some (pgPower, measSeqRow) := regAt_of_page rfl (p := pgPower) rfl rfl rfl
theorem regAt_ticketCtrl : regAt 0x481FC = some (pgPower, ticketCtrlRow) := regAt_of_page rfl (p := pgPower) rfl rfl rfl
theorem regAt_learnCtrl : regAt 0x4810C = some (pgPower, learnCtrlRow) := regAt_of_page rfl (p := pgPower) rfl rfl rfl

theorem judged_ticketCtrl (s : State) (v : Word) : Judged s pgPower ticketCtrlRow 0x1FC v 0 :=
  ⟨rfl, rfl, rfl, rfl, rfl⟩

theorem exec_measSeqWrite {s : State} {a : Access} {v : Word} (hw : Performs s a 0x48000) (h0 : a.priv = 0) :
    exec (.measSeqWrite a v) s = .next ((s.writePower pgPower measSeqRow 0x194 v).respond a .rgwa 0) :=
  congrArg _ (accessWrite_power hw h0 regAt_measSeq rfl ⟨rfl, rfl, rfl, rfl, rfl⟩ rfl rfl)

/-- The ticket that a release names is valid and its job runs (R375). -/
def State.ticketHeld (s : State) (v : Word) : Prop :=
  bit (s.regN (ticketKey (v.toNat % 64))) 31 = true ∧ s.jobRuns (s.regN (ticketKey (v.toNat % 64)) % 2 ^ 16) = true

theorem stateRefused_ticketCtrl {s : State} {v : Word} (h8 : bit v.toNat 8 = true) :
    s.stateRefused pgPower 0x1FC v = true ↔ s.ticketHeld v := by
  simp [State.stateRefused, pgPower, h8, fld_zero, State.ticketHeld]

theorem exec_ticketRelease {s : State} {a : Access} {v : Word} (hw : Performs s a 0x48000) (h0 : a.priv = 0)
    (h8 : bit v.toNat 8 = true) (hfree : ¬ s.ticketHeld v) :
    exec (.ticketRelease a v) s = .next ((s.writePower pgPower ticketCtrlRow 0x1FC v).respond a .rgwa 0) :=
  congrArg _ (accessWrite_power hw h0 regAt_ticketCtrl rfl (judged_ticketCtrl s v)
    (Bool.eq_false_iff.2 fun h => hfree ((stateRefused_ticketCtrl h8).1 h)) rfl)

theorem exec_learnClear {s : State} {a : Access} {v : Word} (hw : Performs s a 0x48000) (h0 : a.priv = 0)
    (hv : fld v.toNat 8 8 + fld v.toNat 16 8 ≤ 256) :
    exec (.learnClear a v) s = .next ((s.writePower pgPower learnCtrlRow 0x10C v).respond a .rgwa 0) := by
  have he : reservedValue pgPower.kind 0x10C v.toNat = false := decide_eq_false (by omega)
  exact congrArg _ (accessWrite_power hw h0 regAt_learnCtrl rfl ⟨rfl, rfl, rfl, he, rfl⟩ rfl rfl)

/-! ### What the writes do -/

/-- A release clears VALID of the ticket named (R375). -/
theorem State.bit_writePower_ticket {s : State} {v : Word} (h8 : bit v.toNat 8 = true) :
    bit ((s.writePower pgPower ticketCtrlRow 0x1FC v).regN (ticketKey (v.toNat % 64))) 31 = false := by
  have h : s.writePower pgPower ticketCtrlRow 0x1FC v =
      (s.store1 pgPower ticketCtrlRow 0x1FC v).setRegF (ticketKey (v.toNat % 64)) 31 1 0 := by
    simp [State.writePower, h8, fld_zero]
  rw [h, State.bit_setRegF_same _ _ (by decide)]
  rfl

/-- A write of LEARN_CTRL with CLEAR stores the writable bits and clears the learner. -/
theorem writePower_learnCtrl (s : State) {v : Word} (h2 : bit v.toNat 2 = true) :
    s.writePower pgPower learnCtrlRow 0x10C v = (s.setReg 0x4810C (written (s.reg 0x4810C) v 0xFFFF03)).learnClear := by
  have hones (x : Word) : x &&& 4294967295#32 = x := BitVec.and_allOnes
  have hst : s.store1 pgPower learnCtrlRow 0x10C v = s.setReg 0x4810C (written (s.reg 0x4810C) v 0xFFFF03) := by
    simp [State.store1, State.regKey, pgPower, RegRow.stored, learnCtrlRow, written, w32, hones]
  simp [State.writePower, h2, hst]

/-- The first `n` registers of the learner read 0 once each has been cleared. -/
theorem State.reg_clearLearner (s : State) {n i : Nat} (h : i < n) :
    ((List.range n).foldl (fun (t : State) j => t.setReg (0x48700 + 4 * j) 0) s).reg (0x48700 + 4 * i) = 0 := by
  induction n with
  | zero => omega
  | succ n ih =>
    rw [List.range_succ, List.foldl_append, List.foldl_cons, List.foldl_nil]
    by_cases hi : i = n
    · rw [hi, State.reg_setReg_same]
    · rw [State.reg_setReg_other _ _ (by omega), ih (by omega)]

theorem State.reg_withPower (s : State) (p : Power) (k : Nat) : ({ s with power := p } : State).reg k = s.reg k := rfl

/-- LEARN_CTRL.CLEAR leaves the registers below the learner's. -/
theorem State.reg_learnClear_below (s : State) {k : Nat} (h : k < 0x48700) : s.learnClear.reg k = s.reg k := by
  rw [State.learnClear, State.reg_withPower]
  exact State.reg_foldl (fun _ _ => State.reg_setReg_other _ _ (by omega)) _ s

/-- LEARN_CTRL.CLEAR clears the learner's 64 registers (R374). -/
theorem State.reg_learnClear (s : State) {i : Nat} (h : i < 64) : s.learnClear.reg (0x48700 + 4 * i) = 0 := by
  rw [State.learnClear, State.reg_withPower]
  exact s.reg_clearLearner h

/-! ### Calibration (R366 to R368) -/

/-- The gain of a supply after a report that says `meas` where the estimate is `raw`, both in 1/256 µJ: an eighth of the way
to measurement over estimate, where the estimate is not small and within a factor of two (R367, R368). -/
def calibrated (gain raw meas : Nat) : Nat :=
  if 256000 ≤ raw ∧ raw ≤ 2 * meas ∧ meas < 2 * raw then eighthStep gain (meas * 2 ^ 14 / raw) % 65536 else gain

theorem State.gain_of_reg {s t : State} {d : Nat} (h : t.reg (0x481A0 + 4 * d) = s.reg (0x481A0 + 4 * d)) :
    t.gain d = s.gain d := by
  simp only [State.gain, State.regF, State.regN, h]

theorem State.reg_calibrate_other (s : State) (i : Interval) (d : Nat) {k : Nat} (hk : 0x4804C ≤ k)
    (h : k ≠ 0x481A0 + 4 * d) : (s.calibrate i d).reg k = s.reg k := by
  have hrec := pgPower_not_records hk
  unfold State.calibrate
  dsimp only
  split
  · rfl
  · split
    · exact State.reg_setRegN_other _ _ h
    · rw [State.reg_raise_other _ _ hrec, State.reg_capture_other _ _ (by simp) hrec]

theorem State.gain_calibrate (s : State) (i : Interval) (d : Nat) :
    (s.calibrate i d).gain d =
      calibrated (s.gain d) (SMap.getD i.raw d 0) (s.regN (0x48140 + 4 * d) * 256) := by
  have hrec : ¬ pgPower.records (0x481A0 + 4 * d) := pgPower_not_records (by omega)
  unfold State.calibrate calibrated
  dsimp only
  split
  · next h => rw [if_neg (by omega)]
  · next h =>
    split
    · next hc =>
      rw [if_pos ⟨by omega, hc⟩, State.gain, State.regF, State.regN, State.reg_setRegN_same, toNat_w32 (by omega), fld_zero]
      exact Nat.mod_mod _ _
    · next hc =>
      rw [if_neg fun hh => hc hh.2]
      exact State.gain_of_reg (by rw [State.reg_raise_other _ _ hrec, State.reg_capture_other _ _ (by simp) hrec])

theorem State.reg_calibrateAll_other (s : State) (i : Interval) (n : Nat) {k : Nat} (hk : 0x4804C ≤ k)
    (h : ∀ d < n, k ≠ 0x481A0 + 4 * d) : ((List.range n).foldl (fun t d => t.calibrate i d) s).reg k = s.reg k := by
  induction n with
  | zero => rfl
  | succ n ih =>
    rw [List.range_succ, List.foldl_append, List.foldl_cons, List.foldl_nil,
      State.reg_calibrate_other _ _ _ hk (h n (by omega)), ih fun d hd => h d (by omega)]

/-- Each of the first `n` supplies is calibrated once, from its own measurement. -/
theorem State.gain_calibrateAll (s : State) (i : Interval) {n : Nat} (hn : n ≤ 21) {d : Nat} (hd : d < n) :
    ((List.range n).foldl (fun t d => t.calibrate i d) s).gain d =
      calibrated (s.gain d) (SMap.getD i.raw d 0) (s.regN (0x48140 + 4 * d) * 256) := by
  induction n with
  | zero => omega
  | succ n ih =>
    rw [List.range_succ, List.foldl_append, List.foldl_cons, List.foldl_nil]
    by_cases h : d = n
    · have hgain := State.gain_of_reg (d := n) (s.reg_calibrateAll_other i n (k := 0x481A0 + 4 * n) (by omega)
        fun e he => by omega)
      have hmeas := s.reg_calibrateAll_other i n (k := 0x48140 + 4 * n) (by omega) fun e he => by omega
      rw [h, State.gain_calibrate, hgain, State.regN, hmeas, State.regN]
    · rw [State.gain_of_reg (State.reg_calibrate_other _ _ _ (by omega) (by omega)), ih (by omega) (by omega)]

/-- The learner writes its own registers alone (R374). -/
theorem State.reg_learnUpdate_below (s : State) (i : Interval) {k : Nat} (h : k < 0x48700) :
    (s.learnUpdate i).reg k = s.reg k := by
  unfold State.learnUpdate
  dsimp only
  split
  · rfl
  · refine State.reg_foldl (fun u x => ?_) _ s
    split
    · rfl
    · split
      · rfl
      · exact State.reg_setRegN_other _ _ (by unfold learnKey; omega)

/-- An accepted report calibrates every supply and clears STALE. -/
theorem State.measure_found {s : State} {n : Nat} {i : Interval}
    (h : s.completed.find? (fun i => i.number % 65536 == n % 65536) = some i) :
    bit ((s.measure n).regN 0x481F8) 0 = false ∧ ∀ d < 21, (s.measure n).gain d =
      calibrated (s.gain d) (SMap.getD i.raw d 0) (s.regN (0x48140 + 4 * d) * 256) := by
  unfold State.measure
  rw [h]
  dsimp only
  refine ⟨?_, fun d hd => ?_⟩
  · rw [State.regN, State.reg_learnUpdate_below _ _ (by decide)]
    exact State.bit_setRegF_same _ 0 (by decide)
  · refine (State.gain_of_reg ?_).trans (s.gain_calibrateAll i (Nat.le_refl 21) hd)
    rw [State.reg_learnUpdate_below _ _ (by omega), State.reg_setRegF_other _ _ _ _ (by omega),
      State.reg_setRegF_other _ _ _ _ (by omega)]

/-- A report that names no interval is captured and counted up to 255. -/
theorem State.measure_missed {s : State} {n : Nat}
    (h : s.completed.find? (fun i => i.number % 65536 == n % 65536) = none) :
    (∀ d < 21, (s.measure n).gain d = s.gain d) ∧ (s.measure n).regF 0x481F8 8 8 = min 255 (s.regF 0x481F8 8 8 + 1) := by
  have hcap {k : Nat} (hk : 0x4804C ≤ k) : (s.capture pgPower 1 [w32 (n % 65536)]).reg k = s.reg k :=
    State.reg_capture_other _ _ (by simp) (pgPower_not_records hk)
  unfold State.measure
  rw [h]
  dsimp only
  refine ⟨fun d hd => State.gain_of_reg ?_, ?_⟩
  · rw [State.reg_setRegF_other _ _ _ _ (by omega), hcap (by omega)]
  · rw [State.regF_setRegF_same _ _ (by decide), State.regF, State.regN, hcap (by decide), State.regF, State.regN]
    exact Nat.mod_eq_of_lt (by omega)

/-! ### The completed intervals (R366) -/

/-- The completed interval of a number: the one held, or one in which no control period ended. -/
def State.intervalOf (s : State) (n : Nat) : Interval :=
  (s.power.held.find? fun x => x.number == n).getD { number := n, raw := [], split := [], link := [], sole := [] }

theorem State.completed_eq (s : State) : s.completed =
    (List.range (min 4 (s.time.now / 1000000))).map fun k => s.intervalOf (s.time.now / 1000000 - 1 - k) := rfl

theorem State.number_intervalOf (s : State) (n : Nat) : (s.intervalOf n).number = n := by
  unfold State.intervalOf
  cases h : s.power.held.find? fun x => x.number == n with
  | none => rfl
  | some j => simpa using List.find?_some h

theorem State.number_completed (s : State) : s.completed.map (·.number) =
    (List.range (min 4 (s.time.now / 1000000))).map fun k => s.time.now / 1000000 - 1 - k := by
  simp [State.completed_eq, State.number_intervalOf]

/-- A completed interval that the controller holds is the one held. -/
theorem State.completed_held {s : State} {i j : Interval} (hi : i ∈ s.completed)
    (h : s.power.held.find? (fun x => x.number == i.number) = some j) : i = j := by
  rw [State.completed_eq] at hi
  obtain ⟨k, -, rfl⟩ := List.mem_map.1 hi
  rw [State.number_intervalOf] at h
  rw [State.intervalOf, h, Option.getD_some]

/-- A write of MEAS_SEQ stores the number and measures. -/
theorem writePower_measSeq (s : State) (v : Word) : s.writePower pgPower measSeqRow 0x194 v =
    (s.setReg 0x48194 (measSeqRow.stored (s.reg 0x48194) v)).measure (fld v.toNat 0 16) := rfl

/-- Settles O41: the intervals by `completed_eq`, a report by `measure_found` and `measure_missed`, the ticket and the
learner by what `writePower` does at their registers. -/
theorem calibrationAndTickets : Obligations.CalibrationAndTickets := by
  intro s a v hw h0 cur found
  let t0 := s.setReg 0x48194 (measSeqRow.stored (s.reg 0x48194) v)
  have hgain (d : Nat) : t0.gain d = s.gain d := State.gain_of_reg (State.reg_setReg_other _ _ (by omega))
  have hfind : t0.completed.find? (fun i => i.number % 65536 == fld v.toNat 0 16 % 65536) = found := by
    simp only [fld_zero, Nat.reducePow, Nat.mod_mod]
    rfl
  have hmeasure := answers_writePower hw (exec_measSeqWrite (v := v) hw h0)
  rw [writePower_measSeq] at hmeasure
  refine ⟨s.number_completed, fun i hi j hj => State.completed_held hi hj, fun i hi => ?_, fun hn => ?_,
    fun h8 => ⟨fun hheld => ?_, fun hfree => ?_⟩, fun h2 hv => ?_⟩
  · obtain ⟨hstale, hcal⟩ := State.measure_found (hfind.trans hi)
    refine ⟨_, hmeasure, by rw [State.regN_respond]; exact hstale, fun d hd => ?_⟩
    have hmeas : t0.regN (0x48140 + 4 * d) = s.regN (0x48140 + 4 * d) :=
      congrArg BitVec.toNat (State.reg_setReg_other _ _ (by omega))
    have h := hcal d hd
    rw [hgain, hmeas] at h
    exact (State.gain_of_reg (State.reg_respond _ _ _ _ _ _)).trans h
  · obtain ⟨hkept, hmiss⟩ := State.measure_missed (hfind.trans hn)
    refine ⟨_, hmeasure, fun d hd => ?_, ?_⟩
    · exact (State.gain_of_reg (State.reg_respond _ _ _ _ _ _)).trans ((hkept d hd).trans (hgain d))
    · have hm : t0.regF 0x481F8 8 8 = s.regF 0x481F8 8 8 := by
        rw [State.regF, State.regN, State.reg_setReg_other _ _ (by decide), State.regF, State.regN]
      rw [State.regF_respond]
      exact hmiss.trans (by rw [hm])
  · have hst : s.stateRefused pgPower 0x1FC v = true := (stateRefused_ticketCtrl h8).2 hheld
    have hpriv : a.priv.toNat = 0 := by rw [h0]; rfl
    refine refusedForState_of_exec (congrArg Host.Outcome.next (accessWrite_of_stateRefused (aux := .none) hw
      regAt_ticketCtrl (by rw [hpriv]; exact judged_ticketCtrl s v) ?_)) hw.mute pgPower_aboveVectors (by decide)
      (by decide)
    exact Bool.or_eq_true_iff.2 (.inr hst)
  · refine ⟨_, answers_writePower hw (exec_ticketRelease hw h0 h8 hfree), ?_⟩
    rw [State.regN_respond]
    exact State.bit_writePower_ticket h8
  · refine ⟨_, answers_writePower hw (exec_learnClear hw h0 hv), fun i hi => ?_, ?_⟩
    · rw [State.reg_respond, writePower_learnCtrl s h2, State.reg_learnClear _ hi]
    · rw [State.reg_respond, writePower_learnCtrl s h2, State.reg_learnClear_below _ (by decide), State.reg_setReg_same]

end Sys2Proof.Machine

/-! ## The mailbox, shutdown and watchdog (O52) -/

namespace Sys2Proof.Machine

/-- A die that stops for a SHUTDOWN while the FLUSH of an interrupt message is out, with a vector number that puts the
vector's control register (20Ch + 16v, R330) at AUDIT's WRITTEN. -/
def stoppingWithStrayFlush : State :=
  { State.reset with
    shut := .stopping
    outst := [⟨0, .flush, 0, 0, 0, 1, .vectorFlush 0x54F0, none⟩] }

/-- The shutdown's audit record raises WRITTEN from 0 to 1, and the stray vector's PEND sets bit 1 of it. -/
theorem auditWritten_shutdownFinish_strayFlush : stoppingWithStrayFlush.shutdownFinish.auditWritten = 3 := by
  decide +kernel

/-- Refutes O52: the statement speaks of every state, and SHUTDOWN_FINISH sets PEND of the vector that each outstanding
FLUSH of an interrupt names (`dropTraffic`). Vector 54F0h, which the die does not have and no reachable state names, has
its control register at 5510Ch, AUDIT's WRITTEN: it reads 3 after the shutdown's one record, where the statement has 1. -/
theorem not_mailboxAndWatchdog : ¬ Obligations.MailboxAndWatchdog := by
  rintro ⟨-, hfinish, -⟩
  obtain ⟨t, ht, -, -, -, -, -, haudit, -⟩ := (hfinish stoppingWithStrayFlush).2
    ⟨rfl, rfl, by decide, .inl rfl⟩ (by decide)
  have hst : stoppingWithStrayFlush.shutdownFinish = t := Host.Outcome.next.inj ht
  rw [← hst, auditWritten_shutdownFinish_strayFlush] at haudit
  exact absurd haudit (by decide)

end Sys2Proof.Machine

/-! ## The front of the queue (O6) -/

namespace Sys2Proof.Machine

/-- A step takes the command at the front off the queue and runs it on what is left. -/
theorem step_of_pending_cons {s : State} {c : Instr} {rest : List Instr} (h : s.pending = c :: rest) :
    step s = exec c { s with pending := rest } := by
  rw [step, h]

/-- Settles O6: with the queue set to `c :: rest`, setting it to `rest` again leaves nothing of the first setting. -/
theorem stepRunsTheFrontCommand : Obligations.StepRunsTheFrontCommand :=
  fun c rest s => step_of_pending_cons (s := { s with pending := c :: rest }) rfl

end Sys2Proof.Machine

/-! ## Cluster pages and test registers (O48) -/

namespace Sys2Proof.Machine

/-! ### Writes of the pages of a cluster whose island runs -/

theorem State.wakeIsland_of_ladder {s : State} {c : Nat} (h : s.ladder c = 0) : s.wakeIsland c = s := by
  simp [State.wakeIsland, State.asleep, h]

theorem State.darkPage_of_ladder {s : State} {p : Page} (h : s.ladder p.inst = 0) : s.darkPage p = false := by
  unfold State.darkPage
  split
  all_goals first | rfl | simp [h]

theorem State.wakeFor_of_ladder {s : State} {p : Page} (h : s.ladder p.inst = 0) : s.wakeFor p = s := by
  unfold State.wakeFor
  split
  all_goals first | rfl | exact State.wakeIsland_of_ladder h

/-- A register of a cluster's page by its row in the page's table (R322). -/
theorem regAt_cluster (c : Fin 320) {i o : Nat} {r : RegRow} (hi : i < 4) (ho : o < 0x1000) (h4 : o % 4 = 0)
    (hr : (clusterPageKind i).rowAt o = some r) :
    regAt (clusterBase c + i * 0x1000 + o) =
      some (⟨clusterPageKind i, c, clusterBase c + i * 0x1000⟩, r) := by
  have hbase : clusterBase c % 4 = 0 := by unfold clusterBase; omega
  exact regAt_of_page (by omega) (pageAt_cluster c.isLt hi ho) (Nat.add_sub_cancel_left _ _) hr

/-- A register with no RL field meets no refusal for its level, outside the test region or with that unlocked
(R13, R358). -/
theorem accessRefused_eq_none (s : State) (p : Page) {r : RegRow} {o : Nat} {a : Access} (hpriv : Privileged a)
    (hrl : r.rl = false) (ho : o < 0xF00 ∨ s.testUnlocked = true) : s.accessRefused p r o a.priv.toNat = none := by
  rw [accessRefused_of_privileged s p r o hpriv.lt, if_neg, if_neg]
  · simp [hrl]
  · rintro ⟨h, hlock⟩
    rcases ho with ho | ho
    · omega
    · exact absurd (ho.symm.trans hlock) (by decide)

/-- A write that nothing refuses, of a page that wakes no island (R287): WIN_OPEN judges its handles, every other register
takes its effect. -/
theorem accessWrite_of_judged {s : State} {a : Access} {off o : Nat} {p : Page} {r : RegRow} {v : Word}
    (hw : Performs s a p.base) (hr : regAt off = some (p, r)) (ho : off - p.base = o)
    (hj : Judged s p r o v a.priv.toNat) (hawake : s.wakeFor p = s)
    (h : ((journalSetup p o && a.priv.toNat != 0) || s.stateRefused p o v) = false) :
    s.accessWrite a off v =
      if p.kind = .store ∧ (o = 0x108 ∨ o = 0x10C) then
        (s.openWindows p.inst ((o - 0x108) / 4) v.toNat).1.respond a .rgwa
          (s.openWindows p.inst ((o - 0x108) / 4) v.toNat).2
      else (s.writeEffect p r o v a.priv.toNat a.port.val .none).respond a .rgwa 0 := by
  rw [accessWrite_of_row hw hr, ho]
  simp only [State.writeRegister, hj.access, hj.dark, hj.commit, hj.encoding, hj.prot, h, hawake,
    State.pageInject_of_unarmed hw.unarmed, Bool.false_eq_true, if_false]
  split <;> rfl

/-! ### Values stored -/

theorem RegRow.stored_rw {r : RegRow} (h1 : r.w1c = 0) (h2 : r.w1s = 0) (cur v : Word) :
    r.stored cur v = written cur v r.rw := by
  have hones (x : Word) : x &&& 4294967295#32 = x := BitVec.and_allOnes
  simp [RegRow.stored, written, h1, h2, w32, hones]

theorem RegRow.stored_w1c {r : RegRow} (h1 : r.rw = 0) (h2 : r.w1s = 0) (cur v : Word) :
    r.stored cur v = cur &&& ~~~ (v &&& w32 r.w1c) := by
  have hones (x : Word) : x &&& 4294967295#32 = x := BitVec.and_allOnes
  simp [RegRow.stored, h1, h2, w32, hones]

/-! ### CORE_ACCESS: FX_STATUS, RESCUE_LOG and T_QUAD (R129, R130, R360) -/

def fxStatusRow : RegRow := { off := 0x208, name := "FX_STATUS", w1c := 0x80000000, ru := 130 }
def rescueLogRow : RegRow := { off := 0x224, name := "RESCUE_LOG", wo := 0x80000000, ru := 130 }
def tQuadRow : RegRow := { off := 0xF20, name := "T_QUAD", rw := 0x8000000F, ru := 360 }

section CoreAccess

variable {s : State} {a : Access} {c : Fin 320} {o : Nat} {r : RegRow} {v : Word}

theorem regAt_coreAccess (c : Fin 320) (ho : o < 0x1000) (h4 : o % 4 = 0) (hr : PageKind.rowAt .coreAccess o = some r) :
    regAt (clusterBase c + 0x3000 + o) = some (pgCore c, r) :=
  regAt_cluster c (i := 3) (by decide) ho h4 hr

/-- A register of the selected core stands under that core's key. -/
theorem regKey_coreAccess (s : State) (c : Nat) (h : windowed o = true) :
    s.regKey (pgCore c) o = coreKey (s.selectedCore c) o := by
  simp [State.regKey, pgCore, h]

/-- CORE_ACCESS has no field with a shadow and no reserved encoding outside T_INJ. -/
theorem judged_coreAccess (hpriv : Privileged a) (hl : s.ladder c = 0) (hrl : r.rl = false) (hrs : r.rs = 0)
    (ho : o < 0xF00 ∨ s.testUnlocked = true) (hblock : 0x100 ≤ o) (hinj : o ≠ 0xF10) :
    Judged s (pgCore c) r o v a.priv.toNat := by
  refine ⟨accessRefused_eq_none s _ hpriv hrl ho, State.darkPage_of_ladder hl, ?_, ?_, ?_⟩
  · simp [State.commitRefused, pgCore, hrs, show o ≠ 0x40 by omega, show o ≠ 0x44 by omega]
  · simp [reservedValue, pgCore, hinj]
  · simp [State.protRefused, pgCore]

/-- An accepted write of a register of the selected core. -/
theorem accessWrite_coreAccess (hpriv : Privileged a) (hl : s.ladder c = 0) (hw : Performs s a (clusterBase c + 0x3000))
    (hr : PageKind.rowAt .coreAccess o = some r) (hrl : r.rl = false) (hrs : r.rs = 0) (h4 : o % 4 = 0)
    (ho : o < 0xF00 ∨ s.testUnlocked = true) (hblock : 0x100 ≤ o) (hlt : o < 0x1000) (hinj : o ≠ 0xF10)
    (hst : s.stateRefused (pgCore c) o v = false) :
    s.accessWrite a (clusterBase c + 0x3000 + o) v =
      (s.writeEffect (pgCore c) r o v a.priv.toNat a.port.val .none).respond a .rgwa 0 := by
  have hoff : clusterBase c + 0x3000 + o - (pgCore c).base = o := Nat.add_sub_cancel_left _ _
  rw [accessWrite_of_judged (p := pgCore c) hw (regAt_coreAccess c hlt h4 hr) hoff
    (judged_coreAccess hpriv hl hrl hrs ho hblock hinj) (State.wakeFor_of_ladder hl) (by rw [hst]; rfl)]
  exact if_neg (by simp [pgCore])

theorem exec_fxStatusClear (hpriv : Privileged a) (hl : s.ladder c = 0) (hw : Performs s a (clusterBase c + 0x3000)) :
    exec (.fxStatusClear a c v) s = .next ((s.setReg (coreKey (s.selectedCore c) 0x208)
      (s.reg (coreKey (s.selectedCore c) 0x208) &&& ~~~ (v &&& w32 0x80000000))).respond a .rgwa 0) := by
  have h := accessWrite_coreAccess (v := v) (o := 0x208) (r := fxStatusRow) hpriv hl hw rfl rfl rfl rfl
    (.inl (by decide)) (by decide) (by decide) (by decide) rfl
  have hstored : fxStatusRow.stored (s.reg (coreKey (s.selectedCore c) 0x208)) v =
      s.reg (coreKey (s.selectedCore c) 0x208) &&& ~~~ (v &&& w32 0x80000000) := RegRow.stored_w1c rfl rfl _ _
  rw [← hstored]
  exact congrArg Host.Outcome.next h

theorem exec_rescueLogClear (hpriv : Privileged a) (hl : s.ladder c = 0) (hw : Performs s a (clusterBase c + 0x3000)) :
    exec (.rescueLogClear a c v) s = .next ((if bit v.toNat 31 then
      s.setReg (coreKey (s.selectedCore c) 0x224) 0 else s).respond a .rgwa 0) :=
  congrArg Host.Outcome.next (accessWrite_coreAccess (v := v) (o := 0x224) (r := rescueLogRow) hpriv hl hw rfl rfl rfl rfl
    (.inl (by decide)) (by decide) (by decide) (by decide) rfl)

theorem stateRefused_tQuad (s : State) (c : Nat) (v : Word) : s.stateRefused (pgCore c) 0xF20 v =
    (bit v.toNat 31 && (s.core (s.selectedCore c)).holdsWork) := rfl

theorem exec_tQuadWrite (hpriv : Privileged a) (hl : s.ladder c = 0) (hw : Performs s a (clusterBase c + 0x3000))
    (ht : s.testUnlocked = true) (hfree : bit v.toNat 31 = false ∨ (s.core (s.selectedCore c)).holdsWork = false) :
    exec (.tQuadWrite a c v) s = .next ((s.setReg (coreKey (s.selectedCore c) 0xF20)
      (written (s.reg (coreKey (s.selectedCore c) 0xF20)) v 0x8000000F)).respond a .rgwa 0) := by
  have hst : s.stateRefused (pgCore c) 0xF20 v = false := by
    rw [stateRefused_tQuad, Bool.and_eq_false_iff]
    exact hfree
  have h := accessWrite_coreAccess (v := v) (o := 0xF20) (r := tQuadRow) hpriv hl hw rfl rfl rfl rfl
    (.inr ht) (by decide) (by decide) (by decide) hst
  have hstored : tQuadRow.stored (s.reg (coreKey (s.selectedCore c) 0xF20)) v =
      written (s.reg (coreKey (s.selectedCore c) 0xF20)) v 0x8000000F := RegRow.stored_rw rfl rfl _ _
  rw [← hstored]
  exact congrArg Host.Outcome.next h

theorem pgCore_aboveVectors (c : Nat) : (pgCore c).AboveVectors := by
  unfold Page.AboveVectors pgCore clusterBase
  constructor <;> simp only [Page.vector] <;> omega

theorem tQuadWrite_refused (hpriv : Privileged a) (hl : s.ladder c = 0) (hw : Performs s a (clusterBase c + 0x3000))
    (ht : s.testUnlocked = true) (h31 : bit v.toNat 31 = true) (hwork : (s.core (s.selectedCore c)).holdsWork = true) :
    RefusedForState (.tQuadWrite a c v) s a (pgCore c) 0xE6 0xF20 := by
  have hst : s.stateRefused (pgCore c) 0xF20 v = true := by rw [stateRefused_tQuad, h31, hwork]; rfl
  have hoff : clusterBase c + 0x3000 + 0xF20 - (pgCore c).base = 0xF20 := Nat.add_sub_cancel_left _ _
  have hj := judged_coreAccess (v := v) (r := tQuadRow) (o := 0xF20) hpriv hl rfl rfl (.inr ht) (by decide) (by decide)
  have h := accessWrite_of_stateRefused (v := v) (aux := .none) (p := pgCore c) hw
    (regAt_coreAccess c (o := 0xF20) (r := tQuadRow) (by decide) rfl rfl) (by rw [hoff]; exact hj)
    (by rw [hoff, hst, Bool.or_true])
  rw [hoff] at h
  exact refusedForState_of_exec (congrArg Host.Outcome.next h) hw.mute (pgCore_aboveVectors c) (by simp [pgCore])
    (by decide)

end CoreAccess

/-! ### TAG_RESET (R225, R234) -/

theorem setHas_iff {l : List Nat} {x : Nat} : setHas l x = true ↔ x ∈ l := by
  simp [setHas]

theorem mem_setIns {l : List Nat} {k x : Nat} : x ∈ setIns l k ↔ x = k ∨ x ∈ l := by
  induction l with
  | nil => simp [setIns]
  | cons j t ih =>
    simp only [setIns]
    split
    · simp
    · split
      · next h => simp [h]
      · rw [List.mem_cons, ih, List.mem_cons, or_left_comm]

theorem setHas_setIns (l : List Nat) (k x : Nat) : setHas (setIns l k) x = (decide (x = k) || setHas l x) := by
  rw [Bool.eq_iff_iff, Bool.or_eq_true, setHas_iff, setHas_iff, mem_setIns, decide_eq_true_iff]

theorem setHas_setDel (l : List Nat) (k x : Nat) : setHas (setDel l k) x = (decide (x ≠ k) && setHas l x) := by
  rw [Bool.eq_iff_iff, Bool.and_eq_true, setHas_iff, setHas_iff, setDel, List.mem_filter, and_comm]

theorem State.isFull_setFull (s : State) (k x : Nat) (f : Bool) :
    (s.setFull k f).isFull x = if x = k then f else s.isFull x := by
  unfold State.isFull State.setFull
  cases f
  · simp only [Bool.false_eq_true, if_false, setHas_setDel]
    by_cases h : x = k <;> simp [h]
  · simp only [if_true, setHas_setIns]
    by_cases h : x = k <;> simp [h]

/-- Tags set one after the other to one value. -/
theorem State.isFull_setFulls (ks : List Nat) (s : State) (f : Bool) (x : Nat) :
    (ks.foldl (fun t k => t.setFull k f) s).isFull x = if x ∈ ks then f else s.isFull x := by
  induction ks generalizing s with
  | nil => simp
  | cons k ks ih =>
    rw [List.foldl_cons, ih, State.isFull_setFull]
    by_cases h : x ∈ ks <;> by_cases hk : x = k <;> simp [h, hk]

/-- The tags of the slots of a handle, of both sides of a twin (R228). -/
def tagsOf (c : Nat) (e : Handle) : List Nat :=
  (if e.twin then [false, true] else [false]).flatMap fun sd => (List.range e.slots).map fun t =>
    slotKey c (e.place sd (t * 64)).1 (e.place sd (t * 64)).2.1

theorem State.setTags_eq (s : State) (c h : Nat) (full : Bool) :
    s.setTags c h full = ((tagsOf c (s.handle c h)).foldl (fun t k => t.setFull k full) s).bumpGen c h := rfl

theorem mem_tagsOf {c k : Nat} {e : Handle} : k ∈ tagsOf c e ↔ ∃ sd i, (sd = true → e.twin = true) ∧ i < e.slots ∧
    k = slotKey c (e.place sd (64 * i)).1 (e.place sd (64 * i)).2.1 := by
  have hsd (sd : Bool) : sd ∈ (if e.twin then [false, true] else [false]) ↔ (sd = true → e.twin = true) := by
    cases sd <;> cases e.twin <;> simp
  simp only [tagsOf, List.mem_flatMap, hsd, List.mem_map, List.mem_range]
  constructor
  · rintro ⟨sd, ht, i, hi, rfl⟩
    exact ⟨sd, i, ht, hi, by rw [Nat.mul_comm]⟩
  · rintro ⟨sd, i, ht, hi, rfl⟩
    exact ⟨sd, ht, i, hi, by rw [Nat.mul_comm]⟩

theorem State.setFulls_keep (ks : List Nat) (s : State) (f : Bool) :
    Keep [.full] s (ks.foldl (fun t k => t.setFull k f) s) :=
  have hl := Sub.refl [.full]
  (Keep.refl _ s).foldl fun _ _ h => h.setFull _ _

theorem State.isFull_setTags (s : State) (c h : Nat) (full : Bool) (x : Nat) :
    (s.setTags c h full).isFull x = if x ∈ tagsOf c (s.handle c h) then full else s.isFull x :=
  State.isFull_setFulls _ _ _ _

/-- The generation advances with a TAG_RESET (R231). -/
theorem State.genOf_setTags (s : State) (c h : Nat) (full : Bool) : genOf (s.setTags c h full) c h = genOf s c h + 1 := by
  rw [State.setTags_eq, genOf, State.bumpGen, State.reg_incReg_same,
    State.reg_of_regs ((s.setFulls_keep _ _).same.same .regs (by decide))]
  rfl

theorem State.setTags_keep (s : State) (c h : Nat) (full : Bool) : Keep [.regs, .full] s (s.setTags c h full) :=
  have hl := Sub.refl [.regs, .full]
  (Keep.refl _ s).setTags _ _ _

theorem State.isFull_respond (s : State) (a : Access) (op : TxnOp) (st aux k : Nat) :
    (s.respond a op st aux).isFull k = s.isFull k := by
  have h : (s.respond a op st aux).full = s.full := (s.send_keep _).same.same .full (by decide)
  simp only [State.isFull, h]

section StorePage

variable {s : State} {a : Access} {c : Fin 320} {o : Nat} {r : RegRow} {v : Word}

def tagResetRow : RegRow := { off := 0x110, name := "TAG_RESET", wo := 0x13F, ru := 225 }
def winOpenRow : RegRow := { off := 0x108, name := "WIN_OPEN", count := 2, w1s := m32, ru := 225 }

theorem regAt_store (c : Fin 320) (ho : o < 0x1000) (h4 : o % 4 = 0) (hr : PageKind.rowAt .store o = some r) :
    regAt (clusterBase c + 0x1000 + o) = some (pgStore c, r) :=
  regAt_cluster c (i := 1) (by decide) ho h4 hr

/-- The registers of STORE below the handles that have no shadow meet no refusal. -/
theorem judged_store (hpriv : Privileged a) (hl : s.ladder c = 0) (hrl : r.rl = false) (hrs : r.rs = 0)
    (hblock : 0x100 < o) (ho : o < 0x400) : Judged s (pgStore c) r o v a.priv.toNat := by
  refine ⟨accessRefused_eq_none s _ hpriv hrl (.inl (by omega)), State.darkPage_of_ladder hl, ?_, ?_, ?_⟩
  · simp [State.commitRefused, pgStore, hrs, show o ≠ 0x40 by omega, show o ≠ 0x44 by omega]
  · simp [reservedValue, pgStore, show o ≠ 0xF10 by omega, show ¬ 0xF00 ≤ o by omega, show o ≠ 0x100 by omega,
      show ¬ 0x400 ≤ o by omega]
  · simp [State.protRefused, pgStore]

theorem exec_tagReset (hpriv : Privileged a) (hl : s.ladder c = 0) (hw : Performs s a (clusterBase c + 0x1000)) :
    exec (.tagReset a c v) s = .next ((s.setTags c (v.toNat % 64) (bit v.toNat 8)).respond a .rgwa 0) := by
  have h := accessWrite_of_judged (v := v) (o := 0x110) (p := pgStore c) hw
    (regAt_store c (r := tagResetRow) (by decide) rfl rfl) (Nat.add_sub_cancel_left _ _)
    (judged_store hpriv hl rfl rfl (by decide) (by decide)) (State.wakeFor_of_ladder hl) rfl
  rw [if_neg (by simp)] at h
  rw [show v.toNat % 64 = fld v.toNat 0 6 from (fld_zero _ 6).symm]
  exact congrArg Host.Outcome.next h

theorem exec_winOpen (hpriv : Privileged a) (hl : s.ladder c = 0) (hw : Performs s a (clusterBase c + 0x1000)) (w : Fin 2) :
    exec (.winOpen a c w v) s = .next ((s.openWindows c w v.toNat).1.respond a .rgwa (s.openWindows c w v.toNat).2) := by
  have hw2 := w.isLt
  have hrow : PageKind.rowAt .store (0x108 + 4 * w) = some winOpenRow := by
    have h : ∀ w : Fin 2, PageKind.rowAt .store (0x108 + 4 * w) = some winOpenRow := by
      intro w; fin_cases w <;> rfl
    exact h w
  have hword : (0x108 + 4 * w.val - 0x108) / 4 = w := by omega
  have h := accessWrite_of_judged (v := v) (o := 0x108 + 4 * w) (p := pgStore c) hw
    (regAt_store c (r := winOpenRow) (by omega) (by omega) hrow) (Nat.add_sub_cancel_left _ _)
    (judged_store hpriv hl rfl rfl (by omega) (by omega)) (State.wakeFor_of_ladder hl) rfl
  rw [if_pos ⟨rfl, by omega⟩, hword] at h
  rw [← Nat.add_assoc] at h
  exact congrArg Host.Outcome.next h

end StorePage

/-! ### WIN_OPEN (R245) -/

theorem State.openWindow_of_open {s : State} {c g : Nat} (h : s.windowOpen c g = true) : s.openWindow c g = s := by
  simp [State.openWindow, h]

theorem State.openWindow_of_refused {s : State} {c g : Nat} (h : s.openRefused c g = true) : s.openWindow c g =
    (s.capture (pgStore c) 9 [w32 (g * 2097152 + 134217728)]).noteRefusal (pgStore c) := by
  simp only [State.openRefused, Bool.and_eq_true, Bool.not_eq_true', Bool.or_eq_true, beq_iff_eq, bne_iff_ne] at h
  obtain ⟨hclosed, h⟩ := h
  simp [State.openWindow, hclosed, h]

theorem State.openWindow_of_opened {s : State} {c g : Nat} (hclosed : s.windowOpen c g = false)
    (h : s.openRefused c g = false) : s.openWindow c g =
      (((s.scrub c g).setReg (winCountKey c (s.handle c g).winCtr) 0).clearOwner c g).setWindow c g true := by
  simp only [State.openRefused, hclosed, Bool.not_false, Bool.true_and, Bool.or_eq_false_iff, beq_eq_false_iff_ne,
    bne_eq_false_iff_eq] at h
  obtain ⟨⟨⟨hen, hcount⟩, hpower⟩, hnamed⟩ := h
  simp [State.openWindow, hclosed, hen, hcount, hpower, hnamed]

theorem State.reg_scrub_other (s : State) (c g : Nat) {k : Nat} (h : k ≠ handleKey c g 7) :
    (s.scrub c g).reg k = s.reg k :=
  State.reg_incReg_other _ _ h

theorem State.reg_clearOwner (s : State) (c g k : Nat) :
    (s.clearOwner c g).reg k = (s.setRegN (ownerKey c g) 0x80000000).reg k := rfl

theorem pgStore_records {c k : Nat} (h : (pgStore c).records k) : k < clusterBase c + 0x104C := by
  unfold Page.records pgStore at h
  simp only [Page.vector] at h
  unfold clusterBase at *
  omega

theorem State.noteRefusal_store (s : State) (c : Nat) : s.noteRefusal (pgStore c) =
    ((s.incReg (clusterBase c + 0x1048)).incReg (clusterBase c + 0x1148)).raise (pgStore c) 0x80000000 := rfl

/-- A refused opening is recorded in the page's event registers and REFUSE_COUNT (R261). -/
theorem State.reg_openWindow_refused {s : State} {c g k : Nat} (h : s.openRefused c g = true)
    (hk : clusterBase c + 0x104C ≤ k) (hc : k ≠ clusterBase c + 0x1148) : (s.openWindow c g).reg k = s.reg k := by
  have hrec : ¬ (pgStore c).records k := fun hr => by have := pgStore_records hr; omega
  rw [State.openWindow_of_refused h, State.noteRefusal_store, State.reg_raise_other _ _ hrec,
    State.reg_incReg_other _ _ hc, State.reg_incReg_other _ _ (by omega), State.reg_capture_other _ _ (by simp) hrec]

/-- What opening one window of a cluster may write above REFUSE_COUNT: the handle's generation, its owner and its linked
counter. -/
theorem State.reg_openWindow_other {s : State} {c g k : Nat} (hk : clusterBase c + 0x114C ≤ k)
    (hgen : k ≠ handleKey c g 7) (howner : k ≠ ownerKey c g) (hcount : k ≠ winCountKey c (s.handle c g).winCtr)
    (hg : g < 64) : (s.openWindow c g).reg k = s.reg k := by
  cases hopen : s.windowOpen c g
  · cases hrefused : s.openRefused c g
    · rw [State.openWindow_of_opened hopen hrefused, State.setWindow, State.reg_setRegF_other _ _ _ _ (by omega),
        State.reg_clearOwner, State.reg_setRegN_other _ _ howner, State.reg_setReg_other _ _ hcount,
        State.reg_scrub_other _ _ _ hgen]
    · exact State.reg_openWindow_refused hrefused (by omega) (by omega)
  · rw [State.openWindow_of_open hopen]

theorem State.winCtr_lt (s : State) (c g : Nat) : (s.handle c g).winCtr < 64 := Nat.mod_lt _ (by decide)

/-- The entries of the handles stay. -/
theorem State.handle_openWindow (s : State) {c g h : Nat} (hg : g < 64) (hh : h < 64) :
    (s.openWindow c g).handle c h = s.handle c h := by
  have hctr := s.winCtr_lt c g
  have hword {i : Nat} (hi : i < 5) : (s.openWindow c g).regN (handleKey c h i) = s.regN (handleKey c h i) :=
    congrArg BitVec.toNat (State.reg_openWindow_other (by unfold handleKey; omega) (by unfold handleKey; omega)
      (by unfold handleKey ownerKey; omega) (by unfold handleKey winCountKey; omega) hg)
  simp only [State.handle, hword (i := 0) (by decide), hword (i := 1) (by decide), hword (i := 2) (by decide),
    hword (i := 3) (by decide), hword (i := 4) (by decide)]

theorem State.openWindow_keep (s : State) (c g : Nat) :
    Keep [.regs, .store, .full, .owners, .endedOwners, .ports, .out, .outst, .vecBusy, .power] s (s.openWindow c g) :=
  have hl := Sub.refl [.regs, .store, .full, .owners, .endedOwners, .ports, .out, .outst, .vecBusy, .power]
  (Keep.refl _ s).openWindow _ _

theorem State.named_openWindow (s : State) (c g h : Nat) : (s.openWindow c g).named c h = s.named c h := by
  have hops : (s.openWindow c g).ops = s.ops := (s.openWindow_keep c g).same.same .ops (by decide)
  simp only [State.named, hops]

theorem State.genOf_openWindow_other (s : State) {c g h : Nat} (hg : g < 64) (hh : h < 64) (hne : h ≠ g) :
    genOf (s.openWindow c g) c h = genOf s c h := by
  have hctr := s.winCtr_lt c g
  exact State.reg_openWindow_other (by unfold handleKey; omega) (by unfold handleKey; omega)
    (by unfold handleKey ownerKey; omega) (by unfold handleKey winCountKey; omega) hg

theorem State.ownerOf_of_reg {s t : State} {c h : Nat} (hreg : t.reg (ownerKey c h) = s.reg (ownerKey c h)) :
    t.ownerOf c h = s.ownerOf c h := by
  rw [State.ownerOf, State.regN, hreg]
  rfl

theorem State.ownerOf_openWindow_other (s : State) {c g h : Nat} (hg : g < 64) (hne : h ≠ g) :
    (s.openWindow c g).ownerOf c h = s.ownerOf c h := by
  have hctr := s.winCtr_lt c g
  have hreg : (s.openWindow c g).reg (ownerKey c h) = s.reg (ownerKey c h) :=
    State.reg_openWindow_other (by unfold ownerKey; omega) (by unfold handleKey ownerKey; omega)
      (by unfold ownerKey; omega) (by unfold ownerKey winCountKey; omega) hg
  exact State.ownerOf_of_reg hreg

/-- A counter at 0 stays there. -/
theorem State.count_openWindow (s : State) {c g ctr : Nat} (hg : g < 64) (hctr : ctr < 64)
    (h : s.reg (winCountKey c ctr) = 0) : (s.openWindow c g).reg (winCountKey c ctr) = 0 := by
  by_cases hc : ctr = (s.handle c g).winCtr
  · cases hopen : s.windowOpen c g
    · cases hrefused : s.openRefused c g
      · rw [State.openWindow_of_opened hopen hrefused, State.setWindow,
          State.reg_setRegF_other _ _ _ _ (by unfold winCountKey; omega), State.reg_clearOwner,
          State.reg_setRegN_other _ _ (by unfold winCountKey ownerKey; omega), ← hc, State.reg_setReg_same]
      · rw [State.reg_openWindow_refused hrefused (by unfold winCountKey; omega) (by unfold winCountKey; omega), h]
    · rw [State.openWindow_of_open hopen, h]
  · rw [State.reg_openWindow_other (by unfold winCountKey; omega) (by unfold winCountKey handleKey; omega)
      (by unfold winCountKey ownerKey; omega) (by unfold winCountKey; omega) hg, h]

/-- What an opening that is not refused leaves of its handle (R231, R245). -/
theorem State.openWindow_opened {s : State} {c g : Nat} (hg : g < 64) (hclosed : s.windowOpen c g = false)
    (h : s.openRefused c g = false) : genOf (s.openWindow c g) c g = genOf s c g + 1 ∧
      (s.openWindow c g).ownerOf c g = none ∧ (s.openWindow c g).reg (winCountKey c (s.handle c g).winCtr) = 0 := by
  have hctr := s.winCtr_lt c g
  rw [State.openWindow_of_opened hclosed h, State.setWindow]
  refine ⟨?_, ?_, ?_⟩
  · rw [genOf, State.reg_setRegF_other _ _ _ _ (by unfold handleKey; omega), State.reg_clearOwner,
      State.reg_setRegN_other _ _ (by unfold handleKey ownerKey; omega),
      State.reg_setReg_other _ _ (by unfold handleKey winCountKey; omega), State.scrub, State.bumpGen,
      State.reg_incReg_same]
    rfl
  · rw [State.ownerOf, State.regN, State.reg_setRegF_other _ _ _ _ (by unfold ownerKey; omega), State.reg_clearOwner,
      State.reg_setRegN_same]
    rfl
  · rw [State.reg_setRegF_other _ _ _ _ (by unfold winCountKey; omega), State.reg_clearOwner,
      State.reg_setRegN_other _ _ (by unfold ownerKey winCountKey; omega), State.reg_setReg_same]

/-- Another bit of a register stays. -/
theorem State.bit_setRegF_other (s : State) {k i j : Nat} (v : Nat) (hj : j < 32) (hne : j ≠ i) :
    bit ((s.setRegF k i 1 v).regN k) j = bit (s.regN k) j := by
  rw [bit_eq_testBit, bit_eq_testBit, State.regN, State.reg_setRegF_same, testBit_toNat_w32, testBit_putFld,
    decide_eq_true hj, Bool.true_and]
  split
  · rfl
  · rw [if_neg (by omega)]

theorem State.windowOpen_setWindow (s : State) (c g h : Nat) :
    (s.setWindow c g true).windowOpen c h = (decide (h = g) || s.windowOpen c h) := by
  by_cases hne : h = g
  · subst hne
    rw [State.windowOpen, State.setWindow, State.bit_setRegF_same _ _ (Nat.mod_lt _ (by decide))]
    simp [b2n]
  · rw [decide_eq_false hne, Bool.false_or, State.windowOpen, State.setWindow]
    by_cases hw : h / 32 = g / 32
    · rw [hw, State.bit_setRegF_other _ _ (Nat.mod_lt _ (by decide)) (by omega),
        State.windowOpen, hw]
    · rw [State.regN, State.reg_setRegF_other _ _ _ _ (by omega), State.windowOpen, State.regN]

theorem State.windowOpen_of_reg {s t : State} {c h : Nat}
    (hreg : t.reg (clusterBase c + 0x1108 + 4 * (h / 32)) = s.reg (clusterBase c + 0x1108 + 4 * (h / 32))) :
    t.windowOpen c h = s.windowOpen c h := by
  simp only [State.windowOpen, State.regN, hreg]

/-- One opening: its window is open afterwards unless it is refused, every other stays as it was. -/
theorem State.windowOpen_openWindow (s : State) {c g h : Nat} (hg : g < 64) (hh : h < 64) :
    (s.openWindow c g).windowOpen c h = (s.windowOpen c h || (decide (h = g) && !s.openRefused c g)) := by
  cases hopen : s.windowOpen c g
  · cases hrefused : s.openRefused c g
    · have hctr := s.winCtr_lt c g
      rw [State.openWindow_of_opened hopen hrefused, State.windowOpen_setWindow, Bool.not_false, Bool.and_true,
        Bool.or_comm]
      congr 1
      refine State.windowOpen_of_reg ?_
      rw [State.reg_clearOwner, State.reg_setRegN_other _ _ (by unfold ownerKey; omega),
        State.reg_setReg_other _ _ (by unfold winCountKey; omega),
        State.reg_scrub_other _ _ _ (by unfold handleKey; omega)]
    · rw [Bool.not_true, Bool.and_false, Bool.or_false]
      exact State.windowOpen_of_reg (State.reg_openWindow_refused hrefused (by omega) (by omega))
  · rw [State.openWindow_of_open hopen]
    by_cases hne : h = g
    · simp [hne, hopen]
    · simp [hne]

/-- What a list of openings has done to the windows of a cluster: `t` comes after, `s` before. -/
structure Opened (s t : State) (c : Nat) (hs : List Nat) : Prop where
  handle : ∀ h < 64, t.handle c h = s.handle c h
  named  : ∀ h, t.named c h = s.named c h
  isOpen : ∀ h < 64, t.windowOpen c h = (s.windowOpen c h || (decide (h ∈ hs) && !s.openRefused c h))
  gen    : ∀ h < 64, h ∉ hs → genOf t c h = genOf s c h
  opened : ∀ h ∈ hs, s.windowOpen c h = false → s.openRefused c h = false →
    genOf t c h = genOf s c h + 1 ∧ t.ownerOf c h = none ∧ t.reg (winCountKey c (s.handle c h).winCtr) = 0

theorem Opened.refused {s t : State} {c : Nat} {hs : List Nat} (h : Opened s t c hs) {g : Nat} (hg : g < 64)
    (hn : g ∉ hs) : t.openRefused c g = s.openRefused c g := by
  simp [State.openRefused, h.handle g hg, h.named g, h.isOpen g hg, hn]

/-- One more opening. -/
theorem Opened.snoc {s t : State} {c : Nat} {hs : List Nat} (ih : Opened s t c hs) (hlt : ∀ h ∈ hs, h < 64) {g : Nat}
    (hg : g < 64) (hn : g ∉ hs) : Opened s (t.openWindow c g) c (hs ++ [g]) := by
  have hrefused := ih.refused hg hn
  refine ⟨fun h hh => ?_, fun h => ?_, fun h hh => ?_, fun h hh hm => ?_, fun h hm hclosed hopens => ?_⟩
  · rw [State.handle_openWindow _ hg hh, ih.handle h hh]
  · rw [State.named_openWindow, ih.named]
  · rw [State.windowOpen_openWindow _ hg hh, ih.isOpen h hh, hrefused]
    by_cases hne : h = g
    · simp [hne, hn]
    · simp [hne]
  · simp only [List.mem_append, List.mem_singleton, not_or] at hm
    rw [State.genOf_openWindow_other _ hg hh hm.2, ih.gen h hh hm.1]
  · rcases List.mem_append.1 hm with hm | hm
    · have hne : h ≠ g := fun e => hn (e ▸ hm)
      obtain ⟨hgen, howner, hcount⟩ := ih.opened h hm hclosed hopens
      exact ⟨by rw [State.genOf_openWindow_other _ hg (hlt h hm) hne, hgen],
        by rw [State.ownerOf_openWindow_other _ hg hne, howner], State.count_openWindow _ hg (s.winCtr_lt c h) hcount⟩
    · rw [List.mem_singleton.1 hm] at hclosed hopens ⊢
      have hclosed' : t.windowOpen c g = false := by rw [ih.isOpen g hg, hclosed]; simp [hn]
      obtain ⟨hgen, howner, hcount⟩ := State.openWindow_opened hg hclosed' (hrefused.trans hopens)
      rw [ih.handle g hg] at hcount
      exact ⟨by rw [hgen, ih.gen g hg hn], howner, hcount⟩

theorem Opened.of_foldl {s t : State} {c : Nat} {hs : List Nat} (ih : Opened s t c hs) (gs : List Nat)
    (hlt : ∀ h ∈ hs ++ gs, h < 64) (hnd : (hs ++ gs).Nodup) :
    Opened s (gs.foldl (fun t h => t.openWindow c h) t) c (hs ++ gs) := by
  induction gs generalizing hs t with
  | nil => simpa using ih
  | cons g gs IH =>
    have hsplit : hs ++ g :: gs = (hs ++ [g]) ++ gs := by simp
    rw [List.foldl_cons, hsplit]
    rw [hsplit] at hlt hnd
    have hn : g ∉ hs := fun hm => (List.nodup_append.1 (List.nodup_append.1 hnd).1).2.2 g hm g (by simp) rfl
    exact IH (ih.snoc (fun h hm => hlt h (by simp [hm])) (hlt g (by simp)) hn) hlt hnd

/-- The handles that a write of a WIN_OPEN register asks to open. -/
def asksOpen (word v : Nat) : List Nat :=
  (List.range 32).filterMap fun i => if bit v i then some (32 * word + i) else none

theorem mem_asksOpen {word v h : Nat} : h ∈ asksOpen word v ↔ ∃ i < 32, bit v i = true ∧ h = 32 * word + i := by
  simp only [asksOpen, List.mem_filterMap, List.mem_range, Option.ite_none_right_eq_some, Option.some.injEq]
  constructor
  · rintro ⟨i, hi, hb, rfl⟩; exact ⟨i, hi, hb, rfl⟩
  · rintro ⟨i, hi, hb, rfl⟩; exact ⟨i, hi, hb, rfl⟩

theorem asksOpen_nodup (word v : Nat) : (asksOpen word v).Nodup := by
  refine List.Nodup.filterMap (fun i j h hi hj => ?_) List.nodup_range
  simp only [Option.mem_def, Option.ite_none_right_eq_some, Option.some.injEq] at hi hj
  omega

theorem State.openWindows_fst (s : State) (c word v : Nat) :
    (s.openWindows c word v).1 = (asksOpen word v).foldl (fun t h => t.openWindow c h) s := rfl

theorem State.openWindows_snd (s : State) (c word v : Nat) :
    (s.openWindows c word v).2 = if (asksOpen word v).any (s.openRefused c) then 0x11 else 0 := rfl

theorem State.opened_openWindows (s : State) (c v : Nat) (w : Fin 2) :
    Opened s (s.openWindows c w v).1 c (asksOpen w v) := by
  have hstart : Opened s s c [] := ⟨fun _ _ => rfl, fun _ => rfl, fun _ _ => by simp, fun _ _ _ => rfl, by simp⟩
  refine hstart.of_foldl (asksOpen w v) (fun h hm => ?_) (asksOpen_nodup w v)
  obtain ⟨i, hi, -, rfl⟩ := mem_asksOpen.1 hm
  have := w.isLt
  omega

/-- STATUS 11h tells that some opening is refused (R245). -/
theorem State.openWindows_status (s : State) (c word v : Nat) : ((s.openWindows c word v).2 = 0 ∨
    (s.openWindows c word v).2 = 0x11) ∧ ((s.openWindows c word v).2 = 0x11 ↔
      ∃ i, i < 32 ∧ bit v i = true ∧ s.openRefused c (32 * word + i) = true) := by
  rw [State.openWindows_snd]
  have hany : (asksOpen word v).any (s.openRefused c) = true ↔
      ∃ i, i < 32 ∧ bit v i = true ∧ s.openRefused c (32 * word + i) = true := by
    rw [List.any_eq_true]
    constructor
    · rintro ⟨h, hm, hr⟩
      obtain ⟨i, hi, hb, rfl⟩ := mem_asksOpen.1 hm
      exact ⟨i, hi, hb, hr⟩
    · rintro ⟨i, hi, hb, hr⟩
      exact ⟨_, mem_asksOpen.2 ⟨i, hi, hb, rfl⟩, hr⟩
  rw [← hany]
  split <;> simp_all

/-! ### T_INJ (R357, R479) -/

def tInjRow : RegRow := { off := 0xF10, name := "T_INJ", rw := 0x80FFFF0F, ru := 357 }

theorem rowAt_tInj (k : PageKind) : k.rowAt 0xF10 = some tInjRow := by
  cases k <;> rfl

/-- Die-level pages stand at their index, and none is of a type whose registers an island holds (R321). -/
theorem diePage_base_kind : ∀ i : Fin 256, (diePage i).all (fun p => p.base == i.val * 0x1000 && p.kind != .comp &&
    p.kind != .store && p.kind != .coreAccess) = true := by
  decide +kernel

theorem diePage_of_low {off : Nat} {p : Page} (hlow : off < 0x100000) (hp : pageAt off = some p) :
    p.base = off / 0x1000 * 0x1000 ∧ p.kind ≠ .comp ∧ p.kind ≠ .store ∧ p.kind ≠ .coreAccess := by
  rw [pageAt, if_pos hlow] at hp
  have hi := diePage_base_kind ⟨off / 0x1000, by omega⟩
  simp only [hp, Option.all_some, Bool.and_eq_true, beq_iff_eq, bne_iff_ne, ne_eq] at hi
  obtain ⟨⟨⟨hbase, hcomp⟩, hstore⟩, hcore⟩ := hi
  exact ⟨hbase, hcomp, hstore, hcore⟩

/-- Every offset within 4 KiB of a page's base lies in the page (R320). -/
theorem pageAt_base_add {off o : Nat} {p : Page} (hp : pageAt off = some p) (hb : p.base = off) (ho : o < 0x1000) :
    pageAt (off + o) = some p := by
  by_cases hlow : off < 0x100000
  · have hbase := (diePage_of_low hlow hp).1
    rw [pageAt, if_pos hlow] at hp
    rw [pageAt, if_pos (by omega), show (off + o) / 0x1000 = off / 0x1000 by omega, hp]
  · rw [pageAt, if_neg hlow] at hp
    split at hp
    · next hc =>
      cases hp
      simp only [clusterBase] at hb
      rw [pageAt, if_neg (by omega), if_pos (by omega), show (off + o - 0x1000000) / 0x4000 = (off - 0x1000000) / 0x4000 by omega,
        show (off + o - 0x1000000) / 0x1000 % 4 = (off - 0x1000000) / 0x1000 % 4 by omega]
    · cases hp

theorem stateRefused_tInj (s : State) (p : Page) (v : Word) : s.stateRefused p 0xF10 v = false := by
  unfold State.stateRefused
  cases p.kind <;> simp [State.queueRefused, State.auditRefused, journalSetup]

section TInj

variable {s : State} {a : Access} {p : Page} {v : Word}

theorem judged_tInj (hpriv : Privileged a) (ht : s.testUnlocked = true) (hd : s.darkPage p = false)
    (hk : fld v.toNat 0 4 ∈ p.kind.injKinds) : Judged s p tInjRow 0xF10 v a.priv.toNat := by
  refine ⟨accessRefused_eq_none s _ hpriv rfl (.inr ht), hd, ?_, ?_, ?_⟩
  · simp [State.commitRefused, tInjRow]
  · simp [reservedValue, hk]
  · simp [State.protRefused]

/-- A write of T_INJ does not change which core's T_INJ the page shows. -/
theorem regKey_setReg_tInj (s : State) (p : Page) (x : Word) :
    (s.setReg (s.regKey p 0xF10) x).regKey p 0xF10 = s.regKey p 0xF10 := by
  cases hk : p.kind with
  | coreAccess =>
    have hkey (u : State) : u.regKey p 0xF10 = coreKey (u.selectedCore p.inst) 0xF10 := by
      simp [State.regKey, hk, windowed]
    have hsel : (s.setReg (s.regKey p 0xF10) x).selectedCore p.inst = s.selectedCore p.inst := by
      simp only [State.selectedCore, State.regF, State.regN]
      rw [State.reg_setReg_other _ _ (by rw [hkey]; unfold coreKey clusterBase; omega)]
    rw [hkey, hsel, ← hkey]
  | _ => simp [State.regKey, hk]

/-- T_INJ takes its writable bits and its count of injections starts again (log entry 67). -/
theorem writeEffect_tInj (s : State) (p : Page) (v : Word) (priv port : Nat) :
    s.writeEffect p tInjRow 0xF10 v priv port .none =
      { s.setReg (s.regKey p 0xF10) (written (s.reg (s.regKey p 0xF10)) v 0x80FFFF0F) with
        injected := SMap.del s.injected (s.regKey p 0xF10) } := by
  have hstored : s.store1 p tInjRow 0xF10 v =
      s.setReg (s.regKey p 0xF10) (written (s.reg (s.regKey p 0xF10)) v 0x80FFFF0F) :=
    congrArg (s.setReg _) (RegRow.stored_rw (r := tInjRow) rfl rfl _ _)
  rw [State.writeEffect, if_pos (by decide), State.writeTest, if_pos rfl, hstored, regKey_setReg_tInj]
  rfl

theorem accessWrite_tInj {off : Nat} (hpriv : Privileged a) (hw : Performs s a off) (hp : pageAt off = some p)
    (hb : p.base = off) (hisland : 0x1000000 ≤ off → s.ladder p.inst = 0) (ht : s.testUnlocked = true)
    (hk : fld v.toNat 0 4 ∈ p.kind.injKinds) : s.accessWrite a (off + 0xF10) v =
      ({ s.setReg (s.regKey p 0xF10) (written (s.reg (s.regKey p 0xF10)) v 0x80FFFF0F) with
        injected := SMap.del s.injected (s.regKey p 0xF10) } : State).respond a .rgwa 0 := by
  have hpages : s.darkPage p = false ∧ s.wakeFor p = s := by
    by_cases hlow : off < 0x100000
    · obtain ⟨-, hcomp, hstore, hcore⟩ := diePage_of_low hlow hp
      cases hkind : p.kind <;> simp_all [State.darkPage, State.wakeFor]
    · have hl : s.ladder p.inst = 0 := hisland (by
        rw [pageAt, if_neg hlow] at hp
        split at hp
        · next hc => exact hc.1
        · cases hp)
      exact ⟨State.darkPage_of_ladder hl, State.wakeFor_of_ladder hl⟩
  have halign : off % 4 = 0 := by
    by_cases hlow : off < 0x100000
    · have := (diePage_of_low hlow hp).1
      omega
    · rw [pageAt, if_neg hlow] at hp
      split at hp
      · cases hp
        simp only [clusterBase] at hb
        omega
      · cases hp
  have hreg : regAt (off + 0xF10) = some (p, tInjRow) :=
    regAt_of_page (by omega) (pageAt_base_add hp hb (by decide)) (by omega) (rowAt_tInj p.kind)
  have hsetup : journalSetup p 0xF10 = false := journalSetup_eq_false_of_le (by decide)
  rw [accessWrite_of_judged (by rw [hb]; exact hw) hreg (by omega) (judged_tInj hpriv ht hpages.1 hk) hpages.2
    (by rw [hsetup, stateRefused_tInj]; rfl), if_neg (by simp), writeEffect_tInj]

end TInj

/-! ### UNLOCK (R358) -/

def unlockRow : RegRow := { off := 0x100, name := "UNLOCK", rw := 1, rl := true, ru := 358 }

theorem regAt_unlock : regAt 0x7F100 = some (pgTestctl, unlockRow) := regAt_of_page rfl (p := pgTestctl) rfl rfl rfl

theorem SMap.find_filter_key {α : Type} (m : SMap α) (f : Nat → Bool) (k : Nat) :
    SMap.find (m.filter fun e => f e.1) k = if f k then SMap.find m k else none := by
  induction m with
  | nil => simp [SMap.find]
  | cons e t ih =>
    obtain ⟨j, w⟩ := e
    by_cases hj : j = k
    · subst hj
      cases hf : f j <;> simp [hf, SMap.find, ih]
    · cases hf : f j <;> simp [hf, SMap.find, ih, hj]

/-- A relock returns the test registers to their reset values and leaves the others (R358). -/
theorem State.reg_relock (s : State) (k : Nat) :
    s.relock.reg k = if k % 0x1000 < 0xF00 then s.reg k else regReset k := by
  have hregs : s.relock.regs = s.regs.filter fun r => decide (r.1 % 0x1000 < 0xF00) := by
    unfold State.relock
    dsimp only
    split <;> rfl
  rw [State.reg, hregs, SMap.getD, SMap.find_filter_key s.regs (fun k => decide (k % 0x1000 < 0xF00))]
  by_cases hk : k % 0x1000 < 0xF00
  · rw [if_pos hk, decide_eq_true hk]
    rfl
  · rw [if_neg hk, decide_eq_false hk]
    rfl

theorem State.injected_relock (s : State) : s.relock.injected = [] := by
  unfold State.relock
  dsimp only
  split <;> rfl

/-- An audit record raises WRITTEN and may raise AUDIT's lines (R458, R459). -/
theorem State.reg_audited (s : State) (kind priv port arg : Nat) (data : List Byte) {k : Nat} (hr : ¬ pgAudit.records k) :
    (s.audited kind priv port arg data).reg k = (s.setReg 0x5510C (s.auditWritten + 1)).reg k := by
  have hpost (u : State) (seq : Nat) (r : List Byte) : (u.postRecord seq r).reg k = u.reg k :=
    State.reg_of_regs (((Keep.refl [.ports, .out, .outst, .power] u).postRecord seq r
      (Sub.refl _)).same.same .regs (by decide)) k
  have hraise (b : Prop) [Decidable b] (u : State) (bits : Nat) :
      (if b then u.raise pgAudit bits else u).reg k = u.reg k := by
    split
    · exact State.reg_raise_other _ _ hr
    · rfl
  unfold State.audited
  dsimp only
  rw [hraise, hraise]
  split
  · exact hpost _ _ _
  · rfl

theorem pgAudit_not_records {k : Nat} (h : 0x5504C ≤ k) : ¬ pgAudit.records k :=
  Page.not_records_of_le ⟨by decide, by decide⟩ h

/-- The state after the audit record of a change of UNLOCK and the change itself. -/
def State.unlockSet (s : State) (priv port : Nat) (on : Bool) : State :=
  (s.audited 2 priv port (b2n on) []).setRegF 0x7F100 0 1 (b2n on)

theorem State.writeUnlock_same {s : State} {v : Word} (h : bit v.toNat 0 = s.testUnlocked) (priv port : Nat) :
    s.writeUnlock v priv port = s := by
  simp [State.writeUnlock, h]

theorem State.writeUnlock_on {s : State} {v : Word} (hon : bit v.toNat 0 = true) (h : s.testUnlocked = false)
    (priv port : Nat) : s.writeUnlock v priv port = s.unlockSet priv port true := by
  simp [State.writeUnlock, State.unlockSet, hon, h]

theorem State.writeUnlock_off {s : State} {v : Word} (hon : bit v.toNat 0 = false) (h : s.testUnlocked = true)
    (priv port : Nat) : s.writeUnlock v priv port = (s.unlockSet priv port false).relock := by
  simp [State.writeUnlock, State.unlockSet, hon, h]

theorem State.testUnlocked_unlockSet (s : State) (priv port : Nat) (on : Bool) :
    (s.unlockSet priv port on).testUnlocked = on := by
  rw [State.testUnlocked, State.unlockSet, State.bit_setRegF_same _ _ (by decide)]
  cases on <;> rfl

theorem State.auditWritten_unlockSet (s : State) (priv port : Nat) (on : Bool) :
    (s.unlockSet priv port on).auditWritten = s.auditWritten + 1 := by
  rw [State.auditWritten, State.unlockSet, State.reg_setRegF_other _ _ _ _ (by decide),
    State.reg_audited _ _ _ _ _ _ (pgAudit_not_records (by decide)), State.reg_setReg_same]

theorem State.auditWritten_of_reg {s t : State} (h : t.reg 0x5510C = s.reg 0x5510C) : t.auditWritten = s.auditWritten := h

theorem State.testUnlocked_of_reg {s t : State} (h : t.reg 0x7F100 = s.reg 0x7F100) : t.testUnlocked = s.testUnlocked := by
  simp only [State.testUnlocked, State.regN, h]

section Unlock

variable {s : State} {a : Access} {v : Word}

theorem judged_unlock (s : State) (v : Word) : Judged s pgTestctl unlockRow 0x100 v 0 :=
  ⟨rfl, rfl, rfl, rfl, rfl⟩

theorem stateRefused_unlock (s : State) (v : Word) : s.stateRefused pgTestctl 0x100 v =
    (bit v.toNat 0 && !s.testUnlocked && !s.auditRoom) := rfl

theorem exec_testctlUnlock (hw : Performs s a 0x7F000) (h0 : a.priv = 0)
    (h : (bit v.toNat 0 && !s.testUnlocked && !s.auditRoom) = false) :
    exec (.testctlUnlock a v) s = .next ((s.writeUnlock v 0 a.port.val).respond a .rgwa 0) := by
  have hpriv : a.priv.toNat = 0 := by rw [h0]; rfl
  have hwrite := accessWrite_of_judged (v := v) (o := 0x100) (p := pgTestctl) hw regAt_unlock rfl
    (by rw [hpriv]; exact judged_unlock s v) rfl (by rw [stateRefused_unlock, h]; rfl)
  rw [if_neg (by decide), hpriv] at hwrite
  exact congrArg Host.Outcome.next hwrite

theorem answers_testctlUnlock (hw : Performs s a 0x7F000) (h0 : a.priv = 0)
    (h : (bit v.toNat 0 && !s.testUnlocked && !s.auditRoom) = false) :
    Answers (.testctlUnlock a v) s ((s.writeUnlock v 0 a.port.val).respond a .rgwa 0) (rgwaOf a 0) := by
  have hl := Sub.refl [.regs, .ports, .out, .outst, .vecBusy, .sb, .audit, .power, .injected]
  have keep := (Keep.refl [.regs, .ports, .out, .outst, .vecBusy, .sb, .audit, .power, .injected] s).writeUnlock v 0
    a.port.val
  exact answers_of_respond (exec_testctlUnlock hw h0 h) keep.out ((keep.same.same .mute (by decide)).trans hw.mute)

theorem testctlUnlock_refused (hw : Performs s a 0x7F000) (h0 : a.priv = 0) (hon : bit v.toNat 0 = true)
    (ht : s.testUnlocked = false) (hroom : s.auditRoom = false) :
    RefusedForState (.testctlUnlock a v) s a pgTestctl 0xE6 0x100 := by
  have hpriv : a.priv.toNat = 0 := by rw [h0]; rfl
  have hst : s.stateRefused pgTestctl 0x100 v = true := by rw [stateRefused_unlock, hon, ht, hroom]; rfl
  exact refusedForState_of_exec (congrArg Host.Outcome.next (accessWrite_of_stateRefused (aux := .none) hw regAt_unlock
    (by rw [hpriv]; exact judged_unlock s v) (Bool.or_eq_true_iff.2 (.inr hst)))) hw.mute ⟨by decide, by decide⟩
    (by decide) (by decide)

end Unlock

/-- Settles O48: each write is judged, takes the effect of its register and is answered; a list of openings is followed
handle by handle (`Opened`). That a write of T_INJ starts its count again is log entry 67. -/
theorem clusterAndTestRegisters : Obligations.ClusterAndTestRegisters := by
  intro s a c v hpriv core h e
  refine ⟨fun hl hw => ⟨exec_fxStatusClear hpriv hl hw, exec_rescueLogClear hpriv hl hw, fun ht =>
      ⟨exec_tQuadWrite hpriv hl hw ht, tQuadWrite_refused hpriv hl hw ht⟩⟩, fun hl hw => ⟨?_, fun w => ?_⟩,
    fun page p hw hp hb hisland ht hk => congrArg Host.Outcome.next (accessWrite_tInj hpriv hw hp hb hisland ht hk),
    fun hw h0 => ?_⟩
  · have keep := s.setTags_keep c h (bit v.toNat 8)
    refine ⟨_, answers_of_respond (exec_tagReset hpriv hl hw) keep.out
      ((keep.same.same .mute (by decide)).trans hw.mute), ?_, ?_, fun sd i hsd hi => ?_, fun k hk => ?_⟩
    · exact (State.reg_respond _ _ _ _ _ _).trans (s.genOf_setTags c h _)
    · exact ((State.send_keep _ _).same.same .store (by decide)).trans (keep.same.same .store (by decide))
    · rw [State.isFull_respond, State.isFull_setTags, if_pos (mem_tagsOf.2 ⟨sd, i, hsd, hi, rfl⟩)]
    · rw [State.isFull_respond, State.isFull_setTags, if_neg]
      rintro hm
      obtain ⟨sd, i, hsd, hi, rfl⟩ := mem_tagsOf.1 hm
      exact hk sd i hsd hi rfl
  · have hl' := Sub.refl [.regs, .store, .full, .owners, .endedOwners, .ports, .out, .outst, .vecBusy, .power]
    have keep := (Keep.refl [.regs, .store, .full, .owners, .endedOwners, .ports, .out, .outst, .vecBusy, .power]
      s).openWindows c w v.toNat
    obtain ⟨hst, hiff⟩ := s.openWindows_status c w v.toNat
    have ho := s.opened_openWindows c v.toNat w
    refine ⟨_, _, answers_of_respond (exec_winOpen hpriv hl hw w) keep.out
      ((keep.same.same .mute (by decide)).trans hw.mute), hst, hiff, fun i hi => ⟨?_, fun hb hclosed hopens => ?_⟩⟩
    · have hg : 32 * w.val + i < 64 := by omega
      have hmem : decide (32 * w.val + i ∈ asksOpen w v.toNat) = bit v.toNat i := by
        rw [Bool.eq_iff_iff, decide_eq_true_iff, mem_asksOpen]
        exact ⟨fun ⟨j, _, hj, he⟩ => by rwa [show i = j by omega], fun hb => ⟨i, hi, hb, rfl⟩⟩
      rw [State.windowOpen_of_reg (State.reg_respond _ _ _ _ _ _), ho.isOpen _ hg, hmem]
    · obtain ⟨hgen, howner, hcount⟩ := ho.opened _ (mem_asksOpen.2 ⟨i, hi, hb, rfl⟩) hclosed hopens
      refine ⟨(State.reg_respond _ _ _ _ _ _).trans hgen, ?_, (State.reg_respond _ _ _ _ _ _).trans hcount⟩
      rw [State.ownerOf, State.regN_respond]
      exact howner
  · refine ⟨fun hsame => ?_, fun hon ht hroom => ?_, fun hon ht hroom => testctlUnlock_refused hw h0 hon ht hroom,
      fun hoff ht => ?_⟩
    · have hfree : (bit v.toNat 0 && !s.testUnlocked && !s.auditRoom) = false := by
        rw [hsame]; cases s.testUnlocked <;> rfl
      rw [exec_testctlUnlock hw h0 hfree, State.writeUnlock_same hsame]
    · have hans := answers_testctlUnlock (v := v) hw h0 (by rw [hroom]; simp)
      rw [State.writeUnlock_on hon ht] at hans
      exact ⟨_, hans, (State.testUnlocked_of_reg (State.reg_respond _ _ _ _ _ _)).trans (s.testUnlocked_unlockSet _ _ _),
        (State.auditWritten_of_reg (State.reg_respond _ _ _ _ _ _)).trans (s.auditWritten_unlockSet _ _ _)⟩
    · have hans := answers_testctlUnlock (v := v) hw h0 (by rw [show bit v.toNat 0 = false from hoff]; rfl)
      rw [State.writeUnlock_off hoff ht] at hans
      refine ⟨_, hans, ?_, ?_, ?_, fun k hk => ?_⟩
      · rw [State.testUnlocked_of_reg ((State.reg_respond _ _ _ _ _ _).trans (State.reg_relock _ _)),
          State.testUnlocked_unlockSet]
      · exact ((State.send_keep _ _).same.same .injected (by decide)).trans (State.injected_relock _)
      · rw [State.auditWritten_of_reg ((State.reg_respond _ _ _ _ _ _).trans (State.reg_relock _ _)),
          State.auditWritten_unlockSet]
      · rw [State.reg_respond, State.reg_relock, if_neg (by omega)]

end Sys2Proof.Machine

/-! ## The array of a core (O57) -/

namespace Sys2Proof.Machine

/-! ### The tile that a core works on -/

theorem State.core_of_cores {s t : State} (h : t.cores = s.cores) (k : Nat) : t.core k = s.core k := by
  simp only [State.core, h]

theorem State.running_eq_some {s : State} {k : Nat} {r : Run} : s.running k = some r ↔
    (s.core k).tile = some r.tile ∧ s.op r.tile.op = some r.op ∧ r.op.entryOf r.tile.sliver = some r.entry := by
  unfold State.running
  simp only [Option.bind_eq_some_iff, Option.map_eq_some_iff]
  constructor
  · rintro ⟨t, ht, o, ho, e, he, rfl⟩
    exact ⟨ht, ho, he⟩
  · rintro ⟨ht, ho, he⟩
    exact ⟨_, ht, _, ho, _, he, rfl⟩

theorem State.running_of_no_tile {s : State} {k : Nat} (h : (s.core k).tile = none) : s.running k = none := by
  simp [State.running, h]

/-- A core with a tile takes no other (R166). -/
theorem State.beginTile_of_tile {s : State} {k : Nat} {t : Tile} (h : (s.core k).tile = some t) :
    s.beginTile k = s := by
  unfold State.beginTile
  dsimp only
  split
  · next hn _ => rw [h] at hn; cases hn
  · rfl

theorem State.beginTile_of_no_work {s : State} {k : Nat} (h : (s.core k).work = []) : s.beginTile k = s := by
  unfold State.beginTile
  dsimp only
  split
  · next hw => rw [h] at hw; cases hw
  · rfl

theorem State.loadShadow_of_stopped {s : State} {k : Nat} (h : s.running k = none) : s.loadShadow k = s := by
  simp [State.loadShadow, h]

theorem State.streamOne_of_stopped {s : State} {k : Nat} (h : s.running k = none) : s.streamOne k = none := by
  simp [State.streamOne, h]

theorem State.stream_of_none {s : State} {k : Nat} (h : s.streamOne k = none) (n : Nat) : s.stream k n = s := by
  cases n <;> simp [State.stream, h]

theorem State.arrayOn_of_still {s : State} {k : Nat} (hload : s.loadShadow k = s) (h : s.streamOne k = none) :
    s.arrayOn k = s := by
  rw [State.arrayOn, hload, State.stream_of_none h, hload]

theorem State.arrayOn_of_stopped {s : State} {k : Nat} (h : s.running k = none) : s.arrayOn k = s :=
  State.arrayOn_of_still (State.loadShadow_of_stopped h) (State.streamOne_of_stopped h)

theorem State.swap_of_stopped {s : State} {k : Nat} (h : s.running k = none) : s.swap k = s := by
  simp [State.swap, h]

/-! ### A tile whose walk has ended -/

section Walked

variable {s : State} {k : Nat} {t : Tile} (ht : (s.core k).tile = some t) (hw : t.walked = true) (hb : t.busy = false)
include ht hw hb

theorem State.loadShadow_of_walked : s.loadShadow k = s := by
  unfold State.loadShadow
  split
  · next r hr =>
    have hrt : r.tile = t := Option.some.inj ((State.running_eq_some.1 hr).1.symm.trans ht)
    simp [hrt, hb, hw]
  · rfl

omit hb in
theorem State.swap_of_walked : s.swap k = s := by
  unfold State.swap
  split
  · next r hr =>
    have hrt : r.tile = t := Option.some.inj ((State.running_eq_some.1 hr).1.symm.trans ht)
    simp [hrt, hw]
  · rfl

omit hw in
theorem State.streamOne_of_not_busy : s.streamOne k = none := by
  unfold State.streamOne
  rw [Option.bind_eq_none_iff]
  intro r hr
  have hrt : r.tile = t := Option.some.inj ((State.running_eq_some.1 hr).1.symm.trans ht)
  simp [hrt, hb]

/-- The array does nothing more for a tile whose walk has ended (R98). -/
theorem State.arrayOn_of_walked : s.arrayOn k = s :=
  State.arrayOn_of_still (State.loadShadow_of_walked ht hw hb) (State.streamOne_of_not_busy ht hb)

end Walked

/-! ### What the array's steps change of a core -/

/-- From core `c` to `d` the array has changed its shadow registers and its tile, and of the tile neither the
accumulators nor the slug queue entry. -/
structure Core.WalkedTo (c d : Core) : Prop where
  eq    : d = { c with shadow := d.shadow, tile := d.tile }
  accs  : d.tile.map Tile.accs = c.tile.map Tile.accs
  entry : d.tile.map Tile.entry = c.tile.map Tile.entry

theorem Core.WalkedTo.refl (c : Core) : c.WalkedTo c := ⟨rfl, rfl, rfl⟩

theorem Core.WalkedTo.trans {c d e : Core} (h : c.WalkedTo d) (g : d.WalkedTo e) : c.WalkedTo e :=
  ⟨g.eq.trans (congrArg (fun x : Core => { x with shadow := e.shadow, tile := e.tile }) h.eq), g.accs.trans h.accs,
    g.entry.trans h.entry⟩

theorem Core.WalkedTo.tile {c d : Core} (h : c.WalkedTo d) {t : Tile} (ht : c.tile = some t) :
    ∃ t', d.tile = some t' ∧ t'.accs = t.accs ∧ t'.entry = t.entry := by
  have haccs := h.accs
  have hentry := h.entry
  rw [ht] at haccs hentry
  obtain ⟨t', ht', ha⟩ := Option.map_eq_some_iff.1 haccs
  refine ⟨t', ht', ha, ?_⟩
  rw [ht'] at hentry
  exact Option.some.inj hentry

/-- The pass whose stationary operand is loaded next (R97). -/
def Run.nextPass (r : Run) : Pass :=
  (if r.tile.busy then r.tile.advance r.op r.entry.k else r.tile).pass r.op r.entry.k

/-- The registers that a load brings for it; `none` while an element is not at hand (R96, R101). -/
def Run.nextLoad (r : Run) (s : State) (c : Core) : Option (SMap (BitVec 64)) :=
  r.nextPass.load s c (r.side (!r.nextPass.galley)) ((r.side (!r.nextPass.galley)).span r.tile.t).1

/-- A load is not due: one stands, no pass is left, or the rows' last PEs have not swapped (R98). -/
def Run.loadHeld (r : Run) : Bool :=
  r.tile.loaded || (if r.tile.busy then r.tile.advance r.op r.entry.k else r.tile).walked
    || (r.tile.busy && decide (r.tile.vec < if r.nextPass.galley then 16 else 8))

/-- A load of the shadow registers (R96). -/
theorem State.loadShadow_running {s : State} {k : Nat} {r : Run} (hr : s.running k = some r) : s.loadShadow k =
    if r.loadHeld then s else (r.nextLoad s (s.core k)).elim s fun regs =>
      s.setCore k { s.core k with shadow := regs, tile := some { r.tile with loaded := true } } := by
  unfold State.loadShadow
  rw [hr]
  change (if r.loadHeld = true then s else match r.nextLoad s (s.core k) with
    | some regs => s.setCore k { s.core k with shadow := regs, tile := some { r.tile with loaded := true } }
    | none => s) = _
  cases r.nextLoad s (s.core k) <;> rfl

theorem State.loadShadow_cases (s : State) (k : Nat) : s.loadShadow k = s ∨ ∃ t regs, (s.core k).tile = some t ∧
    s.loadShadow k = s.setCore k { s.core k with shadow := regs, tile := some { t with loaded := true } } := by
  cases hr : s.running k with
  | none => exact .inl (State.loadShadow_of_stopped hr)
  | some r =>
    rw [State.loadShadow_running hr]
    cases r.loadHeld with
    | true => exact .inl rfl
    | false =>
      cases r.nextLoad s (s.core k) with
      | none => exact .inl rfl
      | some regs => exact .inr ⟨_, _, (State.running_eq_some.1 hr).1, rfl⟩

/-- From tile `t` to `u` the pointer has moved at most: accumulators, slug queue entry and partials stay. -/
structure Tile.MovesTo (t u : Tile) : Prop where
  accs  : u.accs = t.accs
  entry : u.entry = t.entry
  parts : u.parts = t.parts
  vec   : u.busy = true → u.vec = t.vec

theorem Tile.movesTo_advance (t : Tile) (o : OpRec) (kk : Nat) : t.MovesTo (t.advance o kk) := by
  unfold Tile.advance
  dsimp only
  split
  · exact ⟨rfl, rfl, rfl, nofun⟩
  · split
    · exact ⟨rfl, rfl, rfl, nofun⟩
    · exact ⟨rfl, rfl, rfl, nofun⟩

theorem Tile.movesTo_ite_advance (p : Prop) [Decidable p] (t : Tile) (o : OpRec) (kk : Nat) :
    t.MovesTo (if p then t else t.advance o kk) := by
  split
  · exact ⟨rfl, rfl, rfl, fun _ => rfl⟩
  · exact t.movesTo_advance o kk

/-- The products of a vector: row, column and pairs by reduction index. -/
abbrev VectorCells := List (Nat × Nat × List (Nat × Elem × Elem))

/-- The partial that a streamed vector leaves for a block (R98, R108). -/
def Run.partOf (r : Run) (cells : VectorCells) (b : Nat) : Partial :=
  { group := r.tile.g, vec := r.tile.vec, block := b,
    eref := ((r.tile.erefs.find? (·.1 == b)).map (·.2)).getD 0,
    ready := decide (min r.entry.k (16 * b + 16) ≤ r.pass.stop),
    due := r.tile.clock + r.tile.vec + r.pass.latency,
    elems := cells.map fun x => (elemBlock r.pass r.tile.clock (x.1 * r.tile.sliver.nt + x.2.1) x.1 x.2.1 b
      (((r.tile.erefs.find? (·.1 == b)).map (·.2)).getD 0) x.2.2).1 }

/-- The partials at the edge after a vector (R103); a masked vector slot leaves none. -/
def Run.partsAfter (r : Run) (cells : VectorCells) : List Partial :=
  (if cells.isEmpty then [] else r.pass.blocks.map (r.partOf cells)).foldl joinPart r.tile.parts

/-- The events, flags and activity of a vector leave the core as its tile was put. -/
theorem State.core_afterVector (s : State) (k : Nat) (r : Run) (step : Nat) (t : Tile) (flags : List (Nat × Nat))
    (island kind n : Nat) (job : Option Nat) :
    ((flags.foldl (fun w x => w.sticky k x.1 x.2) ((s.fxReach k r step).setTile k t)).active island kind job n).core k =
      { s.core k with tile := some t } := by
  have hl := Sub.refl [.regs, .ports, .out, .outst, .vecBusy, .power]
  have hreach : (s.fxReach k r step).core k = s.core k := State.core_of_cores
    (((Keep.refl [.regs, .ports, .out, .outst, .vecBusy, .power] s).fxReach k r step).same.same .cores (by decide)) k
  have hafter := ((((Keep.refl [.regs, .ports, .out, .outst, .vecBusy, .power] ((s.fxReach k r step).setTile k t)).foldl
    (as := flags) fun _ x hu => hu.sticky k x.1 x.2).active island kind job n).same.same .cores (by decide))
  rw [State.core_of_cores hafter, State.setTile, State.core_setCore_same, hreach]

/-- What one vector's entry does to the core (R98, R100): its partials stand at the edge, and the next vector slot
follows or the pass ends. -/
theorem State.streamOne_core {s u : State} {k : Nat} (h : s.streamOne k = some u) : ∃ r cells t',
    s.running k = some r ∧ r.tile.busy = true ∧ r.vector s (s.core k) = some cells ∧
      u.core k = { s.core k with tile := some t' } ∧ t'.accs = r.tile.accs ∧ t'.entry = r.tile.entry ∧
      t'.parts = r.partsAfter cells ∧ (t'.busy = true → t'.vec = r.tile.vec + 1) := by
  unfold State.streamOne at h
  obtain ⟨r, hr, h⟩ := Option.bind_eq_some_iff.1 h
  dsimp only at h
  split at h
  · cases h
  · next hgo =>
    obtain ⟨cells, hcells, hu⟩ := Option.map_eq_some_iff.1 h
    have hbusy : r.tile.busy = true := by
      simp only [Bool.or_eq_true, Bool.not_eq_true', not_or, Bool.not_eq_false] at hgo
      exact hgo.1.1
    subst hu
    refine ⟨r, cells, _, hr, hbusy, hcells, State.core_afterVector .., (Tile.movesTo_ite_advance ..).accs,
      (Tile.movesTo_ite_advance ..).entry, (Tile.movesTo_ite_advance ..).parts.trans ?_,
      (Tile.movesTo_ite_advance ..).vec⟩
    unfold Run.partsAfter
    cases cells.isEmpty <;> simp [List.foldl_map, Run.partOf, Function.comp_def]

/-! ### The partials at the edge (R103) -/

/-- Partials of the same vector and block, of which the second may continue the first. -/
def Partial.SameKey (y x : Partial) : Prop := y.group = x.group ∧ y.vec = x.vec ∧ y.block = x.block

theorem mem_joinPart_of_mem {l : List Partial} {x y : Partial} (h : y ∈ l) (hk : ¬ y.SameKey x) : y ∈ joinPart l x := by
  induction l with
  | nil => cases h
  | cons z l ih =>
    unfold joinPart
    split
    · next hz =>
      rcases List.mem_cons.1 h with rfl | h
      · exact absurd ⟨hz.1, hz.2.1, hz.2.2.1⟩ hk
      · exact List.mem_cons_of_mem _ h
    · rcases List.mem_cons.1 h with rfl | h
      · exact List.mem_cons_self
      · exact List.mem_cons_of_mem _ (ih h)

/-- A partial that continues none stands at the edge as it is. -/
theorem mem_joinPart_self {l : List Partial} {x : Partial} (h : ∀ y ∈ l, ¬ y.SameKey x) : x ∈ joinPart l x := by
  induction l with
  | nil => exact List.mem_singleton_self x
  | cons z l ih =>
    unfold joinPart
    split
    · next hz => exact absurd ⟨hz.1, hz.2.1, hz.2.2.1⟩ (h z List.mem_cons_self)
    · exact List.mem_cons_of_mem _ (ih fun y hy => h y (List.mem_cons_of_mem _ hy))

/-- A join adds no other vector and block than its own. -/
theorem sameKey_of_mem_joinPart {l : List Partial} {x z : Partial} (h : z ∈ joinPart l x) :
    z.SameKey x ∨ ∃ y ∈ l, z.SameKey y := by
  induction l with
  | nil => exact .inl (by rw [List.mem_singleton.1 h]; exact ⟨rfl, rfl, rfl⟩)
  | cons w l ih =>
    unfold joinPart at h
    split at h
    · rcases List.mem_cons.1 h with rfl | h
      · exact .inr ⟨w, List.mem_cons_self, rfl, rfl, rfl⟩
      · exact .inr ⟨z, List.mem_cons_of_mem _ h, rfl, rfl, rfl⟩
    · rcases List.mem_cons.1 h with rfl | h
      · exact .inr ⟨z, List.mem_cons_self, rfl, rfl, rfl⟩
      · rcases ih h with hx | ⟨y, hy, hz⟩
        · exact .inl hx
        · exact .inr ⟨y, List.mem_cons_of_mem _ hy, hz⟩

theorem Partial.SameKey.of_left {x y z : Partial} (h : z.SameKey y) (g : z.SameKey x) : y.SameKey x := by
  obtain ⟨hg, hv, hb⟩ := h
  obtain ⟨gg, gv, gb⟩ := g
  exact ⟨hg ▸ gg, hv ▸ gv, hb ▸ gb⟩

theorem mem_foldl_joinPart_of_mem {made l : List Partial} {y : Partial} (h : y ∈ l) (hk : ∀ x ∈ made, ¬ y.SameKey x) :
    y ∈ made.foldl joinPart l := by
  induction made generalizing l with
  | nil => exact h
  | cons x made ih =>
    exact ih (mem_joinPart_of_mem h (hk x List.mem_cons_self)) fun z hz => hk z (List.mem_cons_of_mem _ hz)

/-- Of partials made apart, each that continues none stands at the edge. -/
theorem mem_foldl_joinPart_of_made {made l : List Partial} {y : Partial} (hy : y ∈ made)
    (hapart : made.Pairwise fun a b => ¬ a.SameKey b) (hl : ∀ z ∈ l, ¬ z.SameKey y) : y ∈ made.foldl joinPart l := by
  induction made generalizing l with
  | nil => cases hy
  | cons x made ih =>
    obtain ⟨hx, hapart⟩ := List.pairwise_cons.1 hapart
    rcases List.mem_cons.1 hy with rfl | hy
    · rw [List.foldl_cons]
      exact mem_foldl_joinPart_of_mem (mem_joinPart_self hl) hx
    · refine ih hy hapart fun z hz hzy => ?_
      rcases sameKey_of_mem_joinPart hz with hzx | ⟨w, hw, hzw⟩
      · exact hx y hy (hzx.of_left hzy)
      · exact hl w hw (hzw.of_left hzy)

/-! ### The array goes on (R98 to R101) -/

/-- What the entry of a vector does to a tile: the partials that it leaves are of its vector slot. -/
structure Tile.Streams (t t' : Tile) : Prop where
  busy  : t.busy = true
  accs  : t'.accs = t.accs
  entry : t'.entry = t.entry
  vec   : t'.busy = true → t'.vec = t.vec + 1
  parts : ∃ made : List Partial, t'.parts = made.foldl joinPart t.parts ∧ ∀ x ∈ made, x.vec = t.vec

theorem Run.vec_of_mem_made {r : Run} {cells : VectorCells} {x : Partial}
    (h : x ∈ if cells.isEmpty then [] else r.pass.blocks.map (r.partOf cells)) : x.vec = r.tile.vec := by
  split at h
  · cases h
  · obtain ⟨b, -, rfl⟩ := List.mem_map.1 h
    rfl

theorem State.streamOne_streams {s u : State} {k : Nat} (h : s.streamOne k = some u) : ∃ t t',
    (s.core k).tile = some t ∧ t.Streams t' ∧ u.core k = { s.core k with tile := some t' } := by
  obtain ⟨r, cells, t', hr, hbusy, -, hu, haccs, hentry, hparts, hvec⟩ := State.streamOne_core h
  exact ⟨r.tile, t', (State.running_eq_some.1 hr).1, ⟨hbusy, haccs, hentry, hvec, _, hparts, fun x hx =>
    Run.vec_of_mem_made hx⟩, hu⟩

/-- What loads of the shadow registers and entries of vectors keep of a core. -/
structure Core.ArrayKeeps (P : Core → Prop) : Prop where
  load   : ∀ c t regs, c.tile = some t → P c → P { c with shadow := regs, tile := some { t with loaded := true } }
  stream : ∀ c t t', c.tile = some t → t.Streams t' → P c → P { c with tile := some t' }

section ArrayKeeps

variable {P : Core → Prop} (hP : Core.ArrayKeeps P) {k : Nat}
include hP

theorem Core.ArrayKeeps.loadShadow {s : State} (h : P (s.core k)) : P ((s.loadShadow k).core k) := by
  rcases State.loadShadow_cases s k with he | ⟨t, regs, ht, he⟩
  · rwa [he]
  · rw [he, State.core_setCore_same]
    exact hP.load _ _ _ ht h

theorem Core.ArrayKeeps.streamAll (n : Nat) {s : State} (h : P (s.core k)) : P ((s.stream k n).core k) := by
  induction n generalizing s with
  | zero => exact h
  | succ n ih =>
    unfold State.stream
    split
    · next u hu =>
      obtain ⟨t, t', ht, hst, hcore⟩ := State.streamOne_streams hu
      exact ih (hcore ▸ hP.stream _ _ _ ht hst h)
    · exact h

theorem Core.ArrayKeeps.arrayOn {s : State} (h : P (s.core k)) : P ((s.arrayOn k).core k) :=
  hP.loadShadow (hP.streamAll _ (hP.loadShadow h))

end ArrayKeeps

theorem Core.arrayKeeps_walkedTo (c : Core) : Core.ArrayKeeps c.WalkedTo where
  load d t regs ht h := h.trans ⟨rfl, by simp [ht], by simp [ht]⟩
  stream d t t' ht hst h := h.trans ⟨rfl, by simp [ht, hst.accs], by simp [ht, hst.entry]⟩

theorem State.arrayOn_walkedTo (s : State) (k : Nat) : (s.core k).WalkedTo ((s.arrayOn k).core k) :=
  (Core.arrayKeeps_walkedTo _).arrayOn (Core.WalkedTo.refl _)

/-- A partial stands at the core's edge, and its vector has passed. -/
def Core.HoldsPart (y : Partial) (c : Core) : Prop :=
  ∃ t, c.tile = some t ∧ y ∈ t.parts ∧ (t.busy = true → y.vec < t.vec)

theorem Core.arrayKeeps_holdsPart (y : Partial) : Core.ArrayKeeps (Core.HoldsPart y) where
  load c t regs ht h := by
    obtain ⟨t', ht', hy, hvec⟩ := h
    obtain rfl : t = t' := Option.some.inj (ht.symm.trans ht')
    exact ⟨_, rfl, hy, hvec⟩
  stream c t t' ht hst h := by
    obtain ⟨u, hu, hy, hvec⟩ := h
    obtain rfl : t = u := Option.some.inj (ht.symm.trans hu)
    obtain ⟨made, hparts, hmade⟩ := hst.parts
    have hlt := hvec hst.busy
    refine ⟨t', rfl, ?_, fun hb => by rw [hst.vec hb]; omega⟩
    rw [hparts]
    refine mem_foldl_joinPart_of_mem hy fun x hx hk => ?_
    have := hmade x hx
    have := hk.2.1
    omega

/-- Parts of the state outside those of the array's steps stay as they are. -/
theorem State.arrayOn_keeps (s : State) (k : Nat) :
    Keep [.regs, .cores, .ports, .out, .outst, .vecBusy, .power] s (s.arrayOn k) :=
  have hl := Sub.refl [.regs, .cores, .ports, .out, .outst, .vecBusy, .power]
  (Keep.refl _ s).arrayOn k

/-! ### The products of a vector (R98, R108) -/

theorem PartElem.idx_foldl_add (f : α → Product) (l : List α) (e : PartElem) :
    (l.foldl (fun e x => e.add (f x)) e).idx = e.idx := by
  induction l generalizing e with
  | nil => rfl
  | cons x l ih => exact ih _

theorem PartElem.q_foldl_add (f : α → Product) (l : List α) (e : PartElem) :
    (l.foldl (fun e x => e.add (f x)) e).q = e.q + (l.map fun x => (f x).q).sum := by
  induction l generalizing e with
  | nil => simp
  | cons x l ih =>
    rw [List.foldl_cons, ih, List.map_cons, List.sum_cons, ← Int.add_assoc]
    rfl

/-- An element's partial adds up its products of the block. -/
theorem elemBlock_fst (p : Pass) (clock idx row col b : Nat) (eref : Int) (xs : List (Nat × Elem × Elem)) :
    (elemBlock p clock idx row col b eref xs).1 = (xs.filter fun x => x.1 / 16 == b).foldl
      (fun e x => e.add (product eref x.2.1 x.2.2)) ⟨idx, 0, false, false, false, false, false⟩ := by
  unfold elemBlock
  exact (List.foldl_hom Prod.fst fun _ _ => rfl).symm

/-- The reduction indices of a pass within a block, by index and by place in the block. -/
theorem Pass.indices_perm (k1 stop b : Nat) :
    (((List.range (stop - k1)).map (k1 + ·)).filter fun kk => kk / 16 == b).Perm
      (((List.range 16).filter fun i => decide (k1 ≤ 16 * b + i) && decide (16 * b + i < stop)).map (16 * b + ·)) := by
  refine (List.perm_ext_iff_of_nodup ?_ ?_).2 fun kk => ?_
  · exact (List.nodup_range.map fun _ _ h => Nat.add_left_cancel h).filter _
  · exact (List.nodup_range.filter _).map fun _ _ h => Nat.add_left_cancel h
  · simp only [List.mem_filter, List.mem_map, List.mem_range, beq_iff_eq, Bool.and_eq_true, decide_eq_true_eq]
    constructor
    · rintro ⟨⟨i, hi, rfl⟩, hb⟩
      exact ⟨k1 + i - 16 * b, ⟨by omega, by omega, by omega⟩, by omega⟩
    · rintro ⟨i, ⟨hi, hlo, hhi⟩, rfl⟩
      exact ⟨⟨16 * b + i - k1, by omega, by omega⟩, by omega⟩

/-- An element of a block's partial holds the sum of its products over the block's indices of the pass. -/
theorem elemBlock_q (p : Pass) (clock idx row col b : Nat) (eref : Int) (ea eb : Nat → Elem) :
    (elemBlock p clock idx row col b eref (((List.range (p.stop - p.k1)).map (p.k1 + ·)).map fun kk =>
      (kk, ea kk, eb kk))).1.q =
    (((List.range 16).filter fun i => decide (p.k1 ≤ 16 * b + i) && decide (16 * b + i < p.stop)).map
      fun i => (product eref (ea (16 * b + i)) (eb (16 * b + i))).q).sum := by
  rw [elemBlock_fst, PartElem.q_foldl_add, Int.zero_add, List.filter_map, List.map_map]
  have h := ((Pass.indices_perm p.k1 p.stop b).map fun kk => (product eref (ea kk) (eb kk)).q).sum_eq
  rw [List.map_map] at h
  exact h

theorem elemBlock_idx (p : Pass) (clock idx row col b : Nat) (eref : Int) (xs : List (Nat × Elem × Elem)) :
    (elemBlock p clock idx row col b eref xs).1.idx = idx := by
  rw [elemBlock_fst, PartElem.idx_foldl_add]

/-- Pairs that are all at hand are all kept. -/
theorem filterMap_pairs {f : Nat × Option Elem × Option Elem → Option (Nat × Elem × Elem)}
    (hf : ∀ kk a b, f (kk, some a, some b) = some (kk, a, b)) {ks : List Nat} {fa fb : Nat → Option Elem}
    {ea eb : Nat → Elem} (h : ∀ kk ∈ ks, fa kk = some (ea kk) ∧ fb kk = some (eb kk)) :
    (ks.map fun kk => (kk, fa kk, fb kk)).filterMap f = ks.map fun kk => (kk, ea kk, eb kk) := by
  induction ks with
  | nil => rfl
  | cons kk ks ih =>
    obtain ⟨ha, hb⟩ := h kk List.mem_cons_self
    simp only [List.map_cons, List.filterMap_cons, ha, hb, hf, ih fun x hx => h x (List.mem_cons_of_mem _ hx)]

/-- A vector holds, for each unmasked element of its slot, the pairs of the pass's indices (R98, R100). -/
theorem Run.mem_vector {r : Run} {s : State} {c : Core} {cells : VectorCells}
    (h : r.vector s c = some cells) {row col : Nat} (hrow : row ∈ r.pass.rows) (hcol : col ∈ r.pass.cols)
    (hv : (if r.pass.galley then col else row) = r.tile.vec) {ea eb : Nat → Elem}
    (he : ∀ kk, r.pass.k1 ≤ kk → kk < r.pass.stop →
      r.elem s c false row kk = some (ea kk) ∧ r.elem s c true col kk = some (eb kk)) :
    (row, col, ((List.range (r.pass.stop - r.pass.k1)).map (r.pass.k1 + ·)).map fun kk => (kk, ea kk, eb kk)) ∈
      cells := by
  unfold Run.vector at h
  dsimp only at h
  rw [Option.ite_none_right_eq_some] at h
  obtain rfl := Option.some.inj h.2
  refine List.mem_map.2 ⟨(row, col, _), List.mem_map.2 ⟨(row, col), ?_, rfl⟩, ?_⟩
  · rw [← hv]
    cases hg : r.pass.galley <;> simp [hrow, hcol]
  · refine congrArg (fun l => (row, col, l)) (filterMap_pairs (fun _ _ _ => rfl) fun kk hkk => ?_)
    obtain ⟨i, hi, rfl⟩ := List.mem_map.1 hkk
    have := List.mem_range.1 hi
    exact he _ (by omega) (by omega)

theorem Pass.nodup_blocks (p : Pass) : p.blocks.Nodup := List.nodup_range.filter _

/-- A vector leaves the partial of each block of its pass, where no earlier pass has left one (R103). -/
theorem Run.mem_partsAfter {r : Run} {cells : VectorCells} (hne : cells ≠ [])
    {b : Nat} (hb : b ∈ r.pass.blocks) (hl : ∀ z ∈ r.tile.parts, ¬ z.SameKey (r.partOf cells b)) :
    r.partOf cells b ∈ r.partsAfter cells := by
  unfold Run.partsAfter
  rw [if_neg (by simpa using hne)]
  refine mem_foldl_joinPart_of_made (List.mem_map_of_mem hb) (List.pairwise_map.2 ?_) hl
  exact r.pass.nodup_blocks.imp fun hab hk => hab hk.2.2

/-! ### A pass starts (R97, R99, R106) -/

/-- The run once its pass has started. -/
def Run.swapped (r : Run) (refs : List (Nat × Int)) : Run :=
  { r with tile := { r.tile with busy := true, vec := 0, loaded := false, erefs := refs } }

/-- The core once the PEs have swapped. -/
def Run.swappedCore (r : Run) (refs : List (Nat × Int)) (c : Core) : Core :=
  { c with working := c.shadow, shadow := [], tile := some (r.swapped refs).tile }

theorem State.running_setCore {s : State} {k : Nat} {c : Core} {r u : Run} (hr : s.running k = some r)
    (ht : c.tile = some u.tile) (hop : u.tile.op = r.tile.op) (hv : u.tile.sliver = r.tile.sliver) (ho : u.op = r.op)
    (he : u.entry = r.entry) : (s.setCore k c).running k = some u := by
  obtain ⟨-, hrop, hrentry⟩ := State.running_eq_some.1 hr
  refine State.running_eq_some.2 ⟨?_, ?_, ?_⟩
  · rw [State.core_setCore_same, ht]
  · rw [State.op_setCore, hop, hrop, ho]
  · rw [ho, hv, hrentry, he]

theorem State.streamOne_isSome {s : State} {k : Nat} {r : Run} {cells : VectorCells}
    (hr : s.running k = some r) (hbusy : r.tile.busy = true)
    (hbehind : r.tile.behind (r.tile.clock + r.tile.vec) = false)
    (hawake : s.asleep (k / 256) = false) (hcells : r.vector s (s.core k) = some cells) : (s.streamOne k).isSome := by
  unfold State.streamOne
  simp [hr, hbusy, hbehind, hawake, hcells]

/-- The PEs swap once everything that the pass needs is at hand. -/
theorem State.swap_of_ready {s : State} {k : Nat} {r : Run} {refs : List (Nat × Int)}
    {cells : VectorCells} (hr : s.running k = some r) (hwalked : r.tile.walked = false)
    (hbusy : r.tile.busy = false) (hloaded : r.tile.loaded = true) (hbehind : r.tile.behind r.tile.clock = false)
    (hawake : s.asleep (k / 256) = false) (hrefs : r.refs s (s.core k) = some refs)
    (hcells : (r.swapped refs).vector s (r.swappedCore refs (s.core k)) = some cells) :
    s.swap k = s.setCore k (r.swappedCore refs (s.core k)) := by
  have hsome : ((s.setCore k (r.swappedCore refs (s.core k))).streamOne k).isSome :=
    State.streamOne_isSome (r := r.swapped refs) (cells := cells) (State.running_setCore hr rfl rfl rfl rfl rfl) rfl
      hbehind hawake (by rw [State.core_setCore_same]; exact hcells)
  unfold State.swap
  simp only [hr, hrefs]
  rw [if_neg (by simp [hwalked, hbusy, hloaded, hbehind, hawake])]
  exact if_pos hsome

theorem Run.refs_of_regs (r : Run) {s u : State} (h : u.regs = s.regs) (c : Core) (sh : SMap (BitVec 64))
    (tl : Option Tile) (b : Bool) :
    Run.refs ⟨{ r.tile with loaded := b }, r.op, r.entry⟩ u { c with shadow := sh, tile := tl } = r.refs s c := by
  change r.refs { s with regs := u.regs } c = r.refs s c
  rw [h]

theorem Run.vector_of_regs (r : Run) {s u : State} (h : u.regs = s.regs) (hvec : r.tile.vec = 0) (c : Core)
    (sh : SMap (BitVec 64)) (tl : Option Tile) (refs : List (Nat × Int)) :
    (r.swapped refs).vector u { c with shadow := sh, tile := tl } = r.vector s c := by
  obtain ⟨t, o, e⟩ := r
  obtain ⟨⟩ := t
  subst hvec
  exact congrArg (fun m => Run.vector _ { s with regs := m } c) h

/-- The stationary operand stands in the shadow registers, where it was or from the feeder store (R96, R97). -/
theorem State.loadShadow_of_at_hand {s : State} {k : Nat} {r : Run} {regs : SMap (BitVec 64)}
    (hr : s.running k = some r) (hwalked : r.tile.walked = false) (hbusy : r.tile.busy = false)
    (hheld : r.tile.loaded = true → regs = (s.core k).shadow)
    (hload : r.tile.loaded = false → r.pass.load s (s.core k) r.stat (r.stat.span r.tile.t).1 = some regs) :
    let t := s.loadShadow k
    t.regs = s.regs ∧ t.running k = some ⟨{ r.tile with loaded := true }, r.op, r.entry⟩ ∧
      t.core k = { s.core k with shadow := regs, tile := some { r.tile with loaded := true } } := by
  obtain ⟨ht, -, -⟩ := State.running_eq_some.1 hr
  rw [State.loadShadow_running hr]
  cases hl : r.tile.loaded with
  | true =>
    have htile : ({ r.tile with loaded := true } : Tile) = r.tile := by rw [← hl]
    rw [htile, hheld hl, ← ht]
    simp [Run.loadHeld, hl, hr]
  | false =>
    have hdue : r.loadHeld = false := by simp [Run.loadHeld, hl, hbusy, hwalked]
    have hnext : r.nextLoad s (s.core k) = some regs := by
      have hpass : r.nextPass = r.pass := by simp [Run.nextPass, hbusy, Run.pass]
      rw [Run.nextLoad, hpass]
      exact hload hl
    rw [hdue, hnext]
    exact ⟨rfl, State.running_setCore hr rfl rfl rfl rfl rfl, State.core_setCore_same _ _ _⟩

theorem State.asleep_of_regs {s u : State} (h : u.regs = s.regs) (c : Nat) : u.asleep c = s.asleep c :=
  congrArg (fun m => State.asleep { s with regs := m } c) h

/-- After a swap the rows' last PEs still hold the next load back (R98). -/
theorem Run.loadHeld_swapped (r : Run) (refs : List (Nat × Int)) : (r.swapped refs).loadHeld = true := by
  have hpos : 0 < if (r.swapped refs).nextPass.galley then 16 else 8 := by split <;> decide
  exact Bool.or_eq_true_iff.2 (.inr (decide_eq_true hpos))

theorem State.loadShadow_of_held {s : State} {k : Nat} {r : Run} (hr : s.running k = some r)
    (hheld : r.loadHeld = true) :
    s.loadShadow k = s := by
  rw [State.loadShadow_running hr, hheld, if_pos rfl]

/-- What holds of the core after one entry, and what the array keeps, holds once the array has gone on. -/
theorem Core.ArrayKeeps.arrayOn_of_streamOne {P : Core → Prop} (hP : Core.ArrayKeeps P) {s u : State} {k : Nat}
    (hload : s.loadShadow k = s) (hu : s.streamOne k = some u) (h : P (u.core k)) : P ((s.arrayOn k).core k) := by
  have hstream : s.stream k 64 = u.stream k 63 := by
    rw [State.stream]
    simp [hu]
  rw [State.arrayOn, hload, hstream]
  exact hP.loadShadow (hP.streamAll 63 h)

/-- The state in which a pass starts, when its stationary operand, exponents and first vector are at hand. -/
structure Run.Ready (r : Run) (s : State) (k : Nat) (regs : SMap (BitVec 64)) (refs : List (Nat × Int))
    (cells : VectorCells) : Prop where
  run    : s.running k = some r
  awake  : s.asleep (k / 256) = false
  walked : r.tile.walked = false
  idle   : r.tile.busy = false
  vec    : r.tile.vec = 0
  behind : r.tile.behind r.tile.clock = false
  held   : r.tile.loaded = true → regs = (s.core k).shadow
  load   : r.tile.loaded = false → r.pass.load s (s.core k) r.stat (r.stat.span r.tile.t).1 = some regs
  refs   : r.refs s (s.core k) = some refs
  cells  : r.vector s { s.core k with working := regs } = some cells

theorem Run.Ready.swap {r : Run} {s : State} {k : Nat} {regs : SMap (BitVec 64)} {refs : List (Nat × Int)}
    {cells : VectorCells} (h : r.Ready s k regs refs cells) :
    let u := (s.loadShadow k).swap k
    u.running k = some (r.swapped refs) ∧ u.asleep (k / 256) = false ∧
      (r.swapped refs).vector u (u.core k) = some cells ∧
      u.core k = { s.core k with working := regs, shadow := [], tile := some (r.swapped refs).tile } := by
  obtain ⟨hregs, hrun, hcore⟩ := State.loadShadow_of_at_hand h.run h.walked h.idle h.held h.load
  have hawake : (s.loadShadow k).asleep (k / 256) = false := by
    rw [State.asleep_of_regs hregs]
    exact h.awake
  have hrefs := (Run.refs_of_regs r hregs (s.core k) regs (some { r.tile with loaded := true }) true).trans h.refs
  have hcells := (Run.vector_of_regs r hregs h.vec { s.core k with working := regs } [] (some (r.swapped refs).tile)
    refs).trans h.cells
  rw [← hcore] at hrefs
  have hswap := State.swap_of_ready hrun h.walked h.idle rfl h.behind hawake hrefs (cells := cells)
    (by rw [hcore]; exact hcells)
  simp only
  rw [hswap, State.core_setCore_same, hcore]
  exact ⟨State.running_setCore hrun rfl rfl rfl rfl rfl, hawake, hcells, rfl⟩

/-- A pass starts, and its first vector's partials stand at the edge (R99, R103). -/
theorem Run.Ready.runPass {r : Run} {s : State} {k : Nat} {regs : SMap (BitVec 64)} {refs : List (Nat × Int)}
    {cells : VectorCells} (h : r.Ready s k regs refs cells) :
    let d := (s.runPass k).core k
    d.working = regs ∧ d.feeder = (s.core k).feeder ∧ ∃ t', d.tile = some t' ∧ t'.accs = r.tile.accs ∧
      ∀ y ∈ (r.swapped refs).partsAfter cells, y.vec = 0 → y ∈ t'.parts := by
  obtain ⟨hrun, hawake, hcells, hcore⟩ := h.swap
  obtain ⟨htile, -, -⟩ := State.running_eq_some.1 h.run
  have hload := State.loadShadow_of_held hrun (r.loadHeld_swapped refs)
  obtain ⟨u, hu⟩ := Option.isSome_iff_exists.1 (State.streamOne_isSome hrun rfl h.behind hawake hcells)
  obtain ⟨r', cells', t', hr', -, hcells', hucore, -, -, hparts, hvec⟩ := State.streamOne_core hu
  obtain rfl : r.swapped refs = r' := Option.some.inj (hrun.symm.trans hr')
  obtain rfl : cells = cells' := Option.some.inj (hcells.symm.trans hcells')
  have hwalk := State.arrayOn_walkedTo ((s.loadShadow k).swap k) k
  rw [hcore] at hwalk
  rw [State.runPass, State.beginTile_of_tile htile]
  simp only
  obtain ⟨t'', ht'', haccs, -⟩ := hwalk.tile rfl
  refine ⟨by rw [hwalk.eq], by rw [hwalk.eq], t'', ht'', haccs, fun y hy hyv => ?_⟩
  have hholds : Core.HoldsPart y (u.core k) := by
    rw [hucore]
    refine ⟨t', rfl, hparts ▸ hy, fun hb => ?_⟩
    rw [hvec hb, hyv]
    exact Nat.succ_pos _
  obtain ⟨t₃, ht₃, hmem, -⟩ := (Core.arrayKeeps_holdsPart y).arrayOn_of_streamOne hload hu hholds
  obtain rfl : t'' = t₃ := Option.some.inj (ht''.symm.trans ht₃)
  exact hmem

/-- PASS_START with the pass's first vector at hand. -/
theorem Run.Ready.passStart {r : Run} {s : State} {k : Fin 81920} {regs : SMap (BitVec 64)} {refs : List (Nat × Int)}
    {cells : VectorCells} (h : r.Ready s k regs refs cells) :
    ∃ u, exec (.passStart k) s = .next u ∧ (u.core k).working = regs ∧ (u.core k).feeder = (s.core k).feeder ∧
      ∃ t', (u.core k).tile = some t' ∧ t'.accs = r.tile.accs ∧
        ∀ row ∈ r.pass.rows, ∀ col ∈ r.pass.cols, (if r.pass.galley then col else row) = 0 → ∀ b ∈ r.pass.blocks,
          ∀ ea eb : Nat → Elem,
          (∀ kk, r.pass.k1 ≤ kk → kk < r.pass.stop →
            r.elem s { s.core k with working := regs } false row kk = some (ea kk) ∧
            r.elem s { s.core k with working := regs } true col kk = some (eb kk)) →
          (∀ y ∈ r.tile.parts, ¬ (y.group = r.tile.g ∧ y.vec = 0 ∧ y.block = b)) →
          ∃ y ∈ t'.parts, y.group = r.tile.g ∧ y.vec = 0 ∧ y.block = b ∧
            y.eref = ((refs.find? (·.1 == b)).map (·.2)).getD 0 ∧
            ∃ q ∈ y.elems, q.idx = row * r.tile.sliver.nt + col ∧
            q.q = (((List.range 16).filter fun i =>
                decide (r.pass.k1 ≤ 16 * b + i) && decide (16 * b + i < r.pass.stop)).map
              fun i => (product y.eref (ea (16 * b + i)) (eb (16 * b + i))).q).sum := by
  obtain ⟨hwork, hfeed, t', ht', haccs, hparts⟩ := h.runPass
  refine ⟨_, rfl, hwork, hfeed, t', ht', haccs, fun row hrow col hcol hrc b hb ea eb he hnew => ?_⟩
  have hmem := Run.mem_vector h.cells hrow hcol (hrc.trans h.vec.symm) he
  have hmade := Run.mem_partsAfter (r := r.swapped refs) (List.ne_nil_of_mem hmem) hb fun z hz hk => hnew z hz hk
  refine ⟨_, hparts _ hmade rfl, rfl, rfl, rfl, rfl, _, List.mem_map_of_mem hmem, elemBlock_idx .., ?_⟩
  exact elemBlock_q ..

/-! ### A core without a tile and without work -/

section Idle

variable {s : State} {k : Fin 81920} (ht : (s.core k).tile = none) (hw : (s.core k).work = [])
include ht hw

theorem feederFetch_of_idle (sideB : Bool) (line : Nat) (part : FeedPart) (ecc : Ecc) :
    exec (.feederFetch k sideB line part ecc) s = .next s := by
  have hnone (scale : Bool) (idx : Nat) : s.feederFetch k sideB scale line idx ecc = s := by
    simp [State.feederFetch, State.beginTile_of_no_work hw, State.running_of_no_tile ht]
  cases part with
  | element i => exact congrArg Host.Outcome.next (hnone false i)
  | scale b => exact congrArg Host.Outcome.next (hnone true b)

theorem passStart_of_idle : exec (.passStart k) s = .next s := by
  have hr := State.running_of_no_tile ht
  refine congrArg Host.Outcome.next ?_
  rw [State.runPass, State.beginTile_of_no_work hw, State.loadShadow_of_stopped hr, State.swap_of_stopped hr,
    State.arrayOn_of_stopped hr]

omit hw in
theorem blockPromotion_of_idle : exec (.blockPromotion k) s = .next s := by
  have hr := State.running_of_no_tile ht
  have hstep : s.promoteStep k .clean = s := by simp [State.promoteStep, hr]
  refine congrArg Host.Outcome.next ?_
  rw [State.promoteNext, hstep, State.arrayOn_of_stopped hr]

omit hw in
theorem tileComplete_of_idle : exec (.tileComplete k) s = .next s :=
  congrArg Host.Outcome.next (by simp [State.completeTile, ht])

theorem slugEnqueue_of_idle : exec (.slugEnqueue k) s = .next s :=
  congrArg Host.Outcome.next (by simp [State.enqueue, hw, State.running_of_no_tile ht])

end Idle

/-! ### A walked tile -/

theorem passStart_of_walked {s : State} {k : Fin 81920} {r : Run} (hr : s.running k = some r)
    (hw : r.tile.walked = true) (hb : r.tile.busy = false) : exec (.passStart k) s = .next s := by
  obtain ⟨ht, -, -⟩ := State.running_eq_some.1 hr
  refine congrArg Host.Outcome.next ?_
  rw [State.runPass, State.beginTile_of_tile ht, State.loadShadow_of_walked ht hw hb, State.swap_of_walked ht hw,
    State.arrayOn_of_walked ht hw hb]

/-! ### A full slug queue (R101, R209) -/

theorem State.core_stall (s : State) (k : Nat) : (s.stall k).core k =
    { s.core k with fullStalls := ((s.core k).fullStalls + 1) % 65536 } := State.core_setCore_same _ _ _

/-- The array counts a stall and keeps its slugs. -/
def Core.StalledFrom (c d : Core) : Prop := d.fullStalls = (c.fullStalls + 1) % 65536 ∧ d.slugs = c.slugs

theorem State.stalledFrom_stall (s : State) (k : Nat) : (s.core k).StalledFrom ((s.stall k).core k) := by
  rw [State.core_stall]
  exact ⟨rfl, rfl⟩

theorem Core.StalledFrom.walked {c d e : Core} (h : c.StalledFrom d) (g : d.WalkedTo e) : c.StalledFrom e := by
  obtain ⟨hstalls, hslugs⟩ := h
  rw [g.eq]
  exact ⟨hstalls, hslugs⟩

/-! ### The end of a tile (R124 to R126) -/

/-- A rescue is due: the tile may run again, an element is saturated and none is a NaN (R124). -/
def Run.rescueDue (r : Run) : Bool :=
  r.tile.mayRerun r.op && (r.tile.accs.any fun a => a.2.sat) && !(r.tile.accs.any fun a => a.2.isNan)

theorem Run.rescueDue_iff {r : Run} : r.rescueDue = true ↔ r.op.rescue = true ∧ (∃ a ∈ r.tile.accs, a.2.sat = true) ∧
    (∀ a ∈ r.tile.accs, a.2.isNan = false) ∧ r.op.desc.accInt = false ∧
    (r.op.desc.accInit && r.tile.first) = false := by
  simp only [Run.rescueDue, Tile.mayRerun, Bool.and_eq_true, Bool.not_eq_true', List.any_eq_true, List.any_eq_false,
    Bool.not_eq_true]
  constructor
  · rintro ⟨⟨⟨⟨hrescue, hint⟩, hinit⟩, hsat⟩, hnan⟩
    exact ⟨hrescue, hsat, hnan, hint, hinit⟩
  · rintro ⟨hrescue, hsat, hnan, hint, hinit⟩
    exact ⟨⟨⟨⟨hrescue, hint⟩, hinit⟩, hsat⟩, hnan⟩

/-- The tile completes with a slug queue entry, or waits for one (R177). -/
def State.endTile (s : State) (k : Nat) (t : Tile) (stop : Bool) : State :=
  if !t.entry && decide (4 ≤ (s.core k).entries) then s.stall k
  else s.setCore k { s.core k with tile := some { t with complete := true, stop := stop, entry := true } }

theorem State.endTile_of_room {s : State} {k : Nat} {t : Tile} (h : t.entry = true ∨ (s.core k).entries < 4)
    (stop : Bool) : s.endTile k t stop =
      s.setCore k { s.core k with tile := some { t with complete := true, stop := stop, entry := true } } := by
  refine if_neg ?_
  rcases h with h | h
  · simp [h]
  · simp [Nat.not_le.2 h]

theorem State.endTile_of_full {s : State} {k : Nat} {t : Tile} (he : t.entry = false) (h : 4 ≤ (s.core k).entries)
    (stop : Bool) : s.endTile k t stop = s.stall k := by
  simp [State.endTile, he, h]

section Complete

variable {s : State} {k : Nat} {r : Run} (hr : s.running k = some r) (hprod : r.op.desc.isProduct = true)
  (hw : r.tile.walked = true) (hp : r.tile.parts = []) (hc : r.tile.complete = false)
include hr hprod hw hp hc

/-- TILE_COMPLETE of a walked tile (R124 to R126). -/
theorem State.completeTile_of_walked : s.completeTile k =
    if !r.rescueDue then s.endTile k r.tile false
    else if 3 ≤ r.tile.reruns then s.endTile k r.tile true
    else if (decide (r.tile.ecB ≤ r.tile.ecA) && decide (5 ≤ r.tile.ecA))
        || (!decide (r.tile.ecB ≤ r.tile.ecA) && !decide (5 ≤ r.tile.ecB) && decide (5 ≤ r.tile.ecA)) then
      s.setCore k { s.core k with tile := some (r.tile.rerun (r.tile.ecA - 4) r.tile.ecB 0 r.entry.k) }
    else if decide (5 ≤ r.tile.ecB) then
      s.setCore k { s.core k with tile := some (r.tile.rerun r.tile.ecA (r.tile.ecB - 4) 1 r.entry.k) }
    else s.endTile k r.tile true := by
  obtain ⟨ht, ho, he⟩ := State.running_eq_some.1 hr
  simp only [State.completeTile, ht, ho, he]
  exact if_neg (by simp [hprod, hw, hp, hc])

/-- Without a rescue due the tile completes (R124). -/
theorem State.completeTile_of_not_due (h : ¬ r.rescueDue = true) : s.completeTile k = s.endTile k r.tile false := by
  rw [State.completeTile_of_walked hr hprod hw hp hc, if_pos (by simpa using h)]

/-- After three reruns, or with no coarse field to lower, the rescue stops (R125). -/
theorem State.completeTile_of_stop (h : r.rescueDue = true)
    (hn : 3 ≤ r.tile.reruns ∨ r.tile.ecA < 5 ∧ r.tile.ecB < 5) : s.completeTile k = s.endTile k r.tile true := by
  rw [State.completeTile_of_walked hr hprod hw hp hc, if_neg (by simp [h])]
  by_cases h3 : 3 ≤ r.tile.reruns
  · rw [if_pos h3]
  · obtain ⟨ha, hb⟩ := hn.resolve_left h3
    rw [if_neg h3, if_neg (by simp [Nat.not_le.2 ha]), if_neg (by simp [Nat.not_le.2 hb])]

section Rerun

variable (h : r.rescueDue = true) (hn : r.tile.reruns < 3)
include h hn

/-- The coarse field of A is lowered where it is the larger, or on a tie (R125). -/
theorem State.completeTile_of_rerun_a (hab : r.tile.ecB ≤ r.tile.ecA) (ha : 5 ≤ r.tile.ecA) : s.completeTile k =
    s.setCore k { s.core k with tile := some (r.tile.rerun (r.tile.ecA - 4) r.tile.ecB 0 r.entry.k) } := by
  rw [State.completeTile_of_walked hr hprod hw hp hc, if_neg (by simp [h]), if_neg (by omega),
    if_pos (by simp [hab, ha])]

theorem State.completeTile_of_rerun_b (hab : r.tile.ecA < r.tile.ecB) (hb : 5 ≤ r.tile.ecB) : s.completeTile k =
    s.setCore k { s.core k with tile := some (r.tile.rerun r.tile.ecA (r.tile.ecB - 4) 1 r.entry.k) } := by
  rw [State.completeTile_of_walked hr hprod hw hp hc, if_neg (by simp [h]), if_neg (by omega),
    if_neg (by simp [Nat.not_le.2 hab, hb]), if_pos (by simp [hb])]

end Rerun

end Complete

/-! ### The finished slug (R177) -/

section Enqueue

variable {s : State} {k : Nat} {r : Run} (hr : s.running k = some r) (hprod : r.op.desc.isProduct = true)
include hr hprod

/-- SLUG_ENQUEUE of a product tile, where the core takes no other first. -/
theorem State.enqueue_of_running (hawake : s.asleep (k / 256) = false) : s.enqueue k =
    if r.tile.complete then
      if !r.tile.entry && decide (4 ≤ (s.core k).entries) then s.stall k
      else ((s.enterFiles r.entry.a (r.tile.sliver.origin r.tile.t).1 (r.tile.sliver.extent r.tile.t).1
        r.op.context).pushSlug k r.op r.tile (r.tile.slug r.op)).rescueLog k r.op.seq
          (fld (r.tile.slug r.op).status 8 2) (fld (r.tile.slug r.op).status 10 1) (bit (r.tile.slug r.op).status 11)
    else s := by
  obtain ⟨ht, -, -⟩ := State.running_eq_some.1 hr
  unfold State.enqueue
  simp only [State.beginTile_of_tile ht, ite_self, hr, State.finished, hprod, if_true]
  cases r.tile.complete <;> simp [hawake]

end Enqueue

theorem State.enterFiles_of_not_file (s : State) {x : Operand} (h : ∀ b, x ≠ .accFile b) (r0 n : Nat)
    (ctx : Option Nat) : s.enterFiles x r0 n ctx = s := by
  cases x with
  | accFile b => exact absurd rfl (h b)
  | _ => rfl

theorem State.core_rescueLog (s : State) (core : Nat) (seq : Word) (n op : Nat) (stop : Bool) (k : Nat) :
    (s.rescueLog core seq n op stop).core k = s.core k := by
  unfold State.rescueLog
  split
  · rfl
  · rw [State.core_setReg, State.core_setRegN]

/-- The slug stands in its queue entry and the array is free (R177). -/
theorem State.enqueue_of_complete {s : State} {k : Nat} {r : Run} (hr : s.running k = some r)
    (hprod : r.op.desc.isProduct = true) (hawake : s.asleep (k / 256) = false) (hc : r.tile.complete = true)
    (hfile : ∀ b, r.entry.a ≠ .accFile b) (hroom : r.tile.entry = true ∨ (s.core k).entries < 4) :
    ((s.enqueue k).core k).slugs = (s.core k).slugs ++ [r.tile.slug r.op] ∧ ((s.enqueue k).core k).tile = none := by
  have hfits : ¬ (!r.tile.entry && decide (4 ≤ (s.core k).entries)) = true := by
    rcases hroom with h | h
    · simp [h]
    · simp [Nat.not_le.2 h]
  rw [State.enqueue_of_running hr hprod hawake, if_pos hc, if_neg hfits, State.enterFiles_of_not_file s hfile,
    State.core_rescueLog, State.pushSlug, State.core_setCore_same]
  exact ⟨rfl, rfl⟩

/-! ### Products (R108, R117) -/

/-- A product of finite elements in units of the reference exponent, truncated toward zero. -/
theorem product_fin_q (eref : Int) (x y : Bool) (n m : Nat) (e f : Int) :
    (product eref (.fin x n e) (.fin y m f)).q =
      if x = y then ((n * m * 2 ^ (e + f - eref + 15).toNat / 2 ^ (-(e + f - eref + 15)).toNat : Nat) : Int)
      else -((n * m * 2 ^ (e + f - eref + 15).toNat / 2 ^ (-(e + f - eref + 15)).toNat : Nat) : Int) := by
  have hj : e + f - (eref - 15) = e + f - eref + 15 := by omega
  unfold product
  simp only [hj]
  cases e + f - eref + 15 with
  | ofNat j =>
    have hneg : (-Int.ofNat j).toNat = 0 := by simp
    rw [hneg, Nat.pow_zero, Nat.div_one]
    rfl
  | negSucc j =>
    have hpos : (-Int.negSucc j).toNat = j + 1 := rfl
    have hzero : (Int.negSucc j).toNat = 0 := rfl
    rw [hpos, hzero, Nat.pow_zero, Nat.mul_one]

theorem product_nan_left (eref : Int) (v : Elem) : (product eref .nan v).nan = true := by
  cases v <;> rfl

theorem product_nan_right (eref : Int) (v : Elem) : (product eref v .nan).nan = true := by
  cases v <;> rfl

/-- Infinity times zero is invalid, and a NaN. -/
theorem product_inf_zero (eref : Int) (x y : Bool) (f : Int) :
    (product eref (.inf x) (.fin y 0 f)).inv = true ∧ (product eref (.inf x) (.fin y 0 f)).nan = true := ⟨rfl, rfl⟩

theorem product_inf_fin (eref : Int) (x y : Bool) (f : Int) {m : Nat} (h : 0 < m) :
    (product eref (.inf x) (.fin y m f)).pinf = (x == y) ∧ (product eref (.inf x) (.fin y m f)).ninf = (x != y) := by
  have hm : m ≠ 0 := Nat.pos_iff_ne_zero.1 h
  simp [product, hm]

/-! ### One element's promotion (R111, R112, R118) -/

/-- A saturated accumulator keeps its code. -/
theorem promote_of_sat (int : Bool) (eref : Int) {a : Accum} (p : PartElem) (h : a.sat = true) :
    (promote int eref a p).1.code = a.code ∧ (promote int eref a p).1.sat = true := by
  simp [promote, h]

/-- The QI32 sum, clamped (R112). -/
theorem promoteInt_eq (a : Accum) (q : Int) :
    (promoteInt a q).1 = BitVec.ofInt 32 (max (-2147483648) (min 2147483647 (twos 32 a.code.toNat + q))) ∧
      (promoteInt a q).2.2 =
        decide (twos 32 a.code.toNat + q < -2147483648 ∨ 2147483647 < twos 32 a.code.toNat + q) := by
  unfold promoteInt
  dsimp only
  generalize twos 32 a.code.toNat + q = x
  split
  · next hhi =>
    rw [min_eq_left (by omega), max_eq_right (by decide)]
    exact ⟨rfl, (decide_eq_true (.inr hhi)).symm⟩
  · next hhi =>
    rw [min_eq_right (by omega)]
    split
    · next hlo =>
      rw [max_eq_left (by omega)]
      exact ⟨rfl, (decide_eq_true (.inl hlo)).symm⟩
    · next hlo =>
      rw [max_eq_right (by omega)]
      exact ⟨rfl, (decide_eq_false (not_or.2 ⟨hlo, hhi⟩)).symm⟩

theorem promote_int_of_not_sat (eref : Int) {a : Accum} (p : PartElem) (h : a.sat = false) :
    (promote true eref a p).1.code =
        BitVec.ofInt 32 (max (-2147483648) (min 2147483647 (twos 32 a.code.toNat + p.q))) ∧
      (promote true eref a p).1.sat =
        decide (twos 32 a.code.toNat + p.q < -2147483648 ∨ 2147483647 < twos 32 a.code.toNat + p.q) := by
  obtain ⟨hcode, hsat⟩ := promoteInt_eq a p.q
  rw [← hcode, ← hsat]
  simp [promote, h]

/-! ### A partial's promotion -/

theorem SMap.find_foldl_put_other {α : Type} (l : List (Nat × α)) (m : SMap α) {i : Nat} (h : ∀ p ∈ l, p.1 ≠ i) :
    SMap.find (l.foldl (fun m p => SMap.put m p.1 p.2) m) i = SMap.find m i := by
  induction l generalizing m with
  | nil => rfl
  | cons p l ih =>
    rw [List.foldl_cons, ih _ fun q hq => h q (List.mem_cons_of_mem _ hq),
      SMap.find_put_other _ _ (h p List.mem_cons_self).symm]

/-- Entries put under distinct keys are all found. -/
theorem SMap.find_foldl_put {α : Type} {l : List (Nat × α)} (hl : (l.map (·.1)).Nodup) (m : SMap α) {p : Nat × α}
    (hp : p ∈ l) : SMap.find (l.foldl (fun m p => SMap.put m p.1 p.2) m) p.1 = some p.2 := by
  induction l generalizing m with
  | nil => cases hp
  | cons x l ih =>
    obtain ⟨hx, hl⟩ := List.nodup_cons.1 hl
    rcases List.mem_cons.1 hp with rfl | hp
    · rw [List.foldl_cons, SMap.find_foldl_put_other _ _ fun q hq he => hx (List.mem_map.2 ⟨q, hq, he⟩),
        SMap.find_put_same]
    · exact ih hl _ hp

/-- The accumulator of an element before its first promotion. -/
def Accum.zero : Accum := { code := 0, nan := false, pinf := false, ninf := false, sat := false }

theorem Partial.promotions_codes (x : Partial) (t : Tile) (int : Bool) :
    (x.promotions t int).map (fun u => (u.1, u.2.1)) =
      x.elems.map fun e => (e.idx, (promote int x.eref (SMap.getD t.accs e.idx Accum.zero) e).1) := by
  simp only [Partial.promotions, List.map_map]
  rfl

theorem Partial.find_promotions {x : Partial} {t : Tile} {int : Bool} (h : (x.elems.map (·.idx)).Nodup)
    {q : PartElem} (hq : q ∈ x.elems) :
    SMap.find ((x.promotions t int).foldl (fun m u => SMap.put m u.1 u.2.1) t.accs) q.idx =
      some (promote int x.eref (SMap.getD t.accs q.idx Accum.zero) q).1 := by
  have hfold := List.foldl_map (f := fun u : Nat × Accum × Nat × Nat × List (Nat × FxEvent) => (u.1, u.2.1))
    (g := fun m p => SMap.put m p.1 p.2) (l := x.promotions t int) (init := t.accs)
  rw [Partial.promotions_codes] at hfold
  rw [← hfold]
  refine SMap.find_foldl_put (p := (q.idx, _)) ?_ _ (List.mem_map_of_mem hq)
  rw [List.map_map]
  exact h

theorem State.injectWord_of_unarmed {s : State} {base : Nat} (h : Unarmed s base) (place : Nat) (ecc : Ecc) :
    s.injectWord base place ecc = (s, ecc) := by
  have hi (kind : Nat) : s.injects base kind place = false := by
    have hw : bit (s.regN (base + 0xF10)) 31 = false := h
    simp [State.injects, hw]
  cases ecc <;> simp [State.injectWord, hi]

/-- The promotion takes a slug queue entry for the tile, as no rerun may follow (R177; log entry 81). -/
def Run.takesEntry (r : Run) (x : Partial) : Bool :=
  x.lastOfFirst r.entry.k && !r.tile.mayRerun r.op && !r.tile.entry

/-- The tile after the promotion of its oldest released partial (R98, R111). -/
def Run.promoted (r : Run) (x : Partial) (rest : List Partial) : Tile :=
  { r.tile with
    parts := rest
    accs := (x.promotions r.tile r.op.desc.accInt).foldl (fun m u => SMap.put m u.1 u.2.1) r.tile.accs
    fx := r.tile.fx.filter fun y => decide (x.due < y.1)
    entry := r.tile.entry || r.takesEntry x
    exc := (x.promotions r.tile r.op.desc.accInt).foldl (fun f u => f ||| u.2.2.1) r.tile.exc }

section Promote

variable {s : State} {k : Nat} {r : Run} {x : Partial} {rest : List Partial} (hr : s.running k = some r)
  (hx : takeReady r.tile.parts = some (x, rest)) (hawake : s.asleep (k / 256) = false)
  (hnow : ∀ n, r.tile.now = some n → x.due < n)
include hr hx hawake hnow

theorem State.promoteStep_of_full (htakes : r.takesEntry x = true) (hfull : 4 ≤ (s.core k).entries) :
    s.promoteStep k .clean = s.stall k := by
  unfold Run.takesEntry at htakes
  unfold State.promoteStep
  simp only [hr, hx, hawake, htakes]
  cases hn : r.tile.now with
  | none => simp [hfull]
  | some n => simp [hfull, Nat.not_le.2 (hnow n hn)]

/-- The flags and events of a promotion leave the core as its tile was put. -/
theorem State.promoteStep_of_room (hclean : Unarmed s (coreKey k 0))
    (hroom : r.takesEntry x = false ∨ (s.core k).entries < 4) :
    (s.promoteStep k .clean).core k = { s.core k with tile := some (r.promoted x rest) } := by
  have hfits : ¬ (r.takesEntry x && decide (4 ≤ (s.core k).entries)) = true := by
    rcases hroom with h | h
    · simp [h]
    · simp [Nat.not_le.2 h]
  have hl := Sub.refl [.regs, .ports, .out, .outst, .vecBusy, .power]
  have hcore (es : List FxEvent) := State.core_of_cores ((((Keep.refl [.regs, .ports, .out, .outst, .vecBusy, .power]
    (s.setTile k (r.promoted x rest))).foldl (as := x.promotions r.tile r.op.desc.accInt)
      fun _ y hu => hu.sticky k y.2.2.2.1 y.2.2.1).fxOffer k r.op r.tile.sliver r.tile.t es).same.same .cores
      (by decide)) k
  unfold Run.takesEntry at hfits
  unfold State.promoteStep
  simp only [hr, hx, State.injectWord_of_unarmed hclean]
  rw [if_neg ?_, if_neg hfits]
  · rw [if_neg (by decide)]
    exact (hcore _).trans (State.core_setCore_same _ _ _)
  · rw [hawake]
    cases hn : r.tile.now with
    | none => simp
    | some n => simp [Nat.not_le.2 (hnow n hn)]

end Promote

theorem State.promoteStep_of_none {s : State} {k : Nat} {r : Run} (hr : s.running k = some r)
    (hx : takeReady r.tile.parts = none) : s.promoteStep k .clean = s := by
  simp [State.promoteStep, hr, hx]

/-- The promoted tile's accumulators, as the array leaves them (R111, R112, R118). -/
theorem Run.promoted_acc (r : Run) {x : Partial} (rest : List Partial) (hx : (x.elems.map (·.idx)).Nodup) {q : PartElem}
    (hq : q ∈ x.elems) :
    let a := SMap.getD r.tile.accs q.idx Accum.zero
    let sum := twos 32 a.code.toNat + q.q
    ∃ b, SMap.find (r.promoted x rest).accs q.idx = some b ∧ b.nan = (a.nan || q.nan) ∧ b.pinf = (a.pinf || q.pinf) ∧
      b.ninf = (a.ninf || q.ninf) ∧ (a.sat = true → b.code = a.code ∧ b.sat = true) ∧
      (r.op.desc.accInt = true → a.sat = false →
        b.code = BitVec.ofInt 32 (max (-2147483648) (min 2147483647 sum)) ∧
        b.sat = decide (sum < -2147483648 ∨ 2147483647 < sum)) := by
  refine ⟨_, Partial.find_promotions hx hq, rfl, rfl, rfl, promote_of_sat _ _ _, fun hint hsat => ?_⟩
  rw [hint]
  exact promote_int_of_not_sat _ _ hsat

section PromoteNext

variable {s : State} {k : Fin 81920} {r : Run}

theorem blockPromotion_of_none (hr : s.running k = some r) (hx : takeReady r.tile.parts = none) :
    ∃ u, exec (.blockPromotion k) s = .next u ∧
      (u.core k).tile.map (·.accs) = some r.tile.accs ∧ (u.core k).slugs = (s.core k).slugs := by
  obtain ⟨ht, -, -⟩ := State.running_eq_some.1 hr
  have hwalk := State.arrayOn_walkedTo s k
  refine ⟨_, rfl, ?_, ?_⟩
  all_goals rw [State.promoteNext, State.promoteStep_of_none hr hx]
  · rw [hwalk.accs, ht]
    rfl
  · rw [hwalk.eq]

variable {x : Partial} {rest : List Partial} (hr : s.running k = some r)
  (hx : takeReady r.tile.parts = some (x, rest)) (hawake : s.asleep (k / 256) = false)
  (hnow : ∀ n, r.tile.now = some n → x.due < n)
include hr hx hawake hnow

theorem blockPromotion_of_full (htakes : r.takesEntry x = true) (hfull : 4 ≤ (s.core k).entries) :
    ∃ u, exec (.blockPromotion k) s = .next u ∧ (s.core k).StalledFrom (u.core k) := by
  refine ⟨_, rfl, ?_⟩
  rw [State.promoteNext, State.promoteStep_of_full hr hx hawake hnow htakes hfull]
  exact (State.stalledFrom_stall s k).walked (State.arrayOn_walkedTo _ _)

theorem blockPromotion_of_room (hclean : Unarmed s (coreKey k 0))
    (hroom : r.takesEntry x = false ∨ (s.core k).entries < 4) :
    ∃ u, exec (.blockPromotion k) s = .next u ∧ ∃ t', (u.core k).tile = some t' ∧
      t'.entry = (r.tile.entry || r.takesEntry x) ∧
      (r.tile.walked = true → r.tile.busy = false → t'.parts = rest) ∧ t'.accs = (r.promoted x rest).accs := by
  have hcore := State.promoteStep_of_room hr hx hawake hnow hclean hroom
  obtain ⟨t', ht', haccs, hentry⟩ := (State.arrayOn_walkedTo (s.promoteStep k .clean) k).tile
    (t := r.promoted x rest) (by rw [hcore])
  refine ⟨_, rfl, t', ht', hentry, fun hw hb => ?_, haccs⟩
  rw [State.arrayOn_of_walked (t := r.promoted x rest) (by rw [hcore]) hw hb, hcore] at ht'
  exact congrArg Tile.parts (Option.some.inj ht').symm

end PromoteNext

/-! ### Registers that an interruption leaves (R394, R395, R411) -/

/-- A register of the die's pages above those of the vectors. -/
structure DieKey (k : Nat) : Prop where
  above : 0x3FC < k
  below : k < 0x1000000

theorem DieKey.not_records_island {k : Nat} (h : DieKey k) (c : Nat) : ¬ (pgIsland c).records k := by
  obtain ⟨hlo, hhi⟩ := h
  have hbase : (pgIsland c).base = 0x1000000 + c * 0x4000 + 0x2000 := rfl
  have hvec : (pgIsland c).vector = 16 := rfl
  unfold Page.records
  omega

theorem State.reg_dropCores (s : State) (c : Nat) {k : Nat} (h : DieKey k) : (s.dropCores c).reg k = s.reg k := by
  have hkeeps : (!inCluster c k || darkKeeps k) = true := by simp [darkKeeps, h.below]
  simp only [State.reg, State.dropCores, SMap.getD]
  rw [SMap.find_filter_key s.regs fun k => !inCluster c k || darkKeeps k, if_pos hkeeps]

theorem State.reg_bumpGen (s : State) (c g : Nat) {k : Nat} (h : DieKey k) : (s.bumpGen c g).reg k = s.reg k := by
  have := h.below
  exact State.reg_incReg_other _ _ (by unfold handleKey clusterBase; omega)

theorem State.reg_finishDark (s : State) (c : Nat) {k : Nat} (h : DieKey k) : (s.finishDark c).reg k = s.reg k := by
  have hbelow := h.below
  unfold State.finishDark
  dsimp only
  split
  · rw [State.reg_raise_other _ _ (h.not_records_island c), State.reg_foldl fun u g => u.reg_bumpGen c g h,
      State.reg_setRegN_other _ _ (by unfold clusterBase; omega), State.reg_dropCores _ _ h]
    rfl
  · rfl

theorem State.reg_closeCheck (s : State) (c bank : Nat) {k : Nat} (h : DieKey k) :
    (s.closeCheck c bank).reg k = s.reg k := by
  have hl := Sub.refl [.store, .full]
  have hwipe := (((Keep.refl [.store, .full] s).wipeBank c bank).same.same .regs (by decide))
  unfold State.closeCheck
  split
  · split
    · split
      · rw [State.bankDark, State.reg_finishDark _ _ h]
        exact State.reg_of_regs hwipe k
      · rfl
    · rfl
  · rfl

theorem State.reg_dropAccesses (s : State) (id : Nat) {k : Nat} (h : DieKey k) :
    (s.dropAccesses id).reg k = s.reg k := by
  rw [State.dropAccesses, State.closeChecks, State.reg_foldl fun u p => u.reg_closeCheck _ _ h]
  rfl

theorem State.reg_failWith (s : State) (id status k : Nat) : (s.failWith id status).reg k = s.reg k :=
  have hl := Sub.refl [.ops, .securing]
  State.reg_of_regs (((Keep.refl [.ops, .securing] s).failWith id status).same.same .regs (by decide)) k

/-- An interruption counts a failed replay, or starts a recovery period, and changes no other register of the die's
pages. -/
theorem State.reg_interrupt (s : State) (id : Nat) {k : Nat} (h : DieKey k) (hfailed : k ≠ 0x4C134)
    (hstatus : k ≠ 0x4D120) : (s.interrupt id).reg k = s.reg k := by
  have hdrop (f : Nat → Core → Core) : ((s.mapCores f).dropAccesses id).reg k = s.reg k :=
    State.reg_dropAccesses _ _ h
  unfold State.interrupt
  split
  · rfl
  · dsimp only
    split
    · rfl
    · split
      · rw [State.reg_failWith]
        split
        · exact (State.reg_incReg_other _ _ hfailed).trans (hdrop _)
        · exact hdrop _
      · split
        · rw [State.reg_setRegF_other _ _ _ _ hstatus]
          exact hdrop _
        · exact hdrop _

/-! ### A lost core (R395, R401, R475) -/

theorem State.reg_resetCore_other (s : State) (c : Nat) (id : Option Nat) (fault : Bool) {k : Nat} (h : DieKey k)
    (hsteward : ¬ pgSteward.records k) (hreset : k ≠ 0x1104) (hfailed : k ≠ 0x4C134) (hstatus : k ≠ 0x4D120) :
    (s.resetCore c id fault).reg k = s.reg k := by
  unfold State.resetCore
  refine (State.reg_foldl (fun u i => u.reg_interrupt i h hfailed hstatus) _ _).trans ?_
  rw [State.reg_raise_other _ _ hsteward, State.reg_setRegN_other _ _ hreset]

/-- RESET_CAUSE names the core. -/
theorem State.reg_resetCore_cause (s : State) (c : Nat) (id : Option Nat) (fault : Bool) :
    (s.resetCore c id fault).reg 0x1104 = w32 (4 + 16 * b2n fault + c * 256) := by
  unfold State.resetCore
  refine (State.reg_foldl (fun u i => u.reg_interrupt i ⟨by decide, by decide⟩ (by decide) (by decide)) _ _).trans ?_
  rw [State.reg_raise_other _ _ (by unfold Page.records; decide), State.reg_setRegN_same]

theorem State.reg_healthCapture (s : State) (cause d0 d1 : Nat) (seq : Option Word) {k : Nat}
    (h : ¬ pgHealth.records k) :
    (s.healthCapture cause d0 d1 seq).reg k = s.reg k := by
  cases seq with
  | some q => exact State.reg_capture_other _ _ (by simp) h
  | none => exact State.reg_capture_other _ _ (by simp) h

/-- An uncorrectable error is counted. -/
theorem State.reg_uncorrected_count (s : State) (cause d0 d1 : Nat) (seq : Option Word) :
    (s.uncorrected cause d0 d1 seq).reg 0x4C12C = s.reg 0x4C12C + 1 := by
  have h : ¬ pgHealth.records 0x4C12C := by unfold Page.records; decide
  rw [State.uncorrected, State.reg_raise_other _ _ h, State.reg_healthCapture _ _ _ _ _ h]
  exact State.reg_incReg_same s 0x4C12C 1

theorem State.reg_coreLost_count (s : State) (c : Nat) (id : Option Nat) :
    (s.coreLost c id).reg 0x4C12C = s.reg 0x4C12C + 1 := by
  rw [State.coreLost, State.reg_resetCore_other _ _ _ _ ⟨by decide, by decide⟩ (by unfold Page.records; decide)
    (by decide) (by decide) (by decide), State.reg_uncorrected_count]

theorem State.regN_coreLost_cause (s : State) {c : Nat} (hc : c < 81920) (id : Option Nat) :
    (s.coreLost c id).regN 0x1104 = 20 + 256 * c := by
  have hb : b2n true = 1 := rfl
  rw [State.regN, State.coreLost, State.reg_resetCore_cause, hb, toNat_w32 (by omega)]
  omega

theorem State.running_coreLost (s : State) (c : Nat) (id : Option Nat) : (s.coreLost c id).running c = none := by
  refine State.running_of_no_tile ?_
  rw [State.coreLost, State.resetCore, State.core_setCore_same]
  rfl

/-! ### Lost control state (R396) -/

/-- One operation ends as the die fails. -/
def State.cutOff (s : State) (o : OpRec) : State :=
  (((s.mapCores fun _ c => c.dropWork o.id true).dropAccesses o.id).modOp o.id fun p =>
    { p with stopped := true, status := 0x31 }).finish o.id 0x31

/-- The die's failure is noted (R396). -/
def State.failing (s : State) : State :=
  { s.uncorrected 4 0 0 none with health := { (s.uncorrected 4 0 0 none).health with failed := true } }

theorem State.controlLost_eq (s : State) : s.controlLost =
    (List.range 16).foldl (fun t q => t.haltQueue q 0x31)
      ((s.failing.raise pgHealth 16).ops.foldl State.cutOff (s.failing.raise pgHealth 16)) := rfl

/-- The fields that failing the die changes once its failure is noted. -/
abbrev failFields : List Field := [.regs, .shad, .store, .full, .banks, .xbar, .parked, .stage, .cores, .islands,
  .queues, .ops, .ports, .out, .outst, .vecBusy, .power]

theorem State.cutOff_keeps {s t : State} (h : Keep failFields s t) (o : OpRec) : Keep failFields s (t.cutOff o) := by
  have hl := Sub.refl failFields
  exact (((h.mapCores _).dropAccesses o.id).modOp o.id _).finish o.id 0x31

theorem State.failed_controlLost (s : State) : s.controlLost.health.failed = true := by
  have hl := Sub.refl failFields
  have hops := ((Keep.refl failFields s.failing).raise pgHealth 16).foldl (as := (s.failing.raise pgHealth 16).ops)
    fun _ o h => State.cutOff_keeps h o
  have hqueues := hops.foldl (as := List.range 16) fun _ q h => h.haltQueue q 0x31
  have hhealth : s.controlLost.health = s.failing.health := by
    rw [State.controlLost_eq]
    exact hqueues.same.same .health (by decide)
  rw [hhealth]
  rfl

/-! ### A fetch for the feeder store (R222) -/

/-- The turn of a staging slot: the round where the cluster fetches in rounds, else none (R163). -/
def State.stagingTurn (s : State) (d : Side) (round : Nat) : Nat := if s.streamed d then round else 0

/-- A FEEDER_FETCH of a part of a line that the tile, or the next one, wants and the feeder store does not hold. -/
structure Run.Wants (r : Run) (s : State) (k : Nat) (sideB scale : Bool) (line idx n round : Nat) (ahead : Bool) :
    Prop where
  run    : s.running k = some r
  awake  : s.asleep (k / 256) = false
  fed    : (r.side sideB).isFed = true
  scaled : scale = true → (r.side sideB).hasScale s = true
  place  : ((r.side sideB).at s scale line idx).isSome = true
  absent : (s.core k).findLine (r.side sideB) scale line idx = none
  target : (r.side sideB).target (s.core k) r.tile scale line idx = some (n, round, ahead)

theorem exec_feederFetch (s : State) (k : Fin 81920) (sideB scale : Bool) (line idx : Nat) (ecc : Ecc) :
    exec (.feederFetch k sideB line (if scale then .scale idx else .element idx) ecc) s =
      .next (s.feederFetch k sideB scale line idx ecc) := by
  cases scale <;> rfl

section Wants

variable {r : Run} {s : State} {k : Nat} {sideB scale : Bool} {line idx n round : Nat} {ahead : Bool}
  (h : r.Wants s k sideB scale line idx n round ahead)
include h

theorem Run.Wants.feederFetch_fetched {codes : List Nat}
    (hf : s.fetched (r.side sideB) scale k 0 ((r.side sideB).fetchRect s n scale line idx) line idx
      (s.stagingTurn (r.side sideB) round) = some codes) (ecc : Ecc) :
    ∃ used, s.feederFetch k sideB scale line idx ecc =
      (s.feed k (r.side sideB) scale ahead ((r.side sideB).fetchRect s n scale line idx) codes used ecc).arrayOn k := by
  obtain ⟨ht, -, -⟩ := State.running_eq_some.1 h.run
  refine ⟨s.usedBytes (r.side sideB) scale k 0 ((r.side sideB).fetchRect s n scale line idx) line idx
    (s.stagingTurn (r.side sideB) round), ?_⟩
  unfold State.stagingTurn at hf ⊢
  unfold State.feederFetch
  simp only [State.beginTile_of_tile ht, h.run, h.target, hf]
  refine if_neg ?_
  have hscaled := h.scaled
  cases scale <;> simp_all [h.fed, h.awake, h.place, h.absent]

theorem Run.Wants.feederFetch_missing
    (hf : s.fetched (r.side sideB) scale k 0 ((r.side sideB).fetchRect s n scale line idx) line idx
      (s.stagingTurn (r.side sideB) round) = none) (ecc : Ecc) :
    s.feederFetch k sideB scale line idx ecc = s.fetchMissing (r.side sideB) scale k 0
      ((r.side sideB).fetchRect s n scale line idx) line idx (s.stagingTurn (r.side sideB) round) := by
  obtain ⟨ht, -, -⟩ := State.running_eq_some.1 h.run
  unfold State.stagingTurn at hf ⊢
  unfold State.feederFetch
  simp only [State.beginTile_of_tile ht, h.run, h.target, hf]
  refine if_neg ?_
  have hscaled := h.scaled
  cases scale <;> simp_all [h.fed, h.awake, h.place, h.absent]

end Wants

/-! ### What the code of the store finds (R393) -/

theorem SMap.getD_foldl_putD (f : Nat → Byte) (pos n : Nat) (m : SMap Byte) {i : Nat} (hi : i < n) :
    SMap.getD ((List.range n).foldl (fun m i => SMap.putD m (pos + i) (f i) 0) m) (pos + i) 0 = f i := by
  induction n with
  | zero => omega
  | succ n ih =>
    rw [List.range_succ, List.foldl_append, List.foldl_cons, List.foldl_nil]
    by_cases hn : i = n
    · subst hn
      exact SMap.getD_putD_same _ _ _ _
    · rw [SMap.getD_putD_other _ _ _ _ (by omega)]
      exact ih (by omega)

/-- The line of the feeder store that holds a rectangle at a place. -/
def Side.feedLine (d : Side) (scale : Bool) (rect : Rect) (pos : Nat) : FeedLine :=
  { op := d.op.id, entry := d.entry.index, sideB := d.sideB, scale := scale, line0 := rect.line0, lines := rect.lines,
    k0 := rect.k0, count := rect.count, pos := pos }

/-- A rectangle that finds room stands in the feeder store with its bytes (R11, R222). -/
theorem Core.load_of_room (c : Core) (d : Side) (scale evict : Bool) (rect : Rect) (codes : List Nat) {pos : Nat}
    {ls : List FeedLine} (hroom : makeRoom d.op d.sideB evict (packCodes (d.width scale) codes).length
      (c.feeder.length + 1) c.feeder = some (pos, ls)) :
    (c.load d scale evict rect codes).feeder = ls ++ [d.feedLine scale rect pos] ∧
    ∀ i, i < (packCodes (d.width scale) codes).length → SMap.getD (c.load d scale evict rect codes).fs (pos + i) 0 =
      ((packCodes (d.width scale) codes)[i]?).getD 0 := by
  unfold Core.load
  simp only [hroom]
  exact ⟨rfl, fun i hi => SMap.getD_foldl_putD (fun i => ((packCodes (d.width scale) codes)[i]?).getD 0) _ _ _ hi⟩

section Feed

variable {s : State} {k : Nat} (hclean : Unarmed s (coreKey k 0)) (d : Side) (scale ahead : Bool) (rect : Rect)
  (codes : List Nat) (used : SMap Byte)
include hclean

theorem State.core_feed_clean : (s.feed k d scale ahead rect codes used .clean).core k =
    ({ s.core k with arrived := used } : Core).load d scale (!ahead) rect codes := by
  have hl := Sub.refl [.power]
  unfold State.feed
  simp only [State.injectWord_of_unarmed hclean, reduceCtorEq, if_false]
  exact (State.core_of_cores ((((Keep.refl [.power] _).active _ _ _ _)).same.same .cores (by decide)) k).trans
    (State.core_setCore_same _ _ _)

theorem State.feed_uncorrectable : s.feed k d scale ahead rect codes used .uncorrectable =
    s.coreLost k (some d.op.id) := by
  simp [State.feed, State.injectWord_of_unarmed hclean]

theorem State.feed_control : s.feed k d scale ahead rect codes used .control = s.controlLost := by
  simp [State.feed, State.injectWord_of_unarmed hclean]

end Feed

section Fetched

variable {r : Run} {s : State} {k : Fin 81920} {sideB scale : Bool} {line idx n round : Nat} {ahead : Bool}
  (h : r.Wants s k sideB scale line idx n round ahead) (hclean : Unarmed s (coreKey k 0)) {codes : List Nat}
  (hf : s.fetched (r.side sideB) scale k 0 ((r.side sideB).fetchRect s n scale line idx) line idx
    (s.stagingTurn (r.side sideB) round) = some codes)
include h hclean hf

/-- Bytes at hand enter the feeder store, and the array leaves them there. -/
theorem Run.Wants.fetch_clean {pos : Nat} {ls : List FeedLine}
    (hroom : makeRoom r.op sideB (!ahead) (packCodes ((r.side sideB).width scale) codes).length
      ((s.core k).feeder.length + 1) (s.core k).feeder = some (pos, ls)) :
    let rect := (r.side sideB).fetchRect s n scale line idx
    let bytes := packCodes ((r.side sideB).width scale) codes
    let x := (s.feederFetch k sideB scale line idx .clean).core k
    x.feeder = ls ++ [(r.side sideB).feedLine scale rect pos] ∧
      ∀ i, i < bytes.length → SMap.getD x.fs (pos + i) 0 = (bytes[i]?).getD 0 := by
  obtain ⟨used, hfetch⟩ := h.feederFetch_fetched hf .clean
  have hwalk := State.arrayOn_walkedTo (s.feed k (r.side sideB) scale ahead
    ((r.side sideB).fetchRect s n scale line idx) codes used .clean) k
  rw [State.core_feed_clean hclean] at hwalk
  obtain ⟨hfeeder, hfs⟩ := Core.load_of_room { s.core k with arrived := used } (r.side sideB) scale (!ahead)
    ((r.side sideB).fetchRect s n scale line idx) codes hroom
  dsimp only
  rw [hfetch, hwalk.eq]
  exact ⟨hfeeder, hfs⟩

/-- An uncorrectable error counts and resets the core (R395, R475). -/
theorem Run.Wants.fetch_uncorrectable :
    let u := s.feederFetch k sideB scale line idx .uncorrectable
    u.reg 0x4C12C = s.reg 0x4C12C + 1 ∧ u.regN 0x1104 = 20 + 256 * k := by
  obtain ⟨used, hfetch⟩ := h.feederFetch_fetched hf .uncorrectable
  dsimp only
  rw [hfetch, State.feed_uncorrectable hclean, State.arrayOn_of_stopped (State.running_coreLost _ _ _)]
  exact ⟨State.reg_coreLost_count _ _ _, State.regN_coreLost_cause _ k.isLt _⟩

/-- An error in control state fails the die (R396). -/
theorem Run.Wants.fetch_control : (s.feederFetch k sideB scale line idx .control).health.failed = true := by
  obtain ⟨used, hfetch⟩ := h.feederFetch_fetched hf .control
  have hhealth : (s.controlLost.arrayOn k).health = s.controlLost.health :=
    (State.arrayOn_keeps s.controlLost k).same.same .health (by decide)
  rw [hfetch, State.feed_control hclean, hhealth]
  exact s.failed_controlLost

end Fetched

/-! ### Transactions that requests leave outstanding (R282, R284) -/

@[simp] theorem State.outst_send (s : State) (t : Txn) : (s.send t).outst = s.outst :=
  (s.send_keep t).same.same .outst (by decide)

theorem State.mem_outst_freeTags {s : State} {y : Outst} (h : y ∈ s.outst) (port vc : Nat) :
    y ∈ (s.freeTags port vc).outst := by
  unfold State.freeTags
  dsimp only
  split
  · split
    · exact h
    · rw [State.outst_send]
      exact List.mem_append_left _ h
  · exact h

theorem State.mem_outst_request {s : State} {y : Outst} (h : y ∈ s.outst) (t : Txn) (why : Purpose) (foreign : Bool) :
    y ∈ (s.request t why foreign).outst := by
  unfold State.request
  dsimp only
  split
  · exact h
  · split
    · rw [State.outst_send]
      exact List.mem_append_left _ h
    · exact State.mem_outst_freeTags (List.mem_append_left _ h) _ _

/-- A transaction issued or held for a tag is outstanding. -/
theorem State.outst_request {s : State} (h : s.mute = false) (t : Txn) (why : Purpose) (foreign : Bool) :
    ∃ y ∈ (s.request t why foreign).outst, y.op = t.op ∧ y.purpose = why ∧ y.addr = t.addr ∧ y.words = t.words := by
  unfold State.request
  simp only [h, Bool.false_eq_true, if_false]
  split
  · rw [State.outst_send]
    exact ⟨_, List.mem_append_right _ (List.mem_singleton_self _), rfl, rfl, rfl, rfl⟩
  · exact ⟨_, State.mem_outst_freeTags (List.mem_append_right _ (List.mem_singleton_self _)) _ _, rfl, rfl, rfl, rfl⟩

theorem State.mute_readMem (s : State) (port stream addr bytes : Nat) (why : Purpose) :
    (s.readMem port stream addr bytes why).mute = s.mute :=
  have hl := Sub.refl [.ports, .out, .outst, .power]
  ((Keep.refl [.ports, .out, .outst, .power] s).readMem port stream addr bytes why).same.same .mute (by decide)

theorem State.mem_outst_readRuns {s : State} {y : Outst} (h : y ∈ s.outst) (port stream : Nat) (why : Purpose)
    (l : List (Nat × Nat)) :
    y ∈ (l.foldl (fun t x => t.readMem port stream (4 * x.1) (4 * x.2) why) s).outst := by
  induction l generalizing s with
  | nil => exact h
  | cons x l ih => exact ih (State.mem_outst_request h _ _ _)

/-- Each of some word runs is read. -/
theorem State.outst_readRuns {s : State} (h : s.mute = false) (port stream : Nat) (why : Purpose)
    {l : List (Nat × Nat)} {x : Nat × Nat} (hx : x ∈ l) :
    ∃ y ∈ (l.foldl (fun t x => t.readMem port stream (4 * x.1) (4 * x.2) why) s).outst,
      y.op = .rd ∧ y.purpose = why ∧ y.addr = 4 * x.1 ∧ y.words = x.2 := by
  induction l generalizing s with
  | nil => cases hx
  | cons z l ih =>
    rcases List.mem_cons.1 hx with rfl | hx
    · obtain ⟨y, hy, hop, hwhy, haddr, hwords⟩ := State.outst_request h
        { port := port, op := .rd, stream := stream, addr := 4 * x.1, words := ceilDiv (4 * x.2) 4 } why false
      refine ⟨y, State.mem_outst_readRuns hy _ _ _ _, hop, hwhy, haddr, hwords.trans ?_⟩
      show (4 * x.2 + 4 - 1) / 4 = x.2
      omega
    · exact ih ((State.mute_readMem ..).trans h) hx

/-- Every byte address lies in a word run that covers the addresses. -/
theorem exists_mem_wordRuns {l : List Nat} {a : Nat} (h : a ∈ l) :
    ∃ x ∈ wordRuns l, 4 * x.1 ≤ a ∧ a < 4 * x.1 + 4 * x.2 := by
  have hcover : (∀ x ∈ wordRuns l, 1 ≤ x.2) ∧ ∀ a ∈ l, ∃ x ∈ wordRuns l, 4 * x.1 ≤ a ∧ a < 4 * x.1 + 4 * x.2 := by
    clear h
    induction l with
    | nil => simp [wordRuns]
    | cons b t ih =>
      obtain ⟨hpos, hmem⟩ := ih
      unfold wordRuns
      dsimp only
      split
      · next x n r he =>
        simp only [he, List.mem_cons, forall_eq_or_imp, exists_eq_or_imp] at hpos hmem ⊢
        split
        · next hx =>
          simp only [List.mem_cons, forall_eq_or_imp, exists_eq_or_imp]
          exact ⟨hpos, .inl ⟨by omega, by omega⟩, hmem⟩
        · split
          · next hx =>
            simp only [List.mem_cons, forall_eq_or_imp, exists_eq_or_imp]
            refine ⟨⟨by omega, hpos.2⟩, .inl ⟨by omega, by omega⟩, fun c hc => (hmem c hc).imp ?_ id⟩
            rintro ⟨hlo, hhi⟩
            exact ⟨by omega, by omega⟩
          · simp only [List.mem_cons, forall_eq_or_imp, exists_eq_or_imp]
            exact ⟨⟨by omega, hpos⟩, .inl ⟨by omega, by omega⟩, fun c hc => .inr (hmem c hc)⟩
      · next he =>
        have ht : t = [] := by
          cases t with
          | nil => rfl
          | cons c t =>
            obtain ⟨x, hx, -⟩ := hmem c List.mem_cons_self
            rw [he] at hx
            cases hx
        subst ht
        simp only [List.mem_singleton, forall_eq, exists_eq_left]
        exact ⟨by omega, by omega, by omega⟩
  exact hcover.2 a h

/-! ### A slot that is not staged (R163, R221) -/

section Record

variable {s : State} {d : Side} {scale : Bool} {line idx turn : Nat}
  (hrec : ∃ b pl pi ex hw nc, d.operand = .record b pl pi ex hw nc)
  (hslot : s.findSlot d scale (d.slotRect scale line idx) turn = none)
include hrec hslot

theorem State.fetchBytes_of_no_slot (rect : Rect) : s.fetchBytes d scale rect line idx turn = none := by
  obtain ⟨b, pl, pi, ex, hw, nc, he⟩ := hrec
  simp [State.fetchBytes, he, hslot]

theorem State.fetched_of_no_slot (k : Nat) (rect : Rect) : s.fetched d scale k 0 rect line idx turn = none := by
  simp [State.fetched, State.fetchBytes_of_no_slot hrec hslot]

theorem State.fetchMissing_of_no_slot (k : Nat) (rect : Rect) : s.fetchMissing d scale k 0 rect line idx turn =
    s.stageSlot d scale (d.slotRect scale line idx) turn := by
  simp [State.fetchMissing, State.fetchBytes_of_no_slot hrec hslot, hslot]

end Record

/-- A fetch whose slot is not staged has it staged (R163). -/
theorem Run.Wants.feederFetch_of_no_slot {r : Run} {s : State} {k : Nat} {sideB scale : Bool} {line idx n round : Nat}
    {ahead : Bool} (h : r.Wants s k sideB scale line idx n round ahead)
    (hrec : ∃ b pl pi ex hw nc, (r.side sideB).operand = .record b pl pi ex hw nc)
    (hslot : s.findSlot (r.side sideB) scale ((r.side sideB).slotRect scale line idx)
      (s.stagingTurn (r.side sideB) round) = none) (ecc : Ecc) :
    s.feederFetch k sideB scale line idx ecc = s.stageSlot (r.side sideB) scale
      ((r.side sideB).slotRect scale line idx) (s.stagingTurn (r.side sideB) round) := by
  rw [h.feederFetch_missing (State.fetched_of_no_slot hrec hslot _ _), State.fetchMissing_of_no_slot hrec hslot]

/-- A byte that is neither staged nor asked for is read (R163). -/
theorem State.stageSlot_reads {s : State} {d : Side} {scale : Bool} {rect : Rect} (turn : Nat) {a : Nat}
    (ha : a ∈ d.bytesOf s scale rect) (hmute : s.mute = false) (hnew : s.stagedByte d.v.cluster d.op.id a = none)
    (hfree : s.staging? d.op.id d.v.cluster a = false) :
    ∃ y ∈ (s.stageSlot d scale rect turn).outst, y.op = .rd ∧ y.purpose = .stage d.op.id d.v.cluster ∧ y.addr ≤ a ∧
      a < y.addr + 4 * y.words := by
  have hmissing : a ∈ (d.bytesOf s scale rect).filter fun a => (s.stagedByte d.v.cluster d.op.id a).isNone :=
    List.mem_filter.2 ⟨ha, by rw [hnew]; rfl⟩
  obtain ⟨x, hx, hlo, hhi⟩ := exists_mem_wordRuns (List.mem_filter.2 ⟨hmissing, by rw [hfree]; rfl⟩ :
    a ∈ ((d.bytesOf s scale rect).filter fun a => (s.stagedByte d.v.cluster d.op.id a).isNone).filter
      fun a => !s.staging? d.op.id d.v.cluster a)
  obtain ⟨y, hy, hop, hwhy, haddr, hwords⟩ := State.outst_readRuns hmute (homePort d.v.cluster)
    (clusterStream d.v.cluster) (.stage d.op.id d.v.cluster) hx
  unfold State.stageSlot
  dsimp only
  rw [if_neg (by simpa using ⟨a, ha, hnew⟩)]
  exact ⟨y, hy, hop, hwhy, by omega, by omega⟩

/-- All bytes staged, the slot is written at its place of the ring (log entry 85). -/
theorem State.stageSlot_writes {s : State} {d : Side} {scale : Bool} {rect : Rect} (turn : Nat)
    (hstaged : ∀ a ∈ d.bytesOf s scale rect, (s.stagedByte d.v.cluster d.op.id a).isSome = true)
    (hcap : s.stageCapacity d.v.cluster ≠ 0) (hpend : ∀ a ∈ s.pendingAccesses d.v.cluster, a.handle.isSome = true) :
    ∃ a ∈ (s.stageSlot d scale rect turn).waiting d.v.cluster, a.kind = .write ∧
      a.dest = .staging (s.nextSlot d.v.cluster) := by
  have hmissing : ((d.bytesOf s scale rect).filter fun a => (s.stagedByte d.v.cluster d.op.id a).isNone) = [] := by
    refine List.filter_eq_nil_iff.2 fun a ha => ?_
    simp [Option.isNone_iff_eq_none, Option.ne_none_iff_isSome.2 (hstaged a ha)]
  have hfree : ¬ (s.pendingAccesses d.v.cluster).any (fun a => a.handle == none &&
      a.bank.val == (s.slotPlace d.v.cluster (s.nextSlot d.v.cluster)).1 &&
      a.row.val == (s.slotPlace d.v.cluster (s.nextSlot d.v.cluster)).2) = true := by
    rw [List.any_eq_true]
    rintro ⟨a, ha, hat⟩
    obtain ⟨h, hh⟩ := Option.isSome_iff_exists.1 (hpend a ha)
    simp [hh] at hat
  unfold State.stageSlot
  simp only [hmissing, List.isEmpty_nil, if_true]
  unfold State.writeSlot
  dsimp only
  rw [if_neg (by simpa [hcap] using hfree), State.waiting_setWaiting_same]
  exact ⟨_, List.mem_append_right _ (List.mem_singleton_self _), rfl, rfl⟩

/-! ### Bytes of a handle that have not arrived (R222, R237; log entry 30) -/

section Handle

variable {s : State} {d : Side} {scale : Bool} {rect : Rect} {h : Nat} {l : Bool} {a : Nat}
  (hop : d.operand = .handle h l) (ha : a ∈ d.bytesOf s scale rect) {k : Nat}
  (hnew : s.arrivedByte k 0 h a = none)
include hop ha hnew

theorem State.fetched_of_not_arrived (line idx turn : Nat) : s.fetched d scale k 0 rect line idx turn = none := by
  have hall : ¬ ((d.bytesOf s scale rect).all fun a => (s.arrivedByte k 0 h a).isSome) = true := by
    rw [List.all_eq_true]
    intro hsome
    have := hsome a ha
    rw [hnew] at this
    cases this
  simp only [State.fetched, State.fetchBytes, hop, Option.bind_some]
  exact if_neg hall

end Handle

theorem State.askFor_waiting {s : State} {o : OpRec} {k h : Nat} (l : List (Nat × Nat)) :
    ∃ z, ((l.foldl (fun t r => if t.readsInFlight k < 8 then t.issueRead o k 0 h r else t) s).waiting (k / 256)) =
      s.waiting (k / 256) ++ z := by
  induction l generalizing s with
  | nil => exact ⟨[], (List.append_nil _).symm⟩
  | cons r l ih =>
    obtain ⟨z, hz⟩ := ih (s := if s.readsInFlight k < 8 then s.issueRead o k 0 h r else s)
    rw [List.foldl_cons, hz]
    split
    · rw [State.issueRead]
      simp only [State.waiting_setWaiting_same, List.append_assoc]
      exact ⟨_, rfl⟩
    · exact ⟨z, rfl⟩

/-- The first missing word run of a handle is read, with a read free. -/
theorem State.fetchHandle_reads {s : State} (o : OpRec) {k h a : Nat} {missing : List Nat} (ha : a ∈ missing)
    (hfree : s.arriving k (arrivedKey 0 h a) = false) (hroom : s.readsInFlight k < 8) :
    ∃ y z, (s.fetchHandle o k 0 h missing).waiting (k / 256) = s.waiting (k / 256) ++ y :: z ∧ y.kind = .read ∧
      y.handle = some h ∧ y.op = some o.id := by
  obtain ⟨x, hx, -⟩ := exists_mem_wordRuns (List.mem_filter.2 ⟨ha, by rw [hfree]; rfl⟩ :
    a ∈ missing.filter fun a => !s.arriving k (arrivedKey 0 h a))
  unfold State.fetchHandle State.askFor
  cases hl : wordRuns (missing.filter fun a => !s.arriving k (arrivedKey 0 h a)) with
  | nil =>
    rw [hl] at hx
    cases hx
  | cons r l =>
    obtain ⟨z, hz⟩ := State.askFor_waiting (s := s.issueRead o k 0 h r) (o := o) (k := k) (h := h) l
    rw [List.foldl_cons, if_pos hroom, hz, State.issueRead]
    simp only [State.waiting_setWaiting_same, List.append_assoc]
    exact ⟨_, z, rfl, rfl, rfl, rfl⟩

theorem State.fetchMissing_of_handle {s : State} {d : Side} {scale : Bool} {rect : Rect} {h : Nat} {l : Bool} {a : Nat}
    (hop : d.operand = .handle h l) (hh : h < 64) (ha : a ∈ d.bytesOf s scale rect) {k : Nat}
    (hnew : s.arrivedByte k 0 h a = none) (hfree : s.arriving k (arrivedKey 0 h a) = false)
    (hroom : s.readsInFlight k < 8) (line idx turn : Nat) :
    ∃ y z, (s.fetchMissing d scale k 0 rect line idx turn).waiting (k / 256) = s.waiting (k / 256) ++ y :: z ∧
      y.kind = .read ∧ y.handle = some h ∧ y.op = some d.op.id := by
  have hmissing : a ∈ (d.bytesOf s scale rect).filter fun a => (s.arrivedByte k 0 h a).isNone :=
    List.mem_filter.2 ⟨ha, by rw [hnew]; rfl⟩
  have hne : h ≠ stagingUse := by unfold stagingUse; omega
  simp only [State.fetchMissing, State.fetchBytes, hop, if_neg hne]
  exact State.fetchHandle_reads d.op hmissing hfree hroom

section Events

variable {s : State} {k : Fin 81920} {r : Run}

/-- TILE_COMPLETE with a slug queue entry or room for one. -/
theorem tileComplete_ends {stop : Bool} (h : s.completeTile k = s.endTile k r.tile stop) :
    (r.tile.entry = true ∨ (s.core k).entries < 4 → exec (.tileComplete k) s = .next (s.setCore k { s.core k with
      tile := some { r.tile with complete := true, stop := stop, entry := true } })) ∧
    (r.tile.entry = false → 4 ≤ (s.core k).entries →
      ∃ u, exec (.tileComplete k) s = .next u ∧ (s.core k).StalledFrom (u.core k)) := by
  constructor
  · intro hroom
    exact congrArg Host.Outcome.next (h.trans (State.endTile_of_room hroom stop))
  · intro hentry hfull
    refine ⟨_, rfl, ?_⟩
    rw [h, State.endTile_of_full hentry hfull]
    exact s.stalledFrom_stall k

/-- SLUG_ENQUEUE of a product tile (R177, R209). -/
theorem slugEnqueue_events (hr : s.running k = some r) (hprod : r.op.desc.isProduct = true)
    (hawake : s.asleep (k / 256) = false) (hfile : ∀ b, r.entry.a ≠ .accFile b) :
    (r.tile.complete = false → exec (.slugEnqueue k) s = .next s) ∧
    (r.tile.complete = true → r.tile.entry = true ∨ (s.core k).entries < 4 →
      ∃ u, exec (.slugEnqueue k) s = .next u ∧ (u.core k).slugs = (s.core k).slugs ++ [r.tile.slug r.op] ∧
        (u.core k).tile = none) ∧
    (r.tile.complete = true → r.tile.entry = false → 4 ≤ (s.core k).entries →
      ∃ u, exec (.slugEnqueue k) s = .next u ∧ (s.core k).StalledFrom (u.core k)) := by
  have heq := State.enqueue_of_running hr hprod hawake
  refine ⟨fun hc => ?_, fun hc hroom => ?_, fun hc hentry hfull => ?_⟩
  · exact congrArg Host.Outcome.next (heq.trans (if_neg (by simp [hc])))
  · exact ⟨_, rfl, State.enqueue_of_complete hr hprod hawake hc hfile hroom⟩
  · refine ⟨_, rfl, ?_⟩
    rw [heq, if_pos hc, if_pos (by simp [hentry, hfull])]
    exact s.stalledFrom_stall k

end Events

/-- Settles O57: each event of the array runs through the lemma of its case, and what the array's further steps keep
(log entries 30, 81, 84 and 85). -/
theorem coresComputeTheirTiles : Obligations.CoresComputeTheirTiles := by
  unfold Obligations.CoresComputeTheirTiles
  refine ⟨?idle, ?running, ?products⟩
  case idle =>
    intro s k sideB line part ecc ht hw i hi
    simp only [List.mem_cons, List.not_mem_nil, or_false] at hi
    rcases hi with rfl | rfl | rfl | rfl | rfl
    · exact feederFetch_of_idle ht hw ..
    · exact passStart_of_idle ht hw
    · exact blockPromotion_of_idle ht
    · exact tileComplete_of_idle ht
    · exact slugEnqueue_of_idle ht hw
  case products =>
    intro eref x y n m e f v
    exact ⟨product_fin_q .., product_nan_left .., product_nan_right .., product_inf_zero ..,
      product_inf_fin eref x y f,
      rfl, rfl⟩
  case running =>
    intro s k r hr hawake hprod
    refine ⟨?fetch, passStart_of_walked hr, ?start, blockPromotion_of_none hr, ?promote, ?complete,
      fun hfile => slugEnqueue_events hr hprod hawake hfile⟩
    case fetch =>
      intro sideB scale line idx n round ahead d fetch turn rect slot cl hclean hfed hscale hplace habsent htarget
      have hwants : r.Wants s k sideB scale line idx n round ahead :=
        ⟨hr, hawake, hfed, hscale, hplace, habsent, htarget⟩
      simp only [fetch, exec_feederFetch]
      refine ⟨fun codes hf => ⟨fun pos ls hroom => ⟨_, rfl, hwants.fetch_clean hclean hf hroom⟩,
          ⟨_, rfl, hwants.fetch_uncorrectable hclean hf⟩, ⟨_, rfl, hwants.fetch_control hclean hf⟩⟩,
        fun hrec hslot => ⟨fun a ha hmute hnew hfree => ⟨_, rfl, ?_⟩, fun hstaged hcap _ hpend => ⟨_, rfl, ?_⟩⟩,
        fun h l a hh hop ha hnew hfree hroom => ⟨_, rfl, ?_⟩⟩
      · rw [hwants.feederFetch_of_no_slot hrec hslot]
        exact State.stageSlot_reads turn ha hmute hnew hfree
      · rw [hwants.feederFetch_of_no_slot hrec hslot]
        exact State.stageSlot_writes turn hstaged hcap hpend
      · rw [hwants.feederFetch_missing (State.fetched_of_not_arrived hop ha hnew _ _ _)]
        exact State.fetchMissing_of_handle hop hh ha hnew hfree hroom _ _ _
    case start =>
      intro regs refs cells d hwalked hidle hvec hbehind hheld hload hrefs hcells
      exact Run.Ready.passStart ⟨hr, hawake, hwalked, hidle, hvec, hbehind, hheld, hload, hrefs, hcells⟩
    case promote =>
      intro x rest hx hnodup hclean hnow takes
      refine ⟨fun htakes hfull => blockPromotion_of_full hr hx hawake hnow htakes hfull, fun hroom => ?_⟩
      obtain ⟨u, hu, t', ht', hentry, hparts, haccs⟩ := blockPromotion_of_room hr hx hawake hnow hclean hroom
      refine ⟨u, hu, t', ht', hentry, hparts, fun q hq => ?_⟩
      rw [haccs]
      exact r.promoted_acc rest hnodup hq
    case complete =>
      intro hw hp hc due ends again
      have hdue : r.rescueDue = true ↔ due := Run.rescueDue_iff
      refine ⟨fun hn => tileComplete_ends (State.completeTile_of_not_due hr hprod hw hp hc (mt hdue.1 hn)),
        fun h h3 => tileComplete_ends (State.completeTile_of_stop hr hprod hw hp hc (hdue.2 h) (.inl h3)),
        fun h h3 => ⟨fun hab ha => ?_, fun hab hb => ?_, fun ha hb =>
          tileComplete_ends (State.completeTile_of_stop hr hprod hw hp hc (hdue.2 h) (.inr ⟨ha, hb⟩))⟩⟩
      · exact congrArg Host.Outcome.next (State.completeTile_of_rerun_a hr hprod hw hp hc (hdue.2 h) h3 hab ha)
      · exact congrArg Host.Outcome.next (State.completeTile_of_rerun_b hr hprod hw hp hc (hdue.2 h) h3 hab hb)

end Sys2Proof.Machine

/-! ## The invariant (O2, O3) -/

namespace Sys2Proof.Machine

theorem Keep.inv {l : List Field} {s t : State} (h : Keep l s t) (hs : Inv s) : Inv t :=
  ⟨h.store hs.store, h.held hs.held⟩

/-- Settles O3: after a reset no byte of the stores is listed and no audit record is held. -/
theorem invariantHoldsAtReset : Obligations.InvariantHoldsAtReset :=
  ⟨rfl, Nat.zero_le 16⟩

/-- Settles O2: an idle period and every command keep the stores' canonical form (log entry 1) and the bound of R459 by
the frame of each. -/
theorem stepKeepsTheInvariant : Obligations.StepKeepsTheInvariant := by
  intro s t hs ht
  cases hq : s.pending with
  | nil =>
    have hidle : step s = .next (tick s) := by rw [step, hq]
    rw [hidle] at ht
    exact Host.Outcome.next.inj ht ▸ (tick_keep s).inv hs
  | cons c rest =>
    obtain ⟨u, hu, hk⟩ := exec_next_keep c { s with pending := rest }
    rw [step_of_pending_cons hq, hu] at ht
    exact Host.Outcome.next.inj ht ▸ hk.inv ⟨hs.store, hs.held⟩

end Sys2Proof.Machine

/-! ## Operations that complete (O56) -/

namespace Sys2Proof.Machine

/-- A compute operation of queue 0 whose last FLUSH is out and whose completion record is due. -/
def flushingOp : OpRec :=
  { id := 0, q := 0, seq := 0, desc := 0, first := 0, count := 0, rescue := false, headAt := 0, jindex := none,
    context := none, endDark := false, entries := [], dimH := 0, dimW := 0, dimC := 0, dimN := 0, chain := [],
    slivers := [], holds := [], named := [], written := [], wrote := [], genIn := 0, genOut := 0, dhash := [],
    inplace := false, streams := [], flags := 0, committed := 0, status := 0, stopped := false, detail := 0,
    result := 0, phase := .flushing 1, kind := .compute, replays := 0, fromJournal := false, writeRecord := true,
    noReplay := false, lostReads := [] }

/-- The FLUSH of its journal entry, which waits for a tag and bears tag 5 all the same. -/
def heldFlush : Outst :=
  { port := 0, op := .flush, tag := 5, stream := 15, addr := 0, words := 1, purpose := .journalFlush 0,
    held := some { port := 0, op := .flush } }

def flushHeldWithTag : State := { State.reset with ops := [flushingOp], outst := [heldFlush] }

/-- A FLACK with tag 5 first sends the held FLUSH under a fresh tag 0, then finds nothing with tag 5: the operation stays
as it is. -/
theorem op_flack_flushHeldWithTag : (flushHeldWithTag.flack 0 5 0).op 0 = some flushingOp := by
  decide +kernel

/-- Refutes O56: the statement speaks of every state, and of the FLUSH that a FLACK names it asks the tag alone, not that
it has been sent. In `flushHeldWithTag` the FLUSH named still waits for a tag (log entry 12), so that its FLACK completes
nothing and the operation stays in flight. No reachable state holds a transaction with a tag below 4096: O55 excludes
held transactions by a hypothesis, and O56 lacks it. -/
theorem not_operationsComplete : ¬ Obligations.OperationsComplete := by
  intro h
  obtain ⟨-, -, -, -, hrecord, -, -⟩ := h flushHeldWithTag 0 flushingOp rfl (by decide)
  obtain ⟨t, ht, hgone, -⟩ := hrecord 0 5 heldFlush 1 rfl (by decide +kernel) rfl rfl rfl (.inr rfl)
  have hst : flushHeldWithTag.flack 0 5 0 = t := Host.Outcome.next.inj ht
  rw [← hst, op_flack_flushHeldWithTag] at hgone
  exact absurd hgone (Option.some_ne_none _)

end Sys2Proof.Machine

/-! ## Banks, tags and windows (O59) -/

namespace Sys2Proof.Machine

/-- An access of operation 0 to row 0 of bank 0, through the compositor's lane. -/
def stagingAccess (kind : AccKind) (dest : Dest) : BankAcc :=
  { lane := 256, op := some 0, bank := 0, row := 0, byte := 0, kind := kind, len := 64, data := [], fmt := 9,
    handle := none, tagMode := 0, timeout := 0, dest := dest }

/-- Cluster 0's bank 0 closes to dark, and a write and a read of a running operation wait for it; the crossbar's map
lists cluster 1 before cluster 0, each once. -/
def closingOutOfOrder : State :=
  { State.reset with
    banks := [(0, .closing true)]
    ops := [{ flushingOp with phase := .running }]
    xbar := [(1, [stagingAccess .read (.arrived 256 0)]),
      (0, [stagingAccess .write (.staging 0), stagingAccess .read (.arrived 0 0)])] }

/-- The close timeout lists the rest of cluster 0 before cluster 1, in front of the old list. The failed write stops the
operation, whose reads are dropped; the new list is empty with that, and the old one, with the write, stands again. -/
theorem write_waits_closeTimeout_closingOutOfOrder :
    stagingAccess .write (.staging 0) ∈ (closingOutOfOrder.closeTimeout 0 0).waiting 0 := by
  decide +kernel

/-- Refutes O59: the statement speaks of every state, and for a close timeout to dark it asks that the crossbar's map
list no cluster twice, not that it list them in order, without which `SMap.put` adds a second list for a cluster
(`closingOutOfOrder`). Every reachable map is in order. -/
theorem not_banksTagsAndWindows : ¬ Obligations.BanksTagsAndWindows := by
  rintro ⟨hbank, -⟩
  obtain ⟨-, -, -, -, -, -, -, -, -, -, -, -, -, hclose, -⟩ := hbank closingOutOfOrder 0 0
  obtain ⟨t, ht, -, hreads, -⟩ := hclose rfl
  have hst : closingOutOfOrder.closeTimeout 0 0 = t := Host.Outcome.next.inj ht
  rw [← hst] at hreads
  have hread := hreads (by decide) _ write_waits_closeTimeout_closingOutOfOrder rfl
  exact absurd hread (by decide)

end Sys2Proof.Machine

/-! ## Responses (O55) -/

namespace Sys2Proof.Machine

/-! ### Byte strings and byte maps -/

theorem length_fitBytes (n : Nat) (d : List Byte) : (fitBytes n d).length = n := by
  induction n generalizing d with
  | zero => rfl
  | succ n ih => cases d <;> simp [fitBytes, ih]

theorem getElem?_fitBytes {n i : Nat} (d : List Byte) (h : i < n) : (fitBytes n d)[i]? = some ((d[i]?).getD 0) := by
  induction n generalizing d i with
  | zero => omega
  | succ n ih =>
    cases i with
    | zero => cases d <;> simp [fitBytes]
    | succ i => cases d <;> simp [fitBytes, ih _ (Nat.lt_of_succ_lt_succ h)]

theorem fitBytes_fitBytes (n : Nat) (d : List Byte) : fitBytes n (fitBytes n d) = fitBytes n d := by
  induction n generalizing d with
  | zero => rfl
  | succ n ih => cases d <;> simp [fitBytes, ih]

theorem SMap.find_putBytes_other (d : List Byte) (m : SMap Byte) {k a : Nat} (h : a < k) :
    SMap.find (putBytes m k d) a = SMap.find m a := by
  induction d generalizing m k with
  | nil => rfl
  | cons b t ih => rw [putBytes, ih _ (by omega), SMap.find_put_other m b (by omega)]

theorem SMap.find_putBytes (d : List Byte) (m : SMap Byte) (k : Nat) {i : Nat} (h : i < d.length) :
    SMap.find (putBytes m k d) (k + i) = d[i]? := by
  induction d generalizing m k i with
  | nil => simp at h
  | cons b t ih =>
    cases i with
    | zero => rw [putBytes, SMap.find_putBytes_other _ _ (by omega)]; simp
    | succ i =>
      rw [putBytes, show k + (i + 1) = k + 1 + i by omega, ih _ _ (Nat.lt_of_succ_lt_succ h)]
      rfl

/-! ### Transactions that are forgotten -/

theorem State.dropOutst_keep (s : State) (x : Outst) : Keep [.ports, .out, .outst, .power] s (s.dropOutst x) :=
  have hl := Sub.refl [.ports, .out, .outst, .power]
  (Keep.refl _ s).dropOutst x

theorem State.op_of_ops {s t : State} (h : t.ops = s.ops) (id : Nat) : t.op id = s.op id := by
  simp only [State.op, h]

theorem State.queue_of_queues {s t : State} (h : t.queues = s.queues) (q : Nat) : t.queue q = s.queue q := by
  simp only [State.queue, h]

theorem State.group_of_groups {s t : State} (h : t.groups = s.groups) (g : Nat) : t.group g = s.group g := by
  simp only [State.group, h]

@[simp] theorem State.regs_dropOutst (s : State) (x : Outst) : (s.dropOutst x).regs = s.regs :=
  (s.dropOutst_keep x).same.same .regs (by decide)

@[simp] theorem State.reg_dropOutst (s : State) (x : Outst) (k : Nat) : (s.dropOutst x).reg k = s.reg k :=
  State.reg_of_regs (s.regs_dropOutst x) k

@[simp] theorem State.regN_dropOutst (s : State) (x : Outst) (k : Nat) : (s.dropOutst x).regN k = s.regN k :=
  congrArg BitVec.toNat (s.reg_dropOutst x k)

@[simp] theorem State.op_dropOutst (s : State) (x : Outst) (id : Nat) : (s.dropOutst x).op id = s.op id :=
  State.op_of_ops ((s.dropOutst_keep x).same.same .ops (by decide)) id

@[simp] theorem State.queue_dropOutst (s : State) (x : Outst) (q : Nat) : (s.dropOutst x).queue q = s.queue q :=
  State.queue_of_queues ((s.dropOutst_keep x).same.same .queues (by decide)) q

@[simp] theorem State.group_dropOutst (s : State) (x : Outst) (g : Nat) : (s.dropOutst x).group g = s.group g :=
  State.group_of_groups ((s.dropOutst_keep x).same.same .groups (by decide)) g

@[simp] theorem State.mute_dropOutst (s : State) (x : Outst) : (s.dropOutst x).mute = s.mute :=
  (s.dropOutst_keep x).same.same .mute (by decide)

@[simp] theorem State.vecBusy_dropOutst (s : State) (x : Outst) : (s.dropOutst x).vecBusy = s.vecBusy :=
  (s.dropOutst_keep x).same.same .vecBusy (by decide)

@[simp] theorem State.nextOp_dropOutst (s : State) (x : Outst) : (s.dropOutst x).nextOp = s.nextOp :=
  (s.dropOutst_keep x).same.same .nextOp (by decide)

/-- With nothing waiting for a tag, tags that become free change nothing (log entry 12). -/
theorem State.sendHeld_of_none_held {s : State} (h : ∀ y ∈ s.outst, y.held = none) (port vc n : Nat) :
    State.sendHeld port vc n s = s := by
  have hnone : (s.outst.find? fun o => o.port == port && o.op.vc == vc && o.held.isSome) = none :=
    List.find?_eq_none.2 fun y hy => by simp [h y hy]
  cases n with
  | zero => rfl
  | succ n => simp only [State.sendHeld, hnone]

theorem State.outst_dropOutst_of_none_held {s : State} (h : ∀ y ∈ s.outst, y.held = none) (x : Outst) :
    (s.dropOutst x).outst = s.outst.filter (· ≠ x) := by
  rw [State.dropOutst, State.sendHeld_of_none_held fun y hy => h y (List.mem_filter.1 hy).1]

/-! ### A response finds its transaction (R282, R288) -/

section Answered
variable {s : State} {port vc tag : Nat} {x : Outst} (hm : s.mute = false) (hx : s.findOutst port vc tag = some x)
  (op : TxnOp) {status : Nat} (ndata : Nat) {want : TxnOp → Bool} (hw : want x.op = true)
  (f : State → Outst → Nat → State)
include hm hx hw

theorem State.answered_listed (hl : statusListed op status = true) :
    s.answered op port vc tag status ndata want f = f (s.dropOutst x) x status := by
  simp only [State.answered, hm, hx, hw, hl, Bool.false_eq_true, Bool.not_true, if_false, if_true]

/-- A STATUS not listed is a protocol error and counts as 10h. -/
theorem State.answered_unlisted (hl : statusListed op status = false) :
    s.answered op port vc tag status ndata want f =
      f ((s.protocolError port 5 (respWords op ndata tag x.stream status s.pos 0xFF)).dropOutst x) x 0x10 := by
  simp only [State.answered, hm, hx, hw, hl, Bool.false_eq_true, Bool.not_true, if_false]

end Answered

section Exec
variable {s : State} {p : Fin 32} {tag : BitVec 12} {x : Outst} {st : Byte} {status : Nat} (hm : s.mute = false)
  (hst : st.toNat = status)
include hm hst

theorem exec_rdr_listed (hx : s.findOutst p 0 tag.toNat = some x) (ho : x.op = .rd)
    (hl : statusListed .rdr status = true) (data : List Byte) :
    exec (.rdr p tag st data) s = .next ((s.dropOutst x).readReturned x status data) := by
  subst hst
  exact congrArg Host.Outcome.next (State.answered_listed hm hx _ _ (by simp [ho]) _ hl)

theorem exec_rdr_unlisted (hx : s.findOutst p 0 tag.toNat = some x) (ho : x.op = .rd)
    (hl : statusListed .rdr status = false) (data : List Byte) :
    exec (.rdr p tag st data) s = .next (((s.protocolError p 5 (respWords .rdr (ceilDiv data.length 64) tag.toNat x.stream
      status s.pos 0xFF)).dropOutst x).readReturned x 0x10 data) := by
  subst hst
  exact congrArg Host.Outcome.next (State.answered_unlisted hm hx _ _ (by simp [ho]) _ hl)

theorem exec_atr_listed (hx : s.findOutst p 0 tag.toNat = some x) (ho : x.op = .atom)
    (hl : statusListed .atr status = true) (data : List Byte) :
    exec (.atr p tag st data) s = .next ((s.dropOutst x).atomicReturned x status) := by
  subst hst
  exact congrArg Host.Outcome.next (State.answered_listed hm hx _ _ (by simp [ho]) _ hl)

theorem exec_wack_listed (hx : s.findOutst p 2 tag.toNat = some x) (ho : x.op = .wwr ∨ x.op = .wwa)
    (hl : statusListed .wack status = true) :
    exec (.wack p tag st) s = .next ((s.dropOutst x).windowAnswered x status) := by
  subst hst
  exact congrArg Host.Outcome.next (State.answered_listed hm hx _ _ (by simpa using ho) _ hl)

theorem exec_mack_listed (hx : s.findOutst p 3 tag.toNat = some x) (ho : x.op = .msg)
    (hl : statusListed .mack status = true) :
    exec (.mack p tag st) s = .next ((s.dropOutst x).messageAnswered x status) := by
  subst hst
  exact congrArg Host.Outcome.next (State.answered_listed hm hx _ _ (by simp [ho]) _ hl)

end Exec

/-! ### Operations that end or fail (R205, R250) -/

theorem State.id_of_op {s : State} {id : Nat} {o : OpRec} (h : s.op id = some o) : o.id = id := by
  simpa using List.find?_some h

theorem State.op_modOp {s : State} {id : Nat} {o u : OpRec} {f : OpRec → OpRec} (ho : s.op id = some o)
    (hf : ∀ p, (f p).id = p.id) (hu : f o = u) : (s.modOp id f).op id = some u := by
  have hkey : ((·.id == id) ∘ fun p : OpRec => if p.id = id then f p else p) = (·.id == id) := by
    funext p
    dsimp only [Function.comp]
    split <;> simp [hf]
  rw [State.op] at ho
  simp only [State.op, State.modOp, List.find?_map, hkey, ho, Option.map_some, State.id_of_op ho, if_true, hu]

/-- An operation whose work ends with a status. -/
def OpRec.finishedWith (o : OpRec) (status : Nat) : OpRec :=
  if o.ended then o else { o with phase := .finished, status := if o.stopped then o.status else status }

theorem OpRec.finishedWith_of_not_ended {o : OpRec} (h : o.ended = false) (status : Nat) :
    o.finishedWith status = { o with phase := .finished, status := if o.stopped then o.status else status } := by
  rw [OpRec.finishedWith, h]
  rfl

theorem OpRec.ended_of_running {o : OpRec} (h : o.phase = .running) : o.ended = false := by
  rw [OpRec.ended, h]

theorem State.op_finish {s : State} {id : Nat} {o : OpRec} (ho : s.op id = some o) (status : Nat) :
    (s.finish id status).op id = some (o.finishedWith status) :=
  State.op_modOp ho (fun p => by split <;> rfl) rfl

theorem State.op_finish_of_not_ended {s : State} {id : Nat} {o : OpRec} (ho : s.op id = some o) (he : o.ended = false)
    (status : Nat) : ∃ u, (s.finish id status).op id = some u ∧ u.phase = .finished ∧
      u.status = if o.stopped then o.status else status := by
  have hend := State.op_finish ho status
  rw [OpRec.finishedWith_of_not_ended he] at hend
  exact ⟨_, hend, rfl, rfl⟩

/-- Settling leaves the operation as it is, or ends it. -/
theorem State.op_settle {s : State} {id : Nat} {o : OpRec} (ho : s.op id = some o) :
    (s.settle id).op id = some o ∨ ∃ status, (s.settle id).op id = some (o.finishedWith status) := by
  simp only [State.settle, ho]
  split
  · exact .inl ho
  · split
    · exact .inr ⟨_, State.op_finish ho _⟩
    · split
      · exact .inr ⟨_, State.op_finish ho _⟩
      · exact .inl ho
    · exact .inl ho

/-- What the record of an operation that has not ended keeps to its end, its status once it is stopped among them. -/
structure OpRec.EndsAs (o u : OpRec) : Prop where
  kind    : u.kind = o.kind
  stopped : u.stopped = o.stopped
  status  : o.stopped = true → u.status = o.status

theorem OpRec.EndsAs.refl (o : OpRec) : o.EndsAs o := ⟨rfl, rfl, fun _ => rfl⟩

theorem OpRec.endsAs_finishedWith (o : OpRec) (status : Nat) : o.EndsAs (o.finishedWith status) := by
  unfold OpRec.finishedWith
  split
  · exact .refl o
  · exact ⟨rfl, rfl, fun h => if_pos h⟩

theorem State.op_settle_endsAs {s : State} {id : Nat} {o : OpRec} (ho : s.op id = some o) :
    ∃ u, (s.settle id).op id = some u ∧ o.EndsAs u := by
  rcases State.op_settle ho with h | ⟨status, h⟩
  · exact ⟨o, h, .refl o⟩
  · exact ⟨_, h, o.endsAs_finishedWith status⟩

/-- A compute operation at work that waits for nothing ends (R205). -/
theorem State.settle_of_compute {s : State} {id : Nat} {o : OpRec} (ho : s.op id = some o) (hk : o.kind = .compute)
    (hp : o.phase = .running) (hcores : s.coresBusy id = false) (hacc : s.accessesOf id = false)
    (hwait : s.waitsFor id = false) : s.settle id = s.finish id o.goodStatus := by
  simp only [State.settle, ho, hp, hcores, hacc, hwait, hk, bne_self_eq_false, Bool.or_self, Bool.false_eq_true, if_false]

/-- An operation that a failure stops with a status. -/
def OpRec.stopWith (o : OpRec) (status : Nat) : OpRec := { o with stopped := true, status := status }

theorem State.op_modOp_stopWith {s : State} {id : Nat} {o : OpRec} (ho : s.op id = some o) (status : Nat) :
    (s.modOp id (·.stopWith status)).op id = some (o.stopWith status) :=
  State.op_modOp ho (fun _ => rfl) rfl

theorem State.op_failWith {s : State} {id : Nat} {o : OpRec} (ho : s.op id = some o) (status : Nat) :
    ∃ u, (s.failWith id status).op id = some u ∧ (o.stopWith status).EndsAs u := by
  have hend : ∃ u, ((s.modOp id (·.stopWith status)).finish id status).op id = some u ∧
      (o.stopWith status).EndsAs u :=
    ⟨_, State.op_finish (State.op_modOp_stopWith ho status) status, OpRec.endsAs_finishedWith _ _⟩
  unfold State.failWith
  split
  · split
    · exact ⟨{ o.stopWith status with phase := .running }, State.op_modOp ho (fun _ => rfl) rfl, ⟨rfl, rfl, fun _ => rfl⟩⟩
    · exact hend
  · exact hend

/-- A failure ends an operation at once, save a securing (R421). -/
theorem State.op_failWith_of_not_secure {s : State} {id : Nat} {o : OpRec} (ho : s.op id = some o)
    (hk : o.kind ≠ .secure) (status : Nat) :
    (s.failWith id status).op id = some ((o.stopWith status).finishedWith status) := by
  have hend := State.op_finish (State.op_modOp_stopWith ho status) status
  unfold State.failWith
  split
  · next h _ =>
    rw [ho, Option.map_some] at h
    exact absurd (Option.some.inj h) hk
  · exact hend

/-- A stopped WINDOW_WRITE sends no further write (R205). -/
def OpKind.cut : OpKind → OpKind
  | .window _ sent acked => .window [] sent acked
  | k => k

/-- An operation that a failure stops at work. -/
def OpRec.cutWith (o : OpRec) (status : Nat) : OpRec := { o.stopWith status with kind := o.kind.cut }

/-- The first failure stops the operation; it settles, or ends at once. -/
theorem State.opFail_cases {s : State} {id : Nat} {o : OpRec} (ho : s.op id = some o) (hs : o.stopped = false)
    (status : Nat) (core : Option Nat) (tile cut : Option (Nat × Nat)) :
    ∃ t : State, t.op id = some (o.cutWith status) ∧
      (s.opFail id status core tile cut = t.settle id ∧ (o.kind = .compute ∨ ∃ a b c, o.kind = .window a b c) ∨
        s.opFail id status core tile cut = t.failWith id status) := by
  have hl := Sub.refl [.regs, .ports, .out, .outst, .vecBusy, .power]
  have hcapture (u : State) (hu : u.op id = some o) : (u.captureStop o core status tile).op id = some o :=
    (State.op_of_ops (((Keep.refl [.regs, .ports, .out, .outst, .vecBusy, .power] u).captureStop o core status
      tile).same.same .ops (by decide)) id).trans hu
  simp only [State.opFail, ho, hs, Bool.false_eq_true, if_false]
  apply Exists.intro
  refine And.symm ⟨?ends, ?op⟩
  case ends =>
    split
    · next h => exact .inl ⟨rfl, .inl h⟩
    · next h => exact .inl ⟨rfl, .inr ⟨_, _, _, h⟩⟩
    · exact .inr rfl
  case op =>
    refine State.op_modOp (State.op_modOp_stopWith (hcapture _ ?_) status) (fun p => by split <;> rfl) ?_
    · exact ho
    · cases hk : o.kind <;> simp only [OpRec.cutWith, OpRec.stopWith, OpKind.cut, hk]

/-- A failure of an operation that no other has stopped. -/
structure OpRec.FailsAs (o u : OpRec) (status : Nat) : Prop where
  stopped : u.stopped = true
  status  : u.status = status
  kind    : u.kind = o.kind.cut

theorem State.op_opFail {s : State} {id : Nat} {o : OpRec} (ho : s.op id = some o) (hs : o.stopped = false)
    (status : Nat) (core : Option Nat) (tile cut : Option (Nat × Nat)) :
    ∃ u, (s.opFail id status core tile cut).op id = some u ∧ o.FailsAs u status := by
  obtain ⟨t, ht, hcase⟩ := State.opFail_cases ho hs status core tile cut
  have hend : ∃ u, (s.opFail id status core tile cut).op id = some u ∧ (o.cutWith status).EndsAs u := by
    rcases hcase with ⟨h, -⟩ | h
    · rw [h]; exact State.op_settle_endsAs ht
    · rw [h]; exact State.op_failWith ht status
  obtain ⟨u, hu, hkind, hstopped, hstatus⟩ := hend
  exact ⟨u, hu, hstopped, hstatus rfl, hkind⟩

/-- A SIGNAL at work that fails ends (R250). -/
theorem State.op_opFail_signal {s : State} {id : Nat} {o : OpRec} {b w : Bool} (ho : s.op id = some o)
    (hs : o.stopped = false) (hk : o.kind = .signal b w) (he : o.ended = false) (status : Nat) :
    ∃ u, (s.opFail id status).op id = some u ∧ u.phase = .finished ∧ u.status = status := by
  obtain ⟨t, ht, ⟨-, hwork⟩ | h⟩ := State.opFail_cases ho hs status none none none
  · simp [hk] at hwork
  · have hfail := State.op_failWith_of_not_secure ht (by simp [OpRec.cutWith, OpKind.cut, hk]) status
    rw [OpRec.finishedWith_of_not_ended (o := (o.cutWith status).stopWith status) he] at hfail
    exact ⟨_, h ▸ hfail, rfl, rfl⟩

/-! ### Registers of the pages of queues and ports -/

theorem pgQueue_aboveVectors {q : Nat} (hq : q < 16) : (pgQueue q).AboveVectors := by
  have hbase : (pgQueue q).base = 0x4000 + q * 0x1000 := rfl
  have hvec : (pgQueue q).vector = q := rfl
  constructor <;> omega

theorem pgPort_aboveVectors (p : Nat) : (pgPort p).AboveVectors := by
  have hbase : (pgPort p).base = 0x20000 + p * 0x1000 := rfl
  have hvec : (pgPort p).vector = 23 := rfl
  constructor <;> omega

theorem not_records_pgPort_queueKey (p : Nat) {q o : Nat} (hq : q < 16) (ho : o < 0x1000) :
    ¬ (pgPort p).records (queueKey q o) := by
  have hbase : (pgPort p).base = 0x20000 + p * 0x1000 := rfl
  have hvec : (pgPort p).vector = 23 := rfl
  unfold Page.records queueKey
  omega

theorem not_records_pgQueue_portKey (p : Nat) {q : Nat} (hq : q < 16) (o : Nat) :
    ¬ (pgQueue q).records (portKey p o) := by
  have hbase : (pgQueue q).base = 0x4000 + q * 0x1000 := rfl
  have hvec : (pgQueue q).vector = q := rfl
  unfold Page.records portKey
  omega

theorem not_records_pgQueue_queueKey {q o : Nat} (hq : q < 16) (ho : 0x4C ≤ o) :
    ¬ (pgQueue q).records (queueKey q o) :=
  Page.not_records_of_le (pgQueue_aboveVectors hq) (Nat.add_le_add_left ho _)

/-- A bit raised stands in the page's INT_STATUS. -/
theorem State.bit_raise_status (s : State) {p : Page} {bits i : Nat} (hp : p.AboveVectors)
    (hb : bit (w32 bits).toNat i = true) : bit ((s.raise p bits).regN (p.base + 0x18)) i = true := by
  rw [State.regN, State.reg_raise_status _ _ hp, BitVec.toNat_or, bit_or, hb, Bool.or_true]

/-- A bit that stands in the page's INT_STATUS stays when others are raised. -/
theorem State.bit_raise_status_of_bit {s : State} {p : Page} {i : Nat} (bits : Nat) (hp : p.AboveVectors)
    (hb : bit (s.regN (p.base + 0x18)) i = true) : bit ((s.raise p bits).regN (p.base + 0x18)) i = true := by
  rw [State.regN] at hb ⊢
  rw [State.reg_raise_status _ _ hp, BitVec.toNat_or, bit_or, hb, Bool.true_or]

abbrev raiseFields : List Field := [.regs, .ports, .out, .outst, .vecBusy, .power]

theorem State.capture_keep (s : State) (p : Page) (cause : Nat) (words : List Word) :
    Keep raiseFields s (s.capture p cause words) :=
  have hl := Sub.refl raiseFields
  (Keep.refl _ s).capture p cause words

theorem State.raise_keep (s : State) (p : Page) (bits : Nat) : Keep raiseFields s (s.raise p bits) :=
  have hl := Sub.refl raiseFields
  (Keep.refl _ s).raise p bits

@[simp] theorem State.nextOp_capture (s : State) (p : Page) (cause : Nat) (words : List Word) :
    (s.capture p cause words).nextOp = s.nextOp :=
  (s.capture_keep p cause words).same.same .nextOp (by decide)

@[simp] theorem State.queue_capture (s : State) (p : Page) (cause : Nat) (words : List Word) (q : Nat) :
    (s.capture p cause words).queue q = s.queue q :=
  State.queue_of_queues ((s.capture_keep p cause words).same.same .queues (by decide)) q

@[simp] theorem State.queue_raise (s : State) (p : Page) (bits q : Nat) : (s.raise p bits).queue q = s.queue q :=
  State.queue_of_queues ((s.raise_keep p bits).same.same .queues (by decide)) q

@[simp] theorem State.group_raise (s : State) (p : Page) (bits g : Nat) : (s.raise p bits).group g = s.group g :=
  State.group_of_groups ((s.raise_keep p bits).same.same .groups (by decide)) g

theorem State.protocolError_keep (s : State) (port cause : Nat) (words : List Word) :
    Keep raiseFields s (s.protocolError port cause words) :=
  have hl := Sub.refl raiseFields
  (Keep.refl _ s).protocolError port cause words

theorem State.reg_protocolError_other (s : State) (port cause : Nat) {words : List Word} (hw : words.length ≤ 5) {k : Nat}
    (h : ¬ (pgPort port).records k) : (s.protocolError port cause words).reg k = s.reg k := by
  rw [State.protocolError, State.reg_raise_other _ _ h, State.reg_capture_other _ _ hw h]

theorem State.bit_protocolError (s : State) (port cause : Nat) (words : List Word) :
    bit ((s.protocolError port cause words).regN (portKey port 0x18)) 4 = true :=
  State.bit_raise_status _ (pgPort_aboveVectors port) (by decide)

/-! ### RDR: a slot of a ring (R346) -/

theorem State.slotRead_ok {s : State} {q : Nat} (hrun : (s.queue q).st = .run) (hread : (s.queue q).reading = true)
    (again : Bool) (x : Outst) (data : List Byte) : s.slotRead q again x 0 data = s.setQueue q { s.queue q with
      reading := false, held := some (BitVec.ofNat 512 (ofLE (fitBytes 64 data))) } := by
  simp [State.slotRead, hrun, hread]

theorem State.slotRead_lost {s : State} {q : Nat} (hrun : (s.queue q).st = .run) (hread : (s.queue q).reading = true)
    (x : Outst) (data : List Byte) : s.slotRead q false x 0xF0 data =
      (s.uncorrected 3 (x.addr % 2 ^ 32) 0 (some (s.reg (queueKey q 0x144)))).readMem (8 + q) 15 x.addr 64
        (.descRead q true) := by
  simp [State.slotRead, hrun, hread]

theorem State.slotRead_failed {s : State} {q status : Nat} (hrun : (s.queue q).st = .run)
    (hread : (s.queue q).reading = true) (h0 : status ≠ 0) (hlost : status ≠ 0xF0) (again : Bool) (x : Outst)
    (data : List Byte) : s.slotRead q again x status data = s.slotFailed q status := by
  simp [State.slotRead, hrun, hread, h0, hlost]

theorem State.mute_uncorrected (s : State) (cause d0 d1 : Nat) (seq : Option Word) :
    (s.uncorrected cause d0 d1 seq).mute = s.mute :=
  have hl := Sub.refl [.regs, .ports, .out, .outst, .vecBusy, .power, .health, .free]
  ((Keep.refl [.regs, .ports, .out, .outst, .vecBusy, .power, .health, .free] s).uncorrected
    cause d0 d1 seq).same.same .mute (by decide)

theorem State.haltQueue_of_run {s : State} {q : Nat} (hrun : (s.queue q).st = .run) (status : Nat) :
    s.haltQueue q status = (s.setQueue q { s.queue q with
      st := .halted, halt := status, held := none, reading := false }).raise (pgQueue q) 4 := by
  simp only [State.haltQueue, hrun]

theorem State.queue_haltQueue {s : State} {q : Nat} (hrun : (s.queue q).st = .run) (status : Nat) :
    (s.haltQueue q status).queue q = { s.queue q with st := .halted, halt := status, held := none, reading := false } := by
  rw [State.haltQueue_of_run hrun, State.queue_raise, State.queue_setQueue_same]

theorem State.reg_haltQueue_other (s : State) (q status : Nat) {k : Nat} (h : ¬ (pgQueue q).records k) :
    (s.haltQueue q status).reg k = s.reg k := by
  unfold State.haltQueue
  dsimp only
  split
  · rw [State.reg_raise_other _ _ h, State.reg_setQueue]
  · rfl

/-- The slot is counted, recorded on the queue's page, and the queue halts. -/
def State.slotPassed (s : State) (q status : Nat) : State :=
  (((s.incReg (queueKey q 0x144)).incReg (queueKey q 0x110)).capture (pgQueue q) 1
    [s.reg (queueKey q 0x144), w32 status]).haltQueue q 0x10

theorem State.reg_slotFailed_other (s : State) {q : Nat} (status : Nat) {k : Nat} (h : ¬ (pgQueue q).records k)
    (hhead : k ≠ queueKey q 0x110) (hseq : k ≠ queueKey q 0x144) : (s.slotFailed q status).reg k = s.reg k := by
  show (s.slotPassed q status).reg k = _
  rw [State.slotPassed, State.reg_haltQueue_other _ _ _ h, State.reg_capture_other _ _ (by simp) h,
    State.reg_incReg_other _ _ hhead, State.reg_incReg_other _ _ hseq]

/-- The operation that completes for a slot that could not be read. -/
def State.slotRecord (s : State) (q id : Nat) : OpRec :=
  { opRecord { q := q, seq := s.reg (queueKey q 0x144), desc := 0, first := 0, count := 0, rescue := false, headAt := 0,
               chain := [], context := none } id false .slot with
    status := 0x10, stopped := true, detail := 0xFFFE, phase := .finished }

theorem State.slotRecord_mem_slotFailed (s : State) (q status : Nat) :
    s.slotRecord q s.nextOp ∈ (s.slotFailed q status).ops := by
  simp only [State.slotFailed, State.nextOp_capture, State.incReg_nextOp, List.mem_append, List.mem_singleton]
  exact .inr rfl

/-- What a ring slot that could not be read leaves: it is passed over, the queue halts, and a completion record for it
is due (R346). -/
structure SlotPassedOver (s t : State) (q : Nat) : Prop where
  head   : t.reg (queueKey q 0x110) = s.reg (queueKey q 0x110) + 1
  seq    : t.reg (queueKey q 0x144) = s.reg (queueKey q 0x144) + 1
  st     : (t.queue q).st = .halted
  halt   : (t.queue q).halt = 0x10
  record : ∃ o ∈ t.ops, o.id = s.nextOp ∧ o.kind = .slot ∧ o.status = 0x10 ∧ o.detail = 0xFFFE ∧
    o.seq = s.reg (queueKey q 0x144)

theorem State.slotFailed_passedOver {s : State} {q : Nat} (hq : q < 16) (hrun : (s.queue q).st = .run) (status : Nat) :
    SlotPassedOver s (s.slotFailed q status) q := by
  have hhead := not_records_pgQueue_queueKey (o := 0x110) hq (by decide)
  have hseq := not_records_pgQueue_queueKey (o := 0x144) hq (by decide)
  have hne : queueKey q 0x110 ≠ queueKey q 0x144 := by unfold queueKey; omega
  have hcaptured : ((((s.incReg (queueKey q 0x144)).incReg (queueKey q 0x110)).capture (pgQueue q) 1
      [s.reg (queueKey q 0x144), w32 status]).queue q).st = .run := by simpa using hrun
  have hst : (s.slotFailed q status).queue q = _ := State.queue_haltQueue hcaptured 0x10
  refine ⟨?_, ?_, by rw [hst], by rw [hst], _, s.slotRecord_mem_slotFailed q status, rfl, rfl, rfl, rfl, rfl⟩
  · show (s.slotPassed q status).reg _ = _
    rw [State.slotPassed, State.reg_haltQueue_other _ _ _ hhead, State.reg_capture_other _ _ (by simp) hhead,
      State.reg_incReg_same, State.reg_incReg_other _ _ hne]
    rfl
  · show (s.slotPassed q status).reg _ = _
    rw [State.slotPassed, State.reg_haltQueue_other _ _ _ hseq, State.reg_capture_other _ _ (by simp) hseq,
      State.reg_incReg_other _ _ hne.symm, State.reg_incReg_same]
    rfl

/-- It is the same to pass a slot over from a state that has the queue's registers and the next serial number. -/
theorem SlotPassedOver.of_same {s u t : State} {q : Nat} (h : SlotPassedOver u t q)
    (hreg : ∀ o, 0x4C ≤ o → o < 0x1000 → u.reg (queueKey q o) = s.reg (queueKey q o)) (hnext : u.nextOp = s.nextOp) :
    SlotPassedOver s t q := by
  obtain ⟨hhead, hseq, hst, hhalt, hrecord⟩ := h
  rw [hreg _ (by decide) (by decide)] at hhead hseq
  rw [hreg _ (by decide) (by decide), hnext] at hrecord
  exact ⟨hhead, hseq, hst, hhalt, hrecord⟩

/-! ### RDR: staged bytes (R163) -/

theorem State.injectPath_of_unarmed {s : State} {base : Nat} (h : Unarmed s base) (place : Nat) (ecc : Ecc) :
    s.injectPath base place ecc = (s, ecc) := by
  have hi : s.injects base 3 place = false := by
    have hw : bit (s.regN (base + 0xF10)) 31 = false := h
    simp [State.injects, hw]
  cases ecc <;> simp [State.injectPath, hi]

theorem State.meshStaged_of_unarmed {s : State} (h : Unarmed s 0) (c id addr : Nat) (d : List Byte) :
    s.meshStaged c id addr d = s.putStaged c id addr d := by
  simp only [State.meshStaged, State.injectPath_of_unarmed h]

theorem State.stagedByte_putStaged (s : State) (c id addr : Nat) {d : List Byte} {i : Nat} (h : i < d.length) :
    (s.putStaged c id addr d).stagedByte c id (addr + i) = d[i]? := by
  have hkey : stageKey id (addr + i) = stageKey id addr + i := (Nat.add_assoc ..).symm
  rw [State.stagedByte, State.putStaged, State.stageOf_setStage_same, hkey]
  exact SMap.find_putBytes d _ _ h

theorem State.wants_of_ops {s t : State} (h : t.ops = s.ops) (id : Nat) : t.wants id = s.wants id := by
  simp only [State.wants, State.op_of_ops h]

/-! ### Messages and FLUSHes that leave -/

/-- A transaction issued or held for a tag is outstanding at its port. -/
theorem State.outst_request_port {s : State} (h : s.mute = false) (t : Txn) (why : Purpose) (foreign : Bool) :
    ∃ y ∈ (s.request t why foreign).outst, y.purpose = why ∧ y.op = t.op ∧ y.port = t.port ∧ y.addr = t.addr := by
  unfold State.request
  simp only [h, Bool.false_eq_true, if_false]
  split
  · rw [State.outst_send]
    exact ⟨_, List.mem_append_right _ (List.mem_singleton_self _), rfl, rfl, rfl, rfl⟩
  · exact ⟨_, State.mem_outst_freeTags (List.mem_append_right _ (List.mem_singleton_self _)) _ _, rfl, rfl, rfl, rfl⟩

/-- A vector whose PEND is set and MASK is not sends again (R331). -/
theorem State.vectorResend_pending {s : State} {v : Nat} (hm : s.mute = false) (hfree : setHas s.vecBusy v = false)
    (hpend : bit (s.regN (0x20C + 16 * v)) 1 = true) (hmask : bit (s.regN (0x20C + 16 * v)) 0 = false) :
    s.vectorResend v = ({ s.setRegF (0x20C + 16 * v) 1 1 0 with vecBusy := setIns s.vecBusy v } : State).flush
      (vectorPort v) 15 (.vectorFlush v) := by
  have hmask' : bit ((s.setRegF (0x20C + 16 * v) 1 1 0).regN (0x20C + 16 * v)) 0 = false := by
    rw [State.bit_setRegF_other _ _ (by decide) (by decide), hmask]
  simp only [State.vectorResend, State.vectorSend, hm, hfree, hpend, hmask, hmask', State.setRegF_mute,
    State.setRegF_vecBusy, Bool.not_false, Bool.and_self, Bool.or_self, if_true, Bool.false_eq_true, if_false]

theorem State.vectorResend_idle {s : State} {v : Nat} (hpend : bit (s.regN (0x20C + 16 * v)) 1 = false) :
    s.vectorResend v = s := by
  simp only [State.vectorResend, hpend, Bool.false_and, Bool.false_eq_true, if_false]

theorem State.flush_keep (s : State) (port stream : Nat) (why : Purpose) :
    Keep [.ports, .out, .outst, .power] s (s.flush port stream why) :=
  have hl := Sub.refl [.ports, .out, .outst, .power]
  (Keep.refl _ s).flush port stream why

/-! ### FLACK (R291, R292) -/

theorem mem_of_mem_coveredOut {x y : Outst} {l : List Outst} (h : y ∈ coveredOut x l) : y ∈ l := by
  rcases List.mem_append.1 h with h | h
  · exact (List.takeWhile_sublist _).subset (List.mem_filter.1 h).1
  · exact (List.dropWhile_sublist _).subset h

/-- What stands before the FLUSH found does not answer its FLACK, so that it is still found once writes before it are let
go of. -/
theorem find?_coveredOut {P : Outst → Bool} {x : Outst} {l : List Outst} (h : l.find? P = some x) :
    (coveredOut x l).find? P = some x := by
  obtain ⟨hx, as, bs, rfl, has⟩ := List.find?_eq_some_iff_append.1 h
  have hne : ∀ a ∈ as, a ≠ x := fun a ha he => by
    have := has a ha
    rw [he, hx] at this
    cases this
  have htake : (as ++ x :: bs).takeWhile (· ≠ x) = as := by
    rw [List.takeWhile_append_of_pos (by simpa using hne)]; simp
  have hdrop : (as ++ x :: bs).dropWhile (· ≠ x) = x :: bs := by
    rw [List.dropWhile_append_of_pos (by simpa using hne)]; simp
  rw [coveredOut, htake, hdrop, List.find?_append, List.find?_eq_none.2, Option.none_or, List.find?_cons_of_pos hx]
  intro a ha
  simpa using has a (List.mem_filter.1 ha).1

/-- The die once the writes that a FLUSH covers are let go of. -/
def State.uncovered (s : State) (x : Outst) : State := { s with outst := coveredOut x s.outst }

section Flack
variable {s : State} {p : Fin 32} {tag : BitVec 12} {x : Outst} (hm : s.mute = false)
  (hheld : ∀ y ∈ s.outst, y.held = none)
include hheld

theorem State.uncovered_none_held : ∀ y ∈ (s.uncovered x).outst, y.held = none :=
  fun y hy => hheld y (mem_of_mem_coveredOut hy)

include hm

theorem exec_flack_ok (hx : s.findOutst p 0 tag.toNat = some x) (ho : x.op = .flush) :
    exec (.flack p tag 0) s = .next (((s.uncovered x).dropOutst x).flushReturned x 0) := by
  have hflush : (x.op == TxnOp.flush && !s.mute) = true := by rw [ho, hm]; rfl
  have hsend := State.sendHeld_of_none_held (State.uncovered_none_held (x := x) hheld) p 0 s.outst.length
  have hstep : s.flack p tag.toNat 0 = (s.uncovered x).answered .flack p 0 tag.toNat 0 0 (· == TxnOp.flush)
      State.flushReturned := by
    simp only [State.flack, hx, hflush, if_true]
    exact congrArg (fun u : State => u.answered .flack p 0 tag.toNat 0 0 (· == TxnOp.flush) State.flushReturned) hsend
  refine congrArg Host.Outcome.next (hstep.trans (State.answered_listed (s := s.uncovered x) hm ?_ _ _ (by simp [ho]) _ rfl))
  exact find?_coveredOut hx

end Flack

/-! ### HUBERR (R290) -/

/-- What an operation adds to the outstanding transactions is FLUSHes alone. -/
def State.AddsFlushes (s t : State) : Prop := ∃ l, t.outst = s.outst ++ l ∧ ∀ y ∈ l, y.op = .flush

theorem State.AddsFlushes.refl (s : State) : s.AddsFlushes s := ⟨[], by simp, by simp⟩

theorem State.AddsFlushes.trans {s t u : State} (h : s.AddsFlushes t) (g : t.AddsFlushes u) : s.AddsFlushes u := by
  obtain ⟨a, ha, hfa⟩ := h
  obtain ⟨b, hb, hfb⟩ := g
  refine ⟨a ++ b, by rw [hb, ha, List.append_assoc], fun y hy => ?_⟩
  rcases List.mem_append.1 hy with hy | hy
  · exact hfa y hy
  · exact hfb y hy

theorem State.addsFlushes_freeTags (s : State) (port vc : Nat) : s.AddsFlushes (s.freeTags port vc) := by
  unfold State.freeTags
  dsimp only
  split
  · split
    · exact .refl s
    · exact ⟨[_], State.outst_send _ _, by simp⟩
  · exact .refl s

theorem State.addsFlushes_flush (s : State) (port stream : Nat) (why : Purpose) :
    s.AddsFlushes (s.flush port stream why) := by
  unfold State.flush State.request
  split
  · exact .refl s
  · dsimp only
    split
    · exact ⟨[_], State.outst_send _ _, by simp⟩
    · exact State.AddsFlushes.trans ⟨[_], rfl, by simp⟩ (State.addsFlushes_freeTags _ _ _)

theorem State.addsFlushes_vectorSend (s : State) (v : Nat) : s.AddsFlushes (s.vectorSend v) := by
  unfold State.vectorSend
  dsimp only
  split
  · exact .refl s
  · exact State.addsFlushes_flush { s with vecBusy := setIns s.vecBusy v } _ _ _

theorem State.addsFlushes_raise (s : State) (p : Page) (bits : Nat) : s.AddsFlushes (s.raise p bits) := by
  have hu (b : Bool) : s.AddsFlushes (if b then (s.orReg (p.base + 0x18) bits).vectorSend p.vector
      else s.orReg (p.base + 0x18) bits) := by
    cases b
    · exact .refl s
    · exact State.addsFlushes_vectorSend (s.orReg (p.base + 0x18) bits) _
  unfold State.raise
  dsimp only
  split
  · exact (hu _).trans (State.addsFlushes_vectorSend _ _)
  · exact hu _

theorem State.addsFlushes_capture (s : State) (p : Page) (cause : Nat) (words : List Word) :
    s.AddsFlushes (s.capture p cause words) := by
  have hwords (u : State) (key : Nat) (ws : List Word) : (u.putWords key ws).outst = u.outst :=
    have hl := Sub.refl [.regs]
    (Keep.putWords hl (Keep.refl [.regs] u) key ws).same.same .outst (by decide)
  unfold State.capture
  dsimp only
  split
  · exact .refl s
  · refine State.AddsFlushes.trans ⟨[], ?_, by simp⟩ (State.addsFlushes_raise _ _ _)
    rw [List.append_nil, State.setReg_outst, hwords, State.setReg_outst]

theorem State.AddsFlushes.findPosted {s t : State} (h : s.AddsFlushes t) (port tag stream addr : Nat) :
    t.findPosted port tag stream addr = s.findPosted port tag stream addr := by
  obtain ⟨l, hl, hf⟩ := h
  rw [State.findPosted, State.findPosted, hl, List.find?_append, List.find?_eq_none (l := l) |>.2, Option.or_none]
  intro y hy
  simp [Outst.posted, hf y hy]

/-- The header of a HUBERR is recorded at its port (R290, R297). -/
def State.hubRecorded (s : State) (port : Nat) (h : HdrWords) : State :=
  (s.capture (pgPort port) 1 (HdrWordsList h)).raise (pgPort port) 8

theorem State.hubRecorded_keep (s : State) (port : Nat) (h : HdrWords) : Keep raiseFields s (s.hubRecorded port h) :=
  (s.capture_keep _ _ _).trans (State.raise_keep _ _ _)

theorem State.findPosted_hubRecorded (s : State) (port : Nat) (h : HdrWords) (p tag stream addr : Nat) :
    (s.hubRecorded port h).findPosted p tag stream addr = s.findPosted p tag stream addr :=
  ((s.addsFlushes_capture _ _ _).trans (State.addsFlushes_raise _ _ _)).findPosted p tag stream addr

section Huberr
variable {s : State} (hm : s.mute = false) (p : Fin 32) (h : HdrWords)
include hm

theorem exec_huberr_unknown (hz : s.findPosted p (fld h.w0.toNat 16 12) (fld h.w0.toNat 28 4)
      (h.w1.toNat + fld h.w2.toNat 0 20 * 2 ^ 32) = none) :
    exec (.huberr p h) s = .next (s.hubRecorded p h) := by
  refine congrArg Host.Outcome.next ?_
  rw [← State.findPosted_hubRecorded s p h] at hz
  simp only [State.huberr, hm, Bool.false_eq_true, if_false]
  rw [State.hubRecorded] at hz
  rw [hz]
  rfl

theorem exec_huberr_found {z : Outst} (hz : s.findPosted p (fld h.w0.toNat 16 12) (fld h.w0.toNat 28 4)
      (h.w1.toNat + fld h.w2.toNat 0 20 * 2 ^ 32) = some z) :
    exec (.huberr p h) s = .next (((s.hubRecorded p h).dropOutst z).writeFailed z (fld h.w3.toNat 8 8)) := by
  refine congrArg Host.Outcome.next ?_
  rw [← State.findPosted_hubRecorded s p h] at hz
  simp only [State.huberr, hm, Bool.false_eq_true, if_false]
  rw [State.hubRecorded] at hz
  rw [hz]
  rfl

end Huberr

/-! ### What each response ends -/

section Read
variable {s : State} {p : Fin 32} {tag : BitVec 12} {x : Outst} (hm : s.mute = false)
  (hx : s.findOutst p 0 tag.toNat = some x) (hop : x.op = .rd) (data : List Byte)
include hm hx hop

section Slot
variable {q : Nat} {again : Bool} (hwhy : x.purpose = .descRead q again) (hrun : (s.queue q).st = .run)
  (hread : (s.queue q).reading = true)
include hwhy hrun hread

/-- A queue gets its descriptor. -/
theorem rdr_slot_ok (hwords : x.words = 16) :
    ∃ t, exec (.rdr p tag 0 data) s = .next t ∧ t.queue q = { s.queue q with
      reading := false, held := some (BitVec.ofNat 512 (ofLE (fitBytes 64 data))) } := by
  refine ⟨_, exec_rdr_listed (status := 0) hm rfl hx hop rfl data, ?_⟩
  rw [State.readReturned, hwhy, hwords]
  dsimp only
  rw [State.slotRead_ok (by simpa using hrun) (by simpa using hread), State.queue_setQueue_same, State.queue_dropOutst,
    fitBytes_fitBytes]

/-- After the first F0h the slot is read again. -/
theorem rdr_slot_lost (hfirst : again = false) :
    ∃ t, exec (.rdr p tag 0xF0 data) s = .next t ∧ ∃ y ∈ t.outst, y.purpose = .descRead q true ∧ y.addr = x.addr := by
  refine ⟨_, exec_rdr_listed (status := 0xF0) hm rfl hx hop rfl data, ?_⟩
  rw [State.readReturned, hwhy, hfirst]
  dsimp only
  rw [State.slotRead_lost (by simpa using hrun) (by simpa using hread)]
  have hmute := (State.mute_uncorrected (s.dropOutst x) 3 (x.addr % 2 ^ 32) 0
    (some ((s.dropOutst x).reg (queueKey q 0x144)))).trans ((State.mute_dropOutst s x).trans hm)
  obtain ⟨y, hy, hpurpose, -, -, haddr⟩ := State.outst_request_port hmute
    { port := 8 + q, op := .rd, stream := 15, addr := x.addr, words := ceilDiv 64 4 } (.descRead q true) false
  exact ⟨y, hy, hpurpose, haddr⟩

/-- A read of a slot that fails passes the slot over; a STATUS not listed counts as 10h and is a protocol error. -/
theorem rdr_slot_failed (hq : q < 16) {st : Byte} (h0 : st ≠ 0) (hlost : st ≠ 0xF0) :
    ∃ t, exec (.rdr p tag st data) s = .next t ∧ SlotPassedOver s t q ∧
      (st ≠ 0x10 → bit (t.regN (portKey p 0x18)) 4 = true) := by
  by_cases h10 : st = 0x10
  · refine ⟨_, exec_rdr_listed (status := 0x10) hm (congrArg BitVec.toNat h10) hx hop rfl data, ?_,
      fun h => absurd h10 h⟩
    rw [State.readReturned, hwhy]
    dsimp only
    rw [State.slotRead_failed (by simpa using hrun) (by simpa using hread) (by decide) (by decide)]
    exact (State.slotFailed_passedOver hq (by simpa using hrun) _).of_same (fun _ _ _ => State.reg_dropOutst ..)
      (State.nextOp_dropOutst ..)
  · have hne {n : Byte} (h : st ≠ n) : st.toNat ≠ n.toNat := fun he => h (BitVec.eq_of_toNat_eq he)
    have hl : statusListed .rdr st.toNat = false := by
      have hne0 : st.toNat ≠ 0 := hne h0
      have hne10 : st.toNat ≠ 0x10 := hne h10
      have hneF0 : st.toNat ≠ 0xF0 := hne hlost
      simp [statusListed, hne0, hne10, hneF0]
    refine ⟨_, exec_rdr_unlisted hm rfl hx hop hl data, ?_⟩
    rw [State.readReturned, hwhy]
    dsimp only
    generalize hwords : respWords .rdr (ceilDiv data.length 64) tag.toNat x.stream st.toNat s.pos 0xFF = words
    have hlen : words.length ≤ 5 := by rw [← hwords]; rfl
    have hqueue : ((s.protocolError p 5 words).dropOutst x).queue q = s.queue q := by
      rw [State.queue_dropOutst]
      exact State.queue_of_queues ((s.protocolError_keep p 5 words).same.same .queues (by decide)) q
    rw [State.slotRead_failed (by rw [hqueue, hrun]) (by rw [hqueue, hread]) (by decide) (by decide)]
    refine ⟨(State.slotFailed_passedOver hq (by rw [hqueue, hrun]) _).of_same (fun o _ ho => ?_) ?_, fun _ => ?_⟩
    · rw [State.reg_dropOutst, State.reg_protocolError_other _ _ _ hlen (not_records_pgPort_queueKey p hq ho)]
    · rw [State.nextOp_dropOutst]
      exact (s.protocolError_keep p 5 words).same.same .nextOp (by decide)
    · have hbit := s.bit_protocolError p 5 words
      rw [State.regN, State.reg_slotFailed_other _ _ (not_records_pgQueue_portKey p hq 0x18)
        (by unfold portKey queueKey; omega) (by unfold portKey queueKey; omega), State.reg_dropOutst]
      exact hbit

end Slot

/-- A cluster gets its staged bytes. -/
theorem rdr_staged {id c : Nat} (hwhy : x.purpose = .stage id c) (hwants : s.wants id = true) (hclean : Unarmed s 0) :
    ∃ t, exec (.rdr p tag 0 data) s = .next t ∧
      ∀ i, i < 4 * x.words → t.stagedByte c id (x.addr + i) = some ((data[i]?).getD 0) := by
  refine ⟨_, exec_rdr_listed (status := 0) hm rfl hx hop rfl data, fun i hi => ?_⟩
  have hwants' : (s.dropOutst x).wants id = true :=
    (State.wants_of_ops ((s.dropOutst_keep x).same.same .ops (by decide)) id).trans hwants
  have hclean' : Unarmed (s.dropOutst x) 0 := by
    rw [Unarmed, State.regN_dropOutst]; exact hclean
  simp only [State.readReturned, hwhy, hwants', Bool.not_true, Bool.false_eq_true, if_false, if_true]
  rw [State.meshStaged_of_unarmed hclean', State.stagedByte_putStaged _ _ _ _ (by rw [length_fitBytes]; exact hi),
    getElem?_fitBytes _ hi]

end Read

section Atomic
variable {s : State} {p : Fin 32} {tag : BitVec 12} {x : Outst} (hm : s.mute = false)
  (hx : s.findOutst p 0 tag.toNat = some x) (hop : x.op = .atom) (data : List Byte) {id : Nat}
  (hwhy : x.purpose = .atomic id)
include hm hx hop hwhy

theorem atr_unknown (ho : s.op id = none) : exec (.atr p tag 0 data) s = .next (s.dropOutst x) := by
  rw [exec_atr_listed (status := 0) hm rfl hx hop rfl data]
  simp only [State.atomicReturned, hwhy, if_true, State.settle, State.op_dropOutst, ho]

/-- A compute operation that waits for nothing else ends. -/
theorem atr_ok {o : OpRec} (ho : s.op id = some o) (hk : o.kind = .compute) (hp : o.phase = .running)
    (hcores : s.coresBusy id = false) (hacc : s.accessesOf id = false) (hwait : (s.dropOutst x).waitsFor id = false) :
    ∃ t u, exec (.atr p tag 0 data) s = .next t ∧ t.op id = some u ∧ u.phase = .finished ∧
      u.status = if o.stopped then o.status else o.goodStatus := by
  have ho' : (s.dropOutst x).op id = some o := by rw [State.op_dropOutst, ho]
  have hkeep := s.dropOutst_keep x
  have hcores' : (s.dropOutst x).coresBusy id = false := by
    rw [State.coresBusy, hkeep.same.same .cores (by decide)]; exact hcores
  have hacc' : (s.dropOutst x).accessesOf id = false := by
    rw [State.accessesOf, hkeep.same.same .xbar (by decide), hkeep.same.same .parked (by decide)]; exact hacc
  obtain ⟨u, hu, hends⟩ := State.op_finish_of_not_ended ho' (OpRec.ended_of_running hp) o.goodStatus
  refine ⟨_, u, exec_atr_listed (status := 0) hm rfl hx hop rfl data, ?_, hends⟩
  simp only [State.atomicReturned, hwhy, if_true]
  rw [State.settle_of_compute ho' hk hp hcores' hacc' hwait]
  exact hu

/-- A STATUS of 10h stops the operation. -/
theorem atr_failed {o : OpRec} (ho : s.op id = some o) (hs : o.stopped = false) :
    ∃ t u, exec (.atr p tag 0x10 data) s = .next t ∧ t.op id = some u ∧ u.stopped = true ∧ u.status = 0x10 := by
  obtain ⟨u, hu, hfail⟩ :=
    State.op_opFail (s := s.dropOutst x) (id := id) (by rw [State.op_dropOutst, ho]) hs 0x10 none none none
  refine ⟨_, u, exec_atr_listed (status := 0x10) hm rfl hx hop rfl data, ?_, hfail.stopped, hfail.status⟩
  rw [State.atomicReturned, hwhy]
  exact hu

end Atomic

/-- A window write answered is taken from those sent, to those acknowledged if it succeeded; then the operation settles or
fails. -/
theorem State.windowAnswered_cases {s : State} {x : Outst} {id c off : Nat} {o : OpRec}
    {todo sent acked : List (Nat × Nat)} (hwhy : x.purpose = .windowWrite id c off) (ho : s.op id = some o)
    (hk : o.kind = .window todo sent acked) (status : Nat) : ∃ t : State,
      t.op id = some { o with
        kind := .window todo (sent.filter (· ≠ (c, off))) (if status = 0 then acked ++ [(c, off)] else acked) } ∧
      s.windowAnswered x status = if status = 0 then t.settle id else t.opFail id status := by
  simp only [State.windowAnswered, hwhy]
  apply Exists.intro
  exact And.symm ⟨rfl, State.op_modOp ho (fun p => by split <;> rfl) (by simp only [hk])⟩

@[simp] theorem State.group_failWith (s : State) (id status g : Nat) : (s.failWith id status).group g = s.group g :=
  have hl := Sub.refl [.ops, .securing]
  State.group_of_groups (((Keep.refl [.ops, .securing] s).failWith id status).same.same .groups (by decide)) g

/-- A verdict with a mask is DISCORD (R432). -/
theorem State.group_groupVerdict_discord {s : State} {gi mask : Nat} (h : mask ≠ 0) :
    (s.groupVerdict gi mask).group gi = { s.group gi with st := .discord, mask := mask } := by
  have hraised : (((s.setGroup gi { s.group gi with st := .discord, mask := mask }).raise pgGroup 2).group gi) =
      { s.group gi with st := .discord, mask := mask } := by
    rw [State.group_raise, State.group_setGroup_same]
  simp only [State.groupVerdict, h, if_false]
  split
  · rw [State.group_failWith, hraised]
  · exact hraised

section Window
variable {s : State} {p : Fin 32} {tag : BitVec 12} {x : Outst} (hm : s.mute = false)
  (hx : s.findOutst p 2 tag.toNat = some x) (hop : x.op = .wwr ∨ x.op = .wwa)
include hm hx hop

section Write
variable {id c off : Nat} {o : OpRec} {todo sent acked : List (Nat × Nat)} (hwhy : x.purpose = .windowWrite id c off)
  (ho : s.op id = some o) (hk : o.kind = .window todo sent acked)
include hwhy ho hk

theorem wack_ok : ∃ t u, exec (.wack p tag 0) s = .next t ∧ t.op id = some u ∧
    u.kind = .window todo (sent.filter (· ≠ (c, off))) (acked ++ [(c, off)]) := by
  have ho' : (s.dropOutst x).op id = some o := by rw [State.op_dropOutst, ho]
  obtain ⟨t, ht, heq⟩ := State.windowAnswered_cases hwhy ho' hk 0
  obtain ⟨u, hu, hends⟩ := State.op_settle_endsAs ht
  refine ⟨_, u, exec_wack_listed (status := 0) hm rfl hx hop rfl, ?_, hends.kind⟩
  rw [heq]
  exact hu

theorem wack_failed (hs : o.stopped = false) {st : Byte} (h0 : st.toNat ≠ 0) (hl : statusListed .wack st.toNat = true) :
    ∃ t u, exec (.wack p tag st) s = .next t ∧ t.op id = some u ∧ u.status = st.toNat ∧ u.stopped = true ∧
      u.kind = .window [] (sent.filter (· ≠ (c, off))) acked := by
  have ho' : (s.dropOutst x).op id = some o := by rw [State.op_dropOutst, ho]
  obtain ⟨t, ht, heq⟩ := State.windowAnswered_cases hwhy ho' hk st.toNat
  rw [if_neg h0] at ht heq
  obtain ⟨u, hu, hfail⟩ := State.op_opFail ht hs st.toNat none none none
  refine ⟨_, u, exec_wack_listed hm rfl hx hop hl, ?_, hfail.status, hfail.stopped, hfail.kind⟩
  rw [heq]
  exact hu

end Write

/-- A refused concord record makes the exchange DISCORD (R431, R432). -/
theorem wack_concord {g m round : Nat} (hwhy : x.purpose = .concord g m round)
    (hst : (s.group g).st = .forming ∨ (s.group g).st = .fencing) (hround : round / 2 = (s.group g).exchange) :
    ∃ t, exec (.wack p tag 0x21) s = .next t ∧ (t.group g).st = .discord ∧
      (t.group g).mask = (s.group g).mask ||| 64 := by
  refine ⟨_, exec_wack_listed (status := 0x21) hm rfl hx hop rfl, ?_⟩
  have hgoes : (((s.dropOutst x).group g).st == .forming || ((s.dropOutst x).group g).st == .fencing) = true := by
    simpa using hst
  have hnow : (round / 2 == ((s.dropOutst x).group g).exchange) = true := by simp [hround]
  simp only [State.windowAnswered, hwhy, State.concordRefused, hgoes, hnow, Bool.and_self, if_true, OfNat.ofNat_ne_zero,
    Nat.reduceEqDiff, or_self, if_false]
  rw [State.group_groupVerdict_discord (by simp), State.group_dropOutst]
  exact ⟨rfl, rfl⟩

end Window

/-! ### MACK (R289, R331) -/

section Message
variable {s : State} {p : Fin 32} {tag : BitVec 12} {x : Outst} (hm : s.mute = false)
  (hx : s.findOutst p 3 tag.toNat = some x) (hop : x.op = .msg)
include hm hx hop

/-- The die once the message of a vector is no longer outstanding. -/
def State.vectorDone (s : State) (x : Outst) (v : Nat) : State :=
  { s.dropOutst x with vecBusy := setDel (s.dropOutst x).vecBusy v }

theorem exec_mack_vector {v : Nat} (hwhy : x.purpose = .vector v) :
    exec (.mack p tag 0) s = .next ((s.vectorDone x v).vectorResend v) := by
  rw [exec_mack_listed (status := 0) hm rfl hx hop rfl, State.messageAnswered, hwhy]
  rfl

theorem mack_vector_idle {v : Nat} (hwhy : x.purpose = .vector v) (hpend : bit (s.regN (0x20C + 16 * v)) 1 = false) :
    ∃ t, exec (.mack p tag 0) s = .next t ∧ t.vecBusy = setDel s.vecBusy v ∧ t.regs = s.regs := by
  refine ⟨_, exec_mack_vector hm hx hop hwhy, ?_⟩
  rw [State.vectorResend_idle (s := s.vectorDone x v) ((congrArg (bit · 1) (State.regN_dropOutst s x _)).trans hpend)]
  exact ⟨congrArg (setDel · v) (State.vecBusy_dropOutst s x), State.regs_dropOutst s x⟩

/-- A vector with PEND set sends again, at once. -/
theorem mack_vector_pending {v : Nat} (hwhy : x.purpose = .vector v) (hpend : bit (s.regN (0x20C + 16 * v)) 1 = true)
    (hmask : bit (s.regN (0x20C + 16 * v)) 0 = false) :
    ∃ t, exec (.mack p tag 0) s = .next t ∧ v ∈ t.vecBusy ∧ bit (t.regN (0x20C + 16 * v)) 1 = false ∧
      ∃ y ∈ t.outst, y.purpose = .vectorFlush v := by
  have hreg := State.regN_dropOutst s x (0x20C + 16 * v)
  have hmute : (s.vectorDone x v).mute = false := (State.mute_dropOutst s x).trans hm
  have hfree : setHas (s.vectorDone x v).vecBusy v = false := by simp [State.vectorDone, setHas_setDel]
  refine ⟨_, exec_mack_vector hm hx hop hwhy, ?_⟩
  rw [State.vectorResend_pending hmute hfree ((congrArg (bit · 1) hreg).trans hpend)
    ((congrArg (bit · 0) hreg).trans hmask)]
  generalize hu : { (s.vectorDone x v).setRegF (0x20C + 16 * v) 1 1 0 with
    vecBusy := setIns (s.vectorDone x v).vecBusy v } = u
  have hkeep := (State.flush_keep u (vectorPort v) 15 (.vectorFlush v)).same.same
  refine ⟨?_, ?_, ?_⟩
  · rw [hkeep .vecBusy (by decide), ← hu]
    exact mem_setIns.2 (.inl rfl)
  · rw [State.regN, State.reg_of_regs (hkeep .regs (by decide)), ← hu]
    exact State.bit_setRegF_same (s.vectorDone x v) 0 (by decide)
  · have humute : u.mute = false := by
      rw [← hu]
      show ((s.vectorDone x v).setRegF (0x20C + 16 * v) 1 1 0).mute = false
      rw [State.setRegF_mute, hmute]
    obtain ⟨y, hy, hpurpose, -⟩ := State.outst_request_port humute
      { port := vectorPort v, op := .flush, stream := 15 } (.vectorFlush v) false
    exact ⟨y, hy, hpurpose⟩

section Signal
variable {id : Nat} {o : OpRec} {b w : Bool} (hwhy : x.purpose = .signal id) (ho : s.op id = some o)
  (hended : o.ended = false) (hs : o.stopped = false)
include hwhy ho hended hs

theorem mack_signal_ok : ∃ t u, exec (.mack p tag 0) s = .next t ∧ t.op id = some u ∧ u.phase = .finished ∧
    u.status = o.goodStatus := by
  have ho' : (s.dropOutst x).op id = some o := by rw [State.op_dropOutst, ho]
  have hsent : ((s.dropOutst x).modOp id fun r => { r with kind := .signal true true }).op id =
      some { o with kind := .signal true true } := State.op_modOp ho' (fun _ => rfl) rfl
  obtain ⟨u, hu, hphase, hstatus⟩ := State.op_finish_of_not_ended hsent hended o.goodStatus
  refine ⟨_, u, exec_mack_listed (status := 0) hm rfl hx hop rfl, ?_, hphase, hstatus.trans (if_neg (by simp [hs]))⟩
  simp only [State.messageAnswered, hwhy, ho', if_true]
  exact hu

theorem mack_signal_failed (hk : o.kind = .signal b w) {st : Byte} (h0 : st.toNat ≠ 0)
    (hl : statusListed .mack st.toNat = true) : ∃ t u, exec (.mack p tag st) s = .next t ∧ t.op id = some u ∧
      u.phase = .finished ∧ u.status = st.toNat := by
  have ho' : (s.dropOutst x).op id = some o := by rw [State.op_dropOutst, ho]
  obtain ⟨u, hu, hphase, hstatus⟩ := State.op_opFail_signal ho' hs hk hended st.toNat
  refine ⟨_, u, exec_mack_listed hm rfl hx hop hl, ?_, hphase, hstatus⟩
  simp only [State.messageAnswered, hwhy, ho', h0, if_false]
  exact hu

end Signal

end Message

/-! ### What a FLACK lets go (R291, R292) -/

section Flush
variable {s : State} {p : Fin 32} {tag : BitVec 12} {x : Outst} (hm : s.mute = false)
  (hheld : ∀ y ∈ s.outst, y.held = none)
  (hx : s.findOutst p 0 tag.toNat = some x) (hop : x.op = .flush)
include hm hheld hx hop

theorem flack_vector {v : Nat} (hwhy : x.purpose = .vectorFlush v) : ∃ t, exec (.flack p tag 0) s = .next t ∧
    ∃ y ∈ t.outst, y.purpose = .vector v ∧ y.op = .msg ∧ y.port = vectorPort v := by
  refine ⟨_, exec_flack_ok hm hheld hx hop, ?_⟩
  rw [State.flushReturned, hwhy]
  obtain ⟨y, hy, hpurpose, hmsg, hport, -⟩ := State.outst_request_port (s := (s.uncovered x).dropOutst x)
    ((State.mute_dropOutst _ _).trans hm) _ (.vector v) false
  exact ⟨y, hy, hpurpose, hmsg, hport⟩

/-- The FLOOR of a header counts once it is written. -/
theorem flack_jcb {f : Nat} (hwhy : x.purpose = .jcbFlush f) : ∃ t, exec (.flack p tag 0) s = .next t ∧
    t.jfloor = w32 f ∧ t.outst = (coveredOut x s.outst).filter (· ≠ x) := by
  refine ⟨_, exec_flack_ok hm hheld hx hop, ?_⟩
  rw [State.flushReturned, hwhy]
  exact ⟨rfl, State.outst_dropOutst_of_none_held (State.uncovered_none_held hheld) x⟩

theorem flack_signal {id : Nat} {o : OpRec} (hwhy : x.purpose = .signalFlush id) (ho : s.op id = some o) :
    ∃ t, exec (.flack p tag 0) s = .next t ∧
      ∃ y ∈ t.outst, y.purpose = .signal id ∧ y.op = .msg ∧ y.port = 8 + o.q ∧ y.addr = o.desc.pair 2 := by
  have ho' : ((s.uncovered x).dropOutst x).op id = some o := (State.op_dropOutst _ _ _).trans ho
  refine ⟨_, exec_flack_ok hm hheld hx hop, ?_⟩
  simp only [State.flushReturned, hwhy, ho', if_true]
  obtain ⟨y, hy, hpurpose, hmsg, hport, haddr⟩ := State.outst_request_port
    (s := ((s.uncovered x).dropOutst x).modOp o.id fun r => { r with kind := .signal true false })
    ((State.mute_dropOutst _ _).trans hm) _ (.signal o.id) _
  exact ⟨y, hy, State.id_of_op ho ▸ hpurpose, hmsg, hport, haddr⟩

theorem flack_side {code : Nat} {v : BitVec 64} (hwhy : x.purpose = .sideFlush code v) :
    ∃ t, exec (.flack p tag 0) s = .next t ∧ ∃ y ∈ t.outst, y.purpose = .sideSignal code ∧ y.op = .msg ∧ y.port = 15 := by
  refine ⟨_, exec_flack_ok hm hheld hx hop, ?_⟩
  rw [State.flushReturned, hwhy]
  obtain ⟨y, hy, hpurpose, hmsg, hport, -⟩ := State.outst_request_port (s := (s.uncovered x).dropOutst x)
    ((State.mute_dropOutst _ _).trans hm) _ (.sideSignal code) false
  exact ⟨y, hy, hpurpose, hmsg, hport⟩

/-- One of an operation's FLUSHes that is not the last is counted down. -/
theorem flack_done {id n : Nat} {o : OpRec} (hwhy : x.purpose = .doneFlush id) (ho : s.op id = some o)
    (hphase : o.phase = .flushing (n + 2)) :
    ∃ t u, exec (.flack p tag 0) s = .next t ∧ t.op id = some u ∧ u = { o with phase := .flushing (n + 1) } := by
  have ho' : ((s.uncovered x).dropOutst x).op id = some o := (State.op_dropOutst _ _ _).trans ho
  refine ⟨_, _, exec_flack_ok hm hheld hx hop, ?_, rfl⟩
  simp only [State.flushReturned, hwhy, if_true, State.doneFlushed, ho', Option.map_some, hphase]
  exact State.op_modOp ho' (fun _ => rfl) rfl

end Flush

/-! ### What a HUBERR stops (R290, R346) -/

section Hub
variable {s : State} (hm : s.mute = false) (p : Fin 32) (h : HdrWords) {z : Outst}
  (hz : s.findPosted p (fld h.w0.toNat 16 12) (fld h.w0.toNat 28 4) (h.w1.toNat + fld h.w2.toNat 0 20 * 2 ^ 32) = some z)
include hm hz

theorem huberr_opWrite {id core row col : Nat} {o : OpRec} (hwhy : z.purpose = .opWrite id core row col)
    (ho : s.op id = some o) (hs : o.stopped = false) :
    ∃ t u, exec (.huberr p h) s = .next t ∧ t.op id = some u ∧ u.status = 0x10 ∧ u.stopped = true := by
  have ho' : ((s.hubRecorded p h).dropOutst z).op id = some o := by
    rw [State.op_dropOutst, State.op_of_ops ((s.hubRecorded_keep p h).same.same .ops (by decide)), ho]
  obtain ⟨u, hu, hfail⟩ := State.op_opFail ho' hs 0x10 (if core = 0x1FFFF then none else some core)
    ((if core = 0x1FFFF then none else some core).map fun _ => (row, col)) none
  refine ⟨_, u, exec_huberr_found hm p h hz, ?_, hfail.status, hfail.stopped⟩
  rw [State.writeFailed, hwhy]
  exact hu

/-- A completion record that could not be written halts its queue. -/
theorem huberr_record {q : Nat} {seq : Word} (hq : q < 16) (hwhy : z.purpose = .record q seq)
    (hrun : (s.queue q).st = .run) : ∃ t, exec (.huberr p h) s = .next t ∧ (t.queue q).st = .halted ∧
      (t.queue q).halt = 0x10 ∧ bit (t.regN (portKey p 0x18)) 3 = true ∧ bit (t.regN (queueKey q 0x18)) 1 = true := by
  refine ⟨_, exec_huberr_found hm p h hz, ?_⟩
  rw [State.writeFailed, hwhy]
  dsimp only
  generalize hu : ((s.hubRecorded p h).dropOutst z).capture (pgQueue q) 2 [seq, w32 (fld h.w3.toNat 8 8)] = u
  have hport := not_records_pgQueue_portKey p hq 0x18
  have hurun : ((u.raise (pgQueue q) 2).queue q).st = .run := by
    rw [State.queue_raise, ← hu, State.queue_capture, State.queue_dropOutst,
      State.queue_of_queues ((s.hubRecorded_keep p h).same.same .queues (by decide)), hrun]
  have hubit : bit (u.regN (portKey p 0x18)) 3 = true := by
    rw [← hu, State.regN, State.reg_capture_other _ _ (by simp) hport, State.reg_dropOutst]
    exact State.bit_raise_status _ (pgPort_aboveVectors p) (by decide)
  rw [State.queue_haltQueue hurun]
  refine ⟨rfl, rfl, ?_, ?_⟩
  · rw [State.regN, State.reg_haltQueue_other _ _ _ hport, State.reg_raise_other _ _ hport]
    exact hubit
  · rw [State.haltQueue_of_run hurun]
    refine State.bit_raise_status_of_bit 4 (pgQueue_aboveVectors hq) ?_
    rw [State.regN, State.reg_setQueue]
    exact State.bit_raise_status u (pgQueue_aboveVectors hq) (by decide)

end Hub

/-- Settles O55: each response finds its transaction, which it takes off the list, and what waited for it goes on, ends or
fails. -/
theorem responsesEndTheirTransactions : Obligations.ResponsesEndTheirTransactions := by
  intro s p tag x hm hheld got opGoes
  refine ⟨fun data ⟨hx, hop⟩ => ⟨?slot, fun id c hwhy hwants hclean => rdr_staged hm hx hop data hwhy hwants hclean⟩,
    fun data id ⟨hx, hop⟩ hwhy => ⟨?atomUnknown, ?atomOk, ?atomFailed⟩, fun hgot => ⟨?write, ?concord⟩,
    fun ⟨hx, hop⟩ => ⟨?vector, ?signal⟩, fun ⟨hx, hop⟩ => ⟨?vectorFlush, ?jcbFlush, ?signalFlush, ?sideFlush, ?doneFlush⟩,
    fun h => ⟨?hubUnknown, ?hubWrite, ?hubRecord⟩⟩
  case slot =>
    intro q again hq hwhy hwords hrun hread _
    refine ⟨rdr_slot_ok hm hx hop data hwhy hrun hread hwords, rdr_slot_lost hm hx hop data hwhy hrun hread, ?_⟩
    intro st h0 hlost
    obtain ⟨t, ht, ⟨hhead, hseq, hst, hhalt, hrecord⟩, hlisted⟩ :=
      rdr_slot_failed hm hx hop data hwhy hrun hread hq h0 hlost
    exact ⟨t, ht, hhead, hseq, hst, hhalt, hrecord, hlisted⟩
  case atomUnknown => exact atr_unknown hm hx hop data hwhy
  case atomOk =>
    intro o ho hk hp hcores hacc hwait
    exact atr_ok hm hx hop data hwhy ho hk hp hcores hacc hwait
  case atomFailed => exact fun o ho hs => atr_failed hm hx hop data hwhy ho hs
  case write =>
    intro id c off o todo sent acked hwhy ho hk
    have hx : s.findOutst p 2 tag.toNat = some x := hgot.elim (·.1) (·.1)
    have hop : x.op = .wwr ∨ x.op = .wwa := hgot.imp (·.2) (·.2)
    refine ⟨wack_ok hm hx hop hwhy ho hk, fun hs st hst => wack_failed hm hx hop hwhy ho hk hs ?_ ?_⟩
    · exact (by decide : ∀ st ∈ [0x10#8, 0x11#8, 0x12#8, 0x13#8, 0x20#8, 0x21#8, 0x22#8], st.toNat ≠ 0) st hst
    · exact (by decide : ∀ st ∈ [0x10#8, 0x11#8, 0x12#8, 0x13#8, 0x20#8, 0x21#8, 0x22#8],
        statusListed .wack st.toNat = true) st hst
  case concord =>
    intro g m round hwhy hst hround
    exact wack_concord hm (hgot.elim (·.1) (·.1)) (hgot.imp (·.2) (·.2)) hwhy hst hround
  case vector =>
    intro v _ hwhy
    exact ⟨mack_vector_idle hm hx hop hwhy, mack_vector_pending hm hx hop hwhy⟩
  case signal =>
    intro id o b w hwhy ho hk hended hs
    refine ⟨mack_signal_ok hm hx hop hwhy ho hended hs,
      fun st hst => mack_signal_failed hm hx hop hwhy ho hended hs hk ?_ ?_⟩
    · exact (by decide : ∀ st ∈ [0x10#8, 0x22#8], st.toNat ≠ 0) st hst
    · exact (by decide : ∀ st ∈ [0x10#8, 0x22#8], statusListed .mack st.toNat = true) st hst
  case vectorFlush => exact fun v hwhy => flack_vector hm hheld hx hop hwhy
  case jcbFlush => exact fun f hwhy => flack_jcb hm hheld hx hop hwhy
  case signalFlush => exact fun id o hwhy ho => flack_signal hm hheld hx hop hwhy ho
  case sideFlush => exact fun code v hwhy => flack_side hm hheld hx hop hwhy
  case doneFlush => exact fun id o n hwhy ho hphase => flack_done hm hheld hx hop hwhy ho hphase
  case hubUnknown => exact exec_huberr_unknown hm p h
  case hubWrite => exact fun z id core row col o hz hwhy ho hs => huberr_opWrite hm p h hz hwhy ho hs
  case hubRecord => exact fun z q seq hq hz hwhy hrun => huberr_record hm p h hz hq hwhy hrun

end Sys2Proof.Machine

/-! ## The error capture of every page (O29) -/

namespace Sys2Proof.Machine

/-! ### Pages of the register maps, and the registers of the vectors -/

/-- A page stands at a multiple of 4 KiB, and its line feeds one of the 32 vectors (R320, R328). -/
structure Page.Mapped (p : Page) : Prop where
  aligned : p.base % 0x1000 = 0
  vector  : p.vector < 32

theorem diePage_mapped : ∀ i : Fin 256, (diePage i).all (fun p => decide (p.vector < 32)) = true := by
  decide +kernel

/-- The page at an offset outside the die-level pages is one of its cluster's four (R322). -/
theorem pageAt_high {off : Nat} {p : Page} (hhigh : ¬ off < 0x100000) (hp : pageAt off = some p) :
    0x1000000 ≤ off ∧ p = ⟨clusterPageKind ((off - 0x1000000) / 0x1000 % 4), clusterOf off,
      clusterBase (clusterOf off) + (off - 0x1000000) / 0x1000 % 4 * 0x1000⟩ := by
  rw [pageAt, if_neg hhigh] at hp
  split at hp
  · next hc => exact ⟨hc.1, (Option.some.inj hp).symm⟩
  · cases hp

theorem vector_clusterPageKind (i c base : Nat) : Page.vector ⟨clusterPageKind i, c, base⟩ = 16 := by
  unfold clusterPageKind
  split_ifs <;> rfl

theorem Page.mapped_of_pageAt {off : Nat} {p : Page} (hp : pageAt off = some p) : p.Mapped := by
  by_cases hlow : off < 0x100000
  · refine ⟨?_, ?_⟩
    · rw [(diePage_of_low hlow hp).1]
      exact Nat.mul_mod_left _ _
    · rw [pageAt, if_pos hlow] at hp
      simpa [hp] using diePage_mapped ⟨off / 0x1000, by omega⟩
  · obtain ⟨-, rfl⟩ := pageAt_high hlow hp
    refine ⟨?_, by rw [vector_clusterPageKind]; decide⟩
    simp only [clusterBase]
    omega

/-- The registers of a page below 200h are none of the vectors' control registers (R330). -/
theorem Page.Mapped.apart {p : Page} (hp : p.Mapped) {o : Nat} (ho : o < 0x200) :
    p.base + o ≠ 0x20C + 16 * p.vector ∧ p.base + o ≠ 0x30C := by
  obtain ⟨hbase, hvec⟩ := hp
  omega

/-- A raised line changes no register of its page below 200h but INT_STATUS (R327). -/
theorem State.reg_raise_mapped (s : State) {p : Page} (bits : Nat) (hp : p.Mapped) {o : Nat} (ho : o < 0x200) :
    (s.raise p bits).reg (p.base + o) = (s.orReg (p.base + 0x18) bits).reg (p.base + o) :=
  s.reg_raise p bits (hp.apart ho).1 (hp.apart ho).2

/-! ### What a capture does (R325) -/

theorem State.reg_putWords (ws : List Word) (s : State) (key : Nat) {i : Nat} {w : Word} (h : ws[i]? = some w) :
    (s.putWords key ws).reg (key + 4 * i) = w := by
  induction ws generalizing s key i with
  | nil => simp at h
  | cons x ws ih =>
    cases i with
    | zero =>
      rw [State.putWords, State.reg_putWords_other _ _ (by omega), Nat.mul_zero, Nat.add_zero, State.reg_setReg_same]
      simpa using h
    | succ i =>
      rw [State.putWords, show key + 4 * (i + 1) = key + 4 + 4 * i by omega]
      exact ih _ _ (by simpa using h)

/-- The capture after its cause, words and count are stored. -/
def State.captured (s : State) (p : Page) (cause : Nat) (words : List Word) : State :=
  ((s.setReg (p.base + 0x20) (w32 (0x80000000 + cause))).putWords (p.base + 0x24)
    (words ++ List.replicate (5 - words.length) 0)).setReg (p.base + p.kind.countOff) 1

/-- The first event fills the capture and raises ERR. -/
theorem State.capture_first {s : State} {p : Page} (h : bit (s.regN (p.base + 0x20)) 31 = false) (cause : Nat)
    (words : List Word) : s.capture p cause words = (s.captured p cause words).raise p 0x40000000 := by
  simp only [State.capture, h, Bool.false_eq_true, if_false]
  rfl

/-- A later event is counted alone. -/
theorem State.capture_later {s : State} {p : Page} (h : bit (s.regN (p.base + 0x20)) 31 = true) (cause : Nat)
    (words : List Word) : s.capture p cause words =
      s.setReg (p.base + p.kind.countOff) (incSat (s.reg (p.base + p.kind.countOff))) := by
  simp only [State.capture, h, if_true]

theorem PageKind.countOff_of_not_store {k : PageKind} (h : k ≠ .store) : k.countOff = 0x38 := by
  cases k with
  | store => exact absurd rfl h
  | _ => rfl

section Captured

variable (s : State) (p : Page) (cause : Nat) {words : List Word}

theorem State.reg_captured_cause : (s.captured p cause words).reg (p.base + 0x20) = w32 (0x80000000 + cause) := by
  have hcount := p.kind.countOff_range
  rw [State.captured, State.reg_setReg_other _ _ (by omega), State.reg_putWords_other _ _ (by omega),
    State.reg_setReg_same]

theorem State.reg_captured_count : (s.captured p cause words).reg (p.base + p.kind.countOff) = 1 :=
  State.reg_setReg_same _ _ _

/-- The words stand from 024h upward, and zeros after them up to the fifth. -/
theorem State.reg_captured_word (hk : p.kind ≠ .store) {i : Nat} (hi : i < 5) {w : Word}
    (hw : (words ++ List.replicate (5 - words.length) 0)[i]? = some w) :
    (s.captured p cause words).reg (p.base + 0x24 + 4 * i) = w := by
  rw [State.captured, State.reg_setReg_other _ _ (by rw [PageKind.countOff_of_not_store hk]; omega)]
  exact State.reg_putWords _ _ _ hw

end Captured

theorem incSat_eq (w : Word) : incSat w = if w.toNat = 2 ^ 32 - 1 then w else w + 1 := rfl

/-- Settles O29: an empty capture is filled and its line raised (`capture_first`), a full one counts (`capture_later`). -/
theorem eventCaptureKeepsTheFirst : Obligations.EventCaptureKeepsTheFirst := by
  intro s p cause o priv hcause ho hpriv hk hpage
  have hp := Page.mapped_of_pageAt hpage
  have hcount := PageKind.countOff_of_not_store hk
  refine ⟨fun hempty => ?_, fun hfull => ?_⟩
  · intro t
    let u := s.captured p cause [commonWord o priv]
    have ht : t = u.raise p 0x40000000 := State.capture_first hempty _ _
    have hreg {k : Nat} (hlo : 0x20 ≤ k) (hhi : k < 0x200) : t.reg (p.base + k) = u.reg (p.base + k) := by
      rw [ht, State.reg_raise_mapped _ _ hp hhi, State.reg_orReg_other _ _ (by omega)]
    refine ⟨?_, ?_, fun i hi => ?_, ?_, ?_⟩
    · have hword : t.reg (p.base + 0x20) = w32 (0x80000000 + cause) :=
        (hreg (by decide) (by decide)).trans (State.reg_captured_cause s p cause)
      exact (congrArg BitVec.toNat hword).trans (toNat_w32 (by omega))
    · have hword : u.reg (p.base + 0x24 + 4 * 0) = commonWord o priv :=
        State.reg_captured_word s p cause hk (by decide) rfl
      rw [State.regN, hreg (by decide) (by decide), hword, commonWord, Nat.mod_eq_of_lt ho, Nat.mod_eq_of_lt hpriv,
        toNat_w32 (by omega), Nat.mul_comm]
    · have hword : u.reg (p.base + 0x24 + 4 * (i + 1)) = 0 :=
        State.reg_captured_word s p cause hk (by omega) (List.getElem?_replicate_of_lt hi)
      rw [Nat.add_assoc, hreg (by omega) (by omega), ← hword]
      congr 1
      omega
    · rw [hreg (by decide) (by decide), ← hcount]
      exact State.reg_captured_count s p cause
    · rw [State.regN, ht, State.reg_raise_mapped _ _ hp (by decide), State.reg_orReg_same, BitVec.toNat_or, bit_or]
      exact Bool.or_eq_true_iff.2 (.inr (by decide))
  · rw [State.captureCommon, State.capture_later hfull, hcount, incSat_eq]
    rfl

end Sys2Proof.Machine

/-! ## Writes of the registers of a queue (O30, O31) -/

namespace Sys2Proof.Machine

/-- A refused write changes the registers of the page's record alone (R325, R326). -/
theorem State.reg_refuseWrite_other (s : State) {p : Page} (cause off priv : Nat) {k : Nat} (hk : p.kind ≠ .store)
    (h : ¬ p.records k) : (s.refuseWrite p cause off priv).reg k = s.reg k := by
  have hcount : k ≠ p.base + 0x48 := fun he => h (.inl (by omega))
  rw [State.refuseWrite, State.noteRefusal_eq _ hk, State.reg_raise_other _ _ h, State.reg_incReg_other _ _ hcount,
    State.captureCommon, State.reg_capture_other _ _ (by simp) h]

/-- The registers of a QUEUE page from 100h that a write stores, with their writable bits (R334). -/
def queueRegs : List (Nat × Nat) :=
  [(0x100, 0xFFFFFFC0), (0x104, 0xFFFFF), (0x108, 0x1F), (0x10C, 0xFFFFFFFF), (0x120, 0xFFFFFFC0), (0x124, 0xFFFFF),
    (0x128, 0x1F), (0x130, 0xFFFFFFFF), (0x144, 0xFFFFFFFF)]

theorem rowAt_queueRegs : ∀ x ∈ queueRegs, (PageKind.rowAt .queue x.1).any (fun r => r.rw == x.2 && r.rs == 0 &&
    r.w1c == 0 && r.w1s == 0 && (!r.rl || x.1 == 0x144)) = true := by
  decide

theorem queueRegs_range : ∀ x ∈ queueRegs, 0x100 ≤ x.1 ∧ x.1 < 0x200 ∧ x.1 % 4 = 0 := by
  decide

theorem pageAt_queue : ∀ q : Fin 16, pageAt (queueKey q 0) = some (pgQueue q) := by
  decide

/-- A register of a queue's page by its row in the page's table (R321, R334). -/
theorem regAt_queue (q : Fin 16) {o : Nat} {r : RegRow} (ho : o < 0x1000) (h4 : o % 4 = 0)
    (hr : PageKind.rowAt .queue o = some r) : regAt (queueKey q o) = some (pgQueue q, r) := by
  have halign : queueKey q o % 4 = 0 := by unfold queueKey; omega
  exact regAt_of_page halign (pageAt_base_add (pageAt_queue q) rfl ho) (Nat.add_sub_cancel_left _ _) hr

/-- A write of one of these registers at a level that may write it, with a value that is not reserved (R13, R15,
R323). -/
structure QueueWrite (s : State) (a : Access) (q : Fin 16) (o mask : Nat) (v : Word) : Prop where
  performs : Performs s a (queueKey q 0)
  reg      : (o, mask) ∈ queueRegs
  level    : a.priv = 0 ∨ (a.priv ≠ 3 ∧ (o = 0x10C ∨ o = 0x130))
  encoding : reservedValue .queue o v.toNat = false

/-- What an accepted write of one of these registers stores: a ring's base clears the ring's pointers (R337). -/
def State.queueStored (s : State) (q o : Nat) (w : Word) : State :=
  let t := s.setReg (queueKey q o) w
  if o = 0x100 then (t.setReg (queueKey q 0x110) 0).setReg (queueKey q 0x10C) 0
  else if o = 0x120 then (t.setReg (queueKey q 0x12C) 0).setReg (queueKey q 0x130) 0
  else t

section QueueWrite

variable {s : State} {a : Access} {q : Fin 16} {o mask : Nat} {v : Word} (h : QueueWrite s a q o mask v)
include h

theorem QueueWrite.accessRefused {r : RegRow} (hrl : r.rl = false ∨ o = 0x144) :
    s.accessRefused (pgQueue q) r o a.priv.toNat = none := by
  have ho : o < 0x200 := (queueRegs_range _ h.reg).2.1
  have hjournal : journalSetup (pgQueue q) o = false := rfl
  rcases h.level with h0 | ⟨h3, hbell⟩
  · rw [accessRefused_of_privileged _ _ _ _ (by rw [h0]; decide), if_neg (by omega), if_neg (by simp [h0])]
  · have hpriv : a.priv.toNat ≠ 3 := fun h => h3 (BitVec.eq_of_toNat_eq h)
    have hlevel : levelRefused (pgQueue q) r o a.priv.toNat = none := by
      simp [levelRefused, hpriv, pgQueue, hbell]
    have hfree : r.rl = false := hrl.resolve_right (by omega)
    simp [State.accessRefused, hjournal, hlevel, hfree, show ¬ 0xF00 ≤ o by omega]

/-- What is left to judge is the queue's state. -/
theorem QueueWrite.judged : ∃ r, regAt (queueKey q o) = some (pgQueue q, r) ∧ r.rs = 0 ∧
    (∀ cur, r.stored cur v = written cur v mask) ∧ Judged s (pgQueue q) r o v a.priv.toNat := by
  obtain ⟨hlo, hhi, h4⟩ := queueRegs_range _ h.reg
  obtain ⟨r, hr, hrow⟩ := (Option.any_eq_true _ _).1 (rowAt_queueRegs _ h.reg)
  simp only [Bool.and_eq_true, beq_iff_eq, Bool.or_eq_true, Bool.not_eq_true'] at hrow
  obtain ⟨⟨⟨⟨hrw, hrs⟩, hw1c⟩, hw1s⟩, hrl⟩ := hrow
  refine ⟨r, regAt_queue q (by omega) h4 hr, hrs, fun cur => hrw ▸ RegRow.stored_rw hw1c hw1s cur v,
    h.accessRefused hrl, rfl, ?_, h.encoding, rfl⟩
  simp [State.commitRefused, hrs, pgQueue, show o ≠ 0x40 by omega, show o ≠ 0x44 by omega]

/-- A write that the queue's state allows stores the writable bits. -/
theorem QueueWrite.accepted (hst : s.queueRefused q o v = false) : s.accessWrite a (queueKey q o) v =
    (s.queueStored q o (written (s.reg (queueKey q o)) v mask)).respond a .rgwa 0 := by
  obtain ⟨hlo, hhi, -⟩ := queueRegs_range _ h.reg
  obtain ⟨r, hr, hrs, hstored, hj⟩ := h.judged
  rw [accessWrite_of_judged (p := pgQueue q) h.performs hr (Nat.add_sub_cancel_left _ _) hj rfl hst,
    if_neg (by simp [pgQueue])]
  have hstore : s.store1 (pgQueue q) r o v =
      s.setReg (queueKey q o) (written (s.reg (queueKey q o)) v mask) := congrArg (s.setReg _) (hstored _)
  have heffect : s.writeEffect (pgQueue q) r o v a.priv.toNat a.port.val .none = s.writeQueue (pgQueue q) r o v := by
    rw [State.writeEffect, if_neg (by omega), if_neg (by omega), if_neg (by omega), if_neg (not_not.2 hrs),
      if_neg (by omega)]
    rfl
  rw [heffect, State.writeQueue, hstore, if_neg (by omega)]
  rfl

/-- A write that the queue's state does not allow is refused with cause E6h. -/
theorem QueueWrite.accessWrite_refused (hst : s.queueRefused q o v = true) : s.accessWrite a (queueKey q o) v =
    (s.refuseWrite (pgQueue q) 0xE6 o a.priv.toNat).respond a .rgwa 0x11 := by
  obtain ⟨r, hr, -, -, hj⟩ := h.judged
  have ho : queueKey q o - (pgQueue q).base = o := Nat.add_sub_cancel_left _ _
  have hwrite := accessWrite_of_stateRefused (v := v) (aux := .none) h.performs hr (by rw [ho]; exact hj)
    (by rw [ho]; exact Bool.or_eq_true_iff.2 (.inr hst))
  rw [ho] at hwrite
  exact hwrite

/-- The refusal is recorded on the queue's page (R326, R355). -/
theorem QueueWrite.refused {c : Instr} (hexec : exec c s = .next (s.accessWrite a (queueKey q o) v))
    (hst : s.queueRefused q o v = true) : RefusedForState c s a (pgQueue q) 0xE6 o := by
  obtain ⟨-, hhi, -⟩ := queueRegs_range _ h.reg
  exact refusedForState_of_exec (hexec.trans (congrArg _ (h.accessWrite_refused hst))) h.performs.mute
    (pgQueue_aboveVectors q.isLt) (by simp [pgQueue]) (by omega)

/-- A refused write leaves the register. -/
theorem QueueWrite.reg_refused (hst : s.queueRefused q o v = true) :
    (s.accessWrite a (queueKey q o) v).reg (queueKey q o) = s.reg (queueKey q o) := by
  obtain ⟨hlo, -, -⟩ := queueRegs_range _ h.reg
  rw [h.accessWrite_refused hst, State.reg_respond]
  exact s.reg_refuseWrite_other _ _ _ (by simp [pgQueue]) (not_records_pgQueue_queueKey q.isLt (by omega))

/-- Every register of the page is also written by its offset. -/
theorem QueueWrite.exec_rgwr : exec (.rgwr a (BitVec.ofNat 28 (queueKey q o)) v) s =
    .next (s.accessWrite a (queueKey q o) v) := by
  obtain ⟨-, hhi, -⟩ := queueRegs_range _ h.reg
  have hkey : (BitVec.ofNat 28 (queueKey q o)).toNat = queueKey q o := by
    rw [BitVec.toNat_ofNat, Nat.mod_eq_of_lt]
    unfold queueKey
    omega
  exact congrArg (fun off => Host.Outcome.next (s.accessWrite a off v)) hkey

end QueueWrite

/-! ### DB_TAIL and CPL_HEAD (R338) -/

theorem queueRefused_dbTail (s : State) (q : Nat) (v : Word) : s.queueRefused q 0x10C v = true ↔
    v - s.reg (queueKey q 0x110) < s.reg (queueKey q 0x10C) - s.reg (queueKey q 0x110) ∨
      2 ^ s.regF (queueKey q 0x108) 0 5 < (v - s.reg (queueKey q 0x110)).toNat := by
  have h : s.queueRefused q 0x10C v =
      (decide ((v - s.reg (queueKey q 0x110)).toNat < (s.reg (queueKey q 0x10C) - s.reg (queueKey q 0x110)).toNat)
        || decide (2 ^ s.regF (queueKey q 0x108) 0 5 < (v - s.reg (queueKey q 0x110)).toNat)) := rfl
  rw [h, Bool.or_eq_true, decide_eq_true_iff, decide_eq_true_iff, BitVec.lt_def]

theorem queueRefused_cplHead (s : State) (q : Nat) (v : Word) : s.queueRefused q 0x130 v = true ↔
    s.reg (queueKey q 0x12C) - s.reg (queueKey q 0x130) < v - s.reg (queueKey q 0x130) := by
  have h : s.queueRefused q 0x130 v = decide ((s.reg (queueKey q 0x12C) - s.reg (queueKey q 0x130)).toNat <
      (v - s.reg (queueKey q 0x130)).toNat) := rfl
  rw [h, decide_eq_true_iff, BitVec.lt_def]

theorem written_all (cur v : Word) : written cur v 0xFFFFFFFF = v := by
  have hones (x : Word) : x &&& 4294967295#32 = x := BitVec.and_allOnes
  simp [written, w32, hones]

/-! ### A queue that does not run accepts and reads nothing (R339) -/

theorem State.st_of_turnOf {s : State} {q : Nat} (h : s.turnOf = some q) : (s.queue q).st = .run := by
  have hmay : s.mayAccept q = true := List.find?_some h
  unfold State.mayAccept at hmay
  split at hmay
  · cases hmay
  · simp only [Bool.and_eq_true, beq_iff_eq] at hmay
    obtain ⟨⟨⟨⟨⟨-, hrun⟩, -⟩, -⟩, -⟩, -⟩ := hmay
    exact hrun

theorem State.readSlot_of_not_run {s : State} {q : Nat} (h : (s.queue q).st ≠ .run) : s.readSlot q = s := by
  have hturn : s.turnOf ≠ some q := fun hq => h (State.st_of_turnOf hq)
  unfold State.readSlot
  dsimp only
  split
  · exact if_neg fun hc => hturn hc.2
  · simp [h]

/-- Settles O30: a write of either pointer is judged by `queueRefused` alone, which compares distances from HEAD or
CPL_HEAD; a refused write leaves the pointer, which stands above the page's record. -/
theorem doorbellsAndCompletionHead : Obligations.DoorbellsAndCompletionHead := by
  intro s a q v hw h3 head tail cplHead cplTail
  have hbell : QueueWrite s a q 0x10C 0xFFFFFFFF v := ⟨hw, by decide, .inr ⟨h3, .inl rfl⟩, rfl⟩
  have hcpl : QueueWrite s a q 0x130 0xFFFFFFFF v := ⟨hw, by decide, .inr ⟨h3, .inr rfl⟩, rfl⟩
  refine ⟨fun hlo hhi => ?_, fun hout => ⟨hbell.refused rfl ((queueRefused_dbTail s q v).2 hout), fun t ht => ?_⟩,
    fun hin => ?_, fun hout => hcpl.refused rfl ((queueRefused_cplHead s q v).2 hout), fun hst => ?_⟩
  · have hin : s.queueRefused q 0x10C v = false := by
      rw [Bool.eq_false_iff, ne_eq, queueRefused_dbTail]
      rintro (h | h)
      · exact absurd h (BitVec.not_lt.2 hlo)
      · exact absurd h (Nat.not_lt.2 hhi)
    have h := hbell.accepted hin
    rw [written_all] at h
    exact congrArg Host.Outcome.next h
  · rw [← Host.Outcome.next.inj ht]
    exact hbell.reg_refused ((queueRefused_dbTail s q v).2 hout)
  · have hin : s.queueRefused q 0x130 v = false := by
      rw [Bool.eq_false_iff, ne_eq, queueRefused_cplHead]
      exact BitVec.not_lt.2 hin
    have h := hcpl.accepted hin
    rw [written_all] at h
    exact congrArg Host.Outcome.next h
  · exact congrArg Host.Outcome.next (State.readSlot_of_not_run (by rw [hst]; decide))

/-! ### Ring geometry and SEQ (R337) -/

/-- The registers that software sets while the queue is disabled. -/
def queueGeometry : List Nat := [0x100, 0x104, 0x108, 0x120, 0x124, 0x128, 0x144]

theorem queueRefused_geometry (s : State) (q : Nat) (v : Word) {o : Nat} (ho : o ∈ queueGeometry) :
    s.queueRefused q o v = ((s.queue q).st != .disabled) :=
  if_pos (List.contains_iff_mem.2 ho)

/-- An upper half of at most 16 bits is an address of region 0h (R336). -/
theorem reservedValue_ringHigh {o v : Nat} (ho : o ∈ [0x104, 0x124]) (hv : v < 2 ^ 16) :
    reservedValue .queue o v = false := by
  have hfld : fld v 16 4 = 0 := by unfold fld; omega
  simp only [List.mem_cons, List.not_mem_nil, or_false] at ho
  rcases ho with rfl | rfl <;> simp [reservedValue, hfld]

/-- A ring has 2^4 to 2^16 slots (R334). -/
theorem reservedValue_ringSize {o v : Nat} (ho : o ∈ [0x108, 0x128]) (hlo : 4 ≤ v) (hhi : v ≤ 16) :
    reservedValue .queue o v = false := by
  have hfld : fld v 0 5 = v := by rw [fld_zero]; omega
  simp only [List.mem_cons, List.not_mem_nil, or_false] at ho
  rcases ho with rfl | rfl <;> simp [reservedValue, hfld, hlo, hhi]

/-- A register other than a base is stored alone. -/
theorem State.queueStored_of_ne {s : State} {q o : Nat} (hring : o ≠ 0x100) (hcpl : o ≠ 0x120) (w : Word) :
    s.queueStored q o w = s.setReg (queueKey q o) w := by
  rw [State.queueStored, if_neg hring, if_neg hcpl]

/-- An accepted write of such a register, for one that is no base. -/
theorem QueueWrite.stored {s : State} {a : Access} {q : Fin 16} {o mask : Nat} {v : Word}
    (h : QueueWrite s a q o mask v) (hst : s.queueRefused q o v = false) (hring : o ≠ 0x100) (hcpl : o ≠ 0x120) :
    exec (.rgwr a (BitVec.ofNat 28 (queueKey q o)) v) s =
      .next ((s.setReg (queueKey q o) (written (s.reg (queueKey q o)) v mask)).respond a .rgwa 0) := by
  rw [h.exec_rgwr, h.accepted hst, State.queueStored_of_ne hring hcpl]

/-- Settles O31: the seven registers share one refusal (`queueRefused_geometry`) and differ in their reserved values and
in what a base clears (`queueStored`). -/
theorem ringBasesOnlyWhileDisabled : Obligations.RingBasesOnlyWhileDisabled := by
  intro s a q v hw h0 k set
  have hhigh (hv : v.toNat < 2 ^ 16) (o : Nat) (ho : o ∈ [0x104, 0x124]) : QueueWrite s a q o 0xFFFFF v :=
    ⟨hw, (by decide : ∀ o ∈ [0x104, 0x124], (o, 0xFFFFF) ∈ queueRegs) o ho, .inl h0, reservedValue_ringHigh ho hv⟩
  have hsize (hlo : 4 ≤ v.toNat) (hhi : v.toNat ≤ 16) (o : Nat) (ho : o ∈ [0x108, 0x128]) : QueueWrite s a q o 0x1F v :=
    ⟨hw, (by decide : ∀ o ∈ [0x108, 0x128], (o, 0x1F) ∈ queueRegs) o ho, .inl h0, reservedValue_ringSize ho hlo hhi⟩
  have hring : QueueWrite s a q 0x100 0xFFFFFFC0 v := ⟨hw, by decide, .inl h0, rfl⟩
  have hcpl : QueueWrite s a q 0x120 0xFFFFFFC0 v := ⟨hw, by decide, .inl h0, rfl⟩
  have hseq : QueueWrite s a q 0x144 0xFFFFFFFF v := ⟨hw, by decide, .inl h0, rfl⟩
  refine ⟨fun hoff => ?_, fun hon => ?_⟩
  · have hfree {o : Nat} (ho : o ∈ queueGeometry) : s.queueRefused q o v = false := by
      rw [queueRefused_geometry s q v ho, hoff]
      rfl
    refine ⟨congrArg Host.Outcome.next (hring.accepted (hfree (by decide))),
      congrArg Host.Outcome.next (hcpl.accepted (hfree (by decide))), fun hv => ⟨?_, ?_⟩, fun hlo hhi => ⟨?_, ?_⟩, ?_⟩
    · exact (hhigh hv _ (by decide)).stored (hfree (by decide)) (by decide) (by decide)
    · exact (hhigh hv _ (by decide)).stored (hfree (by decide)) (by decide) (by decide)
    · exact (hsize hlo hhi _ (by decide)).stored (hfree (by decide)) (by decide) (by decide)
    · exact (hsize hlo hhi _ (by decide)).stored (hfree (by decide)) (by decide) (by decide)
    · exact hseq.stored (hfree (by decide)) (by decide) (by decide)
  · have hheld {o : Nat} (ho : o ∈ queueGeometry) : s.queueRefused q o v = true := by
      rw [queueRefused_geometry s q v ho]
      exact bne_iff_ne.2 hon
    refine ⟨hring.refused rfl (hheld (by decide)), hcpl.refused rfl (hheld (by decide)), fun hv o ho => ?_,
      fun hlo hhi o ho => ?_, hseq.refused hseq.exec_rgwr (hheld (by decide))⟩
    · have h := hhigh hv o ho
      exact h.refused h.exec_rgwr (hheld ((by decide : [0x104, 0x124] ⊆ queueGeometry) ho))
    · have h := hsize hlo hhi o ho
      exact h.refused h.exec_rgwr (hheld ((by decide : [0x108, 0x128] ⊆ queueGeometry) ho))

end Sys2Proof.Machine

/-! ## Interrupt registers (O33) -/

namespace Sys2Proof.Machine

/-! ### An access that wakes an island (R381) -/

/-- What the banks of a cluster change as they leave retention. -/
abbrev bankFields : List Field := [.store, .full, .banks]

/-- Only a requested dark ends with the last bank (R382). -/
theorem State.finishDark_of_not_darkening {s : State} {c : Nat} (h : (s.island c).darkening = false) :
    s.finishDark c = s := by
  simp [State.finishDark, h]

theorem State.closeCheck_keep {s : State} {c : Nat} (h : (s.island c).darkening = false) (bank : Nat) :
    Keep bankFields s (s.closeCheck c bank) := by
  have hl := Sub.refl bankFields
  have hdark (b : BankSt) : (((s.wipeBank c bank).setBank (bankKey c bank) b).island c).darkening = false := h
  unfold State.closeCheck
  split
  · split
    · split
      · rw [State.bankDark, State.finishDark_of_not_darkening (hdark _)]
        exact ((Keep.refl _ s).wipeBank _ _).setBank _ _
      · exact (Keep.refl _ s).setBank _ _
    · exact Keep.refl _ s
  · exact Keep.refl _ s

section Wake

variable {s t : State} {c : Nat} (hk : Keep bankFields s t) (h : (s.island c).darkening = false)
include hk h

theorem Keep.closeBank_of_not_darkening (bank : Nat) (b : BankSt) :
    Keep bankFields s ((t.setBank (bankKey c bank) b).closeCheck c bank) := by
  have hl := Sub.refl bankFields
  have hset : Keep bankFields s (t.setBank (bankKey c bank) b) := hk.setBank _ _
  have hdark : ((t.setBank (bankKey c bank) b).island c).darkening = false := by
    rw [State.island, hset.same.same .islands (by decide)]
    exact h
  exact hset.trans (State.closeCheck_keep hdark bank)

theorem Keep.bankTo_of_not_darkening (bank want : Nat) : Keep bankFields s (t.bankTo c bank want) := by
  have hl := Sub.refl bankFields
  have hset (b : BankSt) : Keep bankFields s (t.setBank (bankKey c bank) b) := hk.setBank _ _
  have hclose := hk.closeBank_of_not_darkening h bank
  unfold State.bankTo
  dsimp only
  split
  · exact hset _
  · exact hset _
  · exact hset _
  · exact hk
  · exact hset _
  · exact hclose _
  · exact hclose _
  · exact hclose _
  · exact hk
  · exact hk
  · exact hclose _

theorem Keep.resumeBank_of_not_darkening (bank : Nat) : Keep bankFields s (t.resumeBank c bank) := by
  have hl := Sub.refl bankFields
  unfold State.resumeBank
  dsimp only
  split
  · exact hk.setBank _ _
  · exact hk.setBank _ _
  · exact hk.bankTo_of_not_darkening h _ _

end Wake

/-- Waking an island whose cluster goes to no requested dark changes one register, the island's LADDER. -/
theorem State.reg_wakeIsland {s : State} {c k : Nat} (h : (s.island c).darkening = false)
    (hk : k ≠ clusterBase c + 0x2104) : (s.wakeIsland c).reg k = s.reg k := by
  have hresume (u : State) (hu : (u.island c).darkening = false) :
      Keep bankFields u ((List.range 48).foldl (fun t b => t.resumeBank c b) u) :=
    (Keep.refl _ u).foldl fun _ b hb => hb.resumeBank_of_not_darkening hu b
  unfold State.wakeIsland
  split
  · dsimp only
    split
    · rw [State.reg_of_regs ((hresume _ (by rw [State.island_setRegF]; exact h)).same.same .regs (by decide)),
        State.reg_setRegF_other _ _ _ _ hk]
    · exact State.reg_setRegF_other _ _ _ _ hk
  · rfl

/-! ### The common registers of a page -/

/-- An access of a die-level page wakes nothing. -/
theorem State.wakeFor_of_low {s : State} {off : Nat} {p : Page} (hlow : off < 0x1000000) (hp : pageAt off = some p) :
    s.wakeFor p = s := by
  have hdie : off < 0x100000 := by
    by_contra hhigh
    have := (pageAt_high hhigh hp).1
    omega
  obtain ⟨-, hcomp, hstore, hcore⟩ := diePage_of_low hdie hp
  unfold State.wakeFor
  split
  · next hk => exact absurd hk hcomp
  · next hk => exact absurd hk hstore
  · next hk => exact absurd hk hcore
  · rfl

/-- An access of a page whose cluster goes to no requested dark leaves the page's registers below 100h. -/
theorem State.reg_wakeFor {s : State} {p : Page} (hp : pageAt p.base = some p)
    (h : 0x1000000 ≤ p.base → (s.island (clusterOf p.base)).darkening = false) {o : Nat} (ho : o < 0x100) :
    (s.wakeFor p).reg (p.base + o) = s.reg (p.base + o) := by
  by_cases hlow : p.base < 0x100000
  · rw [State.wakeFor_of_low (by omega) hp]
  · obtain ⟨hhigh, hpage⟩ := pageAt_high hlow hp
    have hinst : p.inst = clusterOf p.base := congrArg Page.inst hpage
    have hbase := (Page.mapped_of_pageAt hp).aligned
    have hwake : (s.wakeIsland p.inst).reg (p.base + o) = s.reg (p.base + o) :=
      State.reg_wakeIsland (by rw [hinst]; exact h hhigh) (by unfold clusterBase; omega)
    unfold State.wakeFor
    split
    · exact hwake
    · exact hwake
    · exact hwake
    · rfl

/-- With nothing armed on the page, an access of its common area meets no injection, whether it wakes the island or not
(R357). -/
theorem State.pageInject_wakeFor {s : State} {p : Page} (h : Unarmed s p.base) {o : Nat} (ho : o < 0x100) :
    (s.wakeFor p).pageInject p o = s.wakeFor p := by
  cases hk : p.kind with
  | comp => simp [State.pageInject, hk]
  | coreAccess => simp [State.pageInject, hk]
  | store => simp [State.pageInject, hk, show ¬ (0x400 ≤ o ∧ o < 0xC00) by omega]
  | _ =>
    have hawake : s.wakeFor p = s := by simp [State.wakeFor, hk]
    rw [hawake]
    exact State.pageInject_of_unarmed h o

theorem State.regKey_of_lt (s : State) (p : Page) {o : Nat} (ho : o < 0x200) : s.regKey p o = p.base + o := by
  cases hk : p.kind with
  | coreAccess => simp [State.regKey, hk, windowed, show ¬ 0x200 ≤ o by omega, show ¬ 0xF00 ≤ o by omega]
  | _ => simp [State.regKey, hk]

/-- No register below 100h has a reserved encoding (R15). -/
theorem reservedValue_common (k : PageKind) {o : Nat} (ho : o < 0x100) (v : Nat) : reservedValue k o v = false := by
  have hne {n : Nat} (hn : 0x100 ≤ n) : o ≠ n := by omega
  have hlt {n : Nat} (hn : 0x100 ≤ n) : ¬ n ≤ o := by omega
  unfold reservedValue
  cases k <;> simp [hne, hlt]

/-- A write below 100h other than one of CONTROL is refused for no state of its page. -/
theorem State.stateRefused_common (s : State) (p : Page) {o : Nat} (ho : o < 0x100) (hctrl : o ≠ 0x10) (v : Word) :
    s.stateRefused p o v = false := by
  have hne {n : Nat} (hn : 0x100 ≤ n) : o ≠ n := by omega
  have hlt {n : Nat} (hn : 0x100 ≤ n) : ¬ n ≤ o := by omega
  unfold State.stateRefused
  cases p.kind <;> simp [State.queueRefused, State.auditRefused, journalSetup, hne, hlt, hctrl]

section Common

variable {s : State} {a : Access} {p : Page} {r : RegRow} {o : Nat} {v : Word}

/-- A write of a common register that is neither CONTROL nor one of the commit registers meets no refusal on a page that
is not dark. -/
theorem judged_common (hpriv : Privileged a) (hd : s.darkPage p = false) (hrl : r.rl = false) (hrs : r.rs = 0)
    (ho : o < 0x40) : Judged s p r o v a.priv.toNat := by
  refine ⟨accessRefused_eq_none s p hpriv hrl (.inl (by omega)), hd, ?_, reservedValue_common _ (by omega) _, ?_⟩
  · simp [State.commitRefused, hrs, show o ≠ 0x40 by omega, show o ≠ 0x44 by omega, show o ≠ 0x100 by omega]
  · simp [State.protRefused, show o ≠ 0x140 by omega, show o ≠ 0x148 by omega]

/-- Such a write wakes the island of its page and is performed (R325, R327, R381). -/
theorem accessWrite_common (hw : Performs s a p.base) (hpriv : Privileged a) (hp : pageAt p.base = some p)
    (hd : s.darkPage p = false) (hr : p.kind.rowAt o = some r) (hrl : r.rl = false) (hrs : r.rs = 0) (ho : o < 0x40)
    (hctrl : o ≠ 0x10) (h4 : o % 4 = 0) :
    s.accessWrite a (p.base + o) v = ((s.wakeFor p).writeCommon p r o v).respond a .rgwa 0 := by
  have hbase := (Page.mapped_of_pageAt hp).aligned
  have hoff : p.base + o - p.base = o := Nat.add_sub_cancel_left _ _
  have hreg : regAt (p.base + o) = some (p, r) :=
    regAt_of_page (by omega) (pageAt_base_add hp rfl (by omega)) hoff hr
  have hj := judged_common (v := v) hpriv hd hrl hrs ho
  have hst := s.stateRefused_common p (o := o) (by omega) hctrl v
  have hsetup : journalSetup p o = false := by
    simp [journalSetup, hctrl, show o ≠ 0x100 by omega, show o ≠ 0x104 by omega, show o ≠ 0x108 by omega,
      show o ≠ 0x114 by omega, show o ≠ 0x118 by omega]
  have heffect (u : State) : u.writeEffect p r o v a.priv.toNat a.port.val .none = u.writeCommon p r o v := by
    rw [State.writeEffect, if_neg (by omega), if_neg (by omega), if_neg (by omega), if_neg (not_not.2 hrs),
      if_pos (by omega)]
  rw [accessWrite_of_row hw hreg, hoff]
  simp only [State.writeRegister, hj.access, hj.dark, hj.commit, hj.encoding, hj.prot, hst, hsetup,
    State.pageInject_wakeFor hw.unarmed (show o < 0x100 by omega), show o ≠ 0x108 by omega, show o ≠ 0x10C by omega,
    heffect, Bool.false_and, Bool.false_or, or_self, and_false, Bool.false_eq_true, if_false]

/-- It is answered with STATUS 00h. -/
theorem answers_common {c : Instr} (hw : Performs s a p.base)
    (h : exec c s = .next (((s.wakeFor p).writeCommon p r o v).respond a .rgwa 0)) :
    Answers c s (((s.wakeFor p).writeCommon p r o v).respond a .rgwa 0) (rgwaOf a 0) := by
  have hl := Sub.refl [.regs, .shad, .store, .full, .banks, .stage, .cores, .islands, .ports, .out, .outst, .vecBusy,
    .power]
  have keep := ((Keep.refl _ s).wakeFor p hl).writeCommon p r o v
  exact answers_of_respond h keep.out ((keep.same.same .mute (by decide)).trans hw.mute)

end Common

/-! ### INT_STATUS, INT_ENABLE and ERR_CAUSE (R325, R327) -/

def intStatusRow (k : PageKind) : RegRow :=
  { off := 0x018, name := "INT_STATUS", w1c := k.intBits ||| 0xC0000000, ru := 327 }
def intEnableRow (k : PageKind) : RegRow := { off := 0x01C, name := "INT_ENABLE", rw := k.enableBits, ru := 317 }
def errCauseRow : RegRow := { off := 0x020, name := "ERR_CAUSE", w1c := 0x80000000, ru := 325 }

theorem rowAt_intStatus (k : PageKind) : k.rowAt 0x18 = some (intStatusRow k) := by
  cases k <;> rfl

theorem rowAt_intEnable (k : PageKind) : k.rowAt 0x1C = some (intEnableRow k) := by
  cases k <;> rfl

theorem rowAt_errCause (k : PageKind) : k.rowAt 0x20 = some errCauseRow := by
  cases k <;> rfl

theorem State.store1_of_lt (s : State) (p : Page) (r : RegRow) {o : Nat} (ho : o < 0x200) (v : Word) :
    s.store1 p r o v = s.setReg (p.base + o) (r.stored (s.reg (p.base + o)) v) := by
  rw [State.store1, s.regKey_of_lt p ho]

/-- A write of INT_STATUS stores what is left of it, and a line of the page's vector that still stands sends. -/
theorem State.writeCommon_intStatus (s : State) (p : Page) (v : Word) :
    s.writeCommon p (intStatusRow p.kind) 0x18 v = (s.setReg (p.base + 0x18)
      (s.reg (p.base + 0x18) &&& ~~~ (v &&& w32 (p.kind.intBits ||| 0xC0000000)))).vectorTouched p := by
  rw [State.writeCommon, if_pos (.inl rfl), State.store1_of_lt _ _ _ (by decide), RegRow.stored_w1c rfl rfl]
  rfl

theorem State.writeCommon_intEnable (s : State) (p : Page) (v : Word) :
    s.writeCommon p (intEnableRow p.kind) 0x1C v = (s.setReg (p.base + 0x1C)
      (Machine.written (s.reg (p.base + 0x1C)) v p.kind.enableBits)).vectorTouched p := by
  rw [State.writeCommon, if_pos (.inr rfl), State.store1_of_lt _ _ _ (by decide), RegRow.stored_rw rfl rfl]
  rfl

/-- Clearing VALID clears the page's count of events. -/
theorem State.writeCommon_errCause (s : State) (p : Page) {v : Word} (hv : bit v.toNat 31 = true) :
    s.writeCommon p errCauseRow 0x20 v = (s.setReg (p.base + 0x20)
      (s.reg (p.base + 0x20) &&& ~~~ (v &&& w32 0x80000000))).setReg (p.base + p.kind.countOff) 0 := by
  rw [State.writeCommon, if_neg (by decide), if_pos ⟨rfl, hv⟩, State.store1_of_lt _ _ _ (by decide),
    RegRow.stored_w1c rfl rfl]
  rfl

theorem State.vectorTouched_of_no_line {s : State} {p : Page} (h : (vectorPages p.vector).any s.line = false) :
    s.vectorTouched p = s := by
  simp [State.vectorTouched, h]

/-- A send of the page's vector leaves the page's own registers below 200h. -/
theorem State.reg_vectorTouched (s : State) {p : Page} (hp : p.Mapped) {o : Nat} (ho : o < 0x200) :
    (s.vectorTouched p).reg (p.base + o) = s.reg (p.base + o) := by
  unfold State.vectorTouched
  split
  · exact State.reg_vectorSend _ _ (hp.apart ho).1
  · rfl

/-- Clearing VALID leaves CAUSE. -/
theorem toNat_clear_valid (w : Word) {v : Word} (hv : bit v.toNat 31 = true) :
    (w &&& ~~~ (v &&& w32 0x80000000)).toNat = w.toNat % 2 ^ 31 := by
  refine Nat.eq_of_testBit_eq fun i => ?_
  rw [bit_eq_testBit, BitVec.testBit_toNat] at hv
  have hmask : (0x80000000#32).getLsbD i = decide (i = 31) := by
    rw [show 0x80000000#32 = BitVec.twoPow 32 31 from rfl, BitVec.getLsbD_twoPow]
    simp [eq_comm]
  rw [Nat.testBit_mod_two_pow, BitVec.testBit_toNat, BitVec.testBit_toNat, BitVec.getLsbD_and, BitVec.getLsbD_not,
    BitVec.getLsbD_and, w32, hmask]
  rcases Nat.lt_trichotomy i 31 with hi | rfl | hi
  · simp [hi, show i < 32 by omega, hi.ne]
  · simp [hv]
  · simp [show ¬ i < 31 by omega, BitVec.getLsbD_of_ge w i (by omega)]

/-! ### INTV_CTRL (R330, R331) -/

theorem diePage_die : ∀ i : Fin 256, (diePage i).all (fun p => p.kind != .die || p == pgDie) = true := by
  decide +kernel

theorem clusterPageKind_ne_die (i : Nat) : clusterPageKind i ≠ .die := by
  unfold clusterPageKind
  split_ifs <;> decide

/-- The die has one DIE page (R321). -/
theorem eq_pgDie_of_pageAt {off : Nat} {p : Page} (hp : pageAt off = some p) (hk : p.kind = .die) : p = pgDie := by
  by_cases hlow : off < 0x100000
  · rw [pageAt, if_pos hlow] at hp
    simpa [hp, hk] using diePage_die ⟨off / 0x1000, by omega⟩
  · obtain ⟨-, rfl⟩ := pageAt_high hlow hp
    exact absurd hk (clusterPageKind_ne_die _)

def intvCtrlRow : RegRow :=
  { off := 0x20C, name := "INTV_CTRL", count := 32, stride := 16, reset := 1, rw := 1, ru := 330 }

theorem rowAt_intvCtrl (vec : Fin 32) : PageKind.rowAt .die (0x20C + 16 * vec) = some intvCtrlRow := by
  fin_cases vec <;> rfl

/-- A vector that stays masked sends nothing (R331). -/
theorem State.vectorResend_masked {s : State} {v : Nat} (hmask : bit (s.regN (0x20C + 16 * v)) 0 = true) :
    s.vectorResend v = s := by
  simp only [State.vectorResend, hmask, Bool.not_true, Bool.and_false, Bool.false_and, Bool.false_eq_true, if_false]

/-- A bit outside the mask stays at a write, a bit of it is taken from the value. -/
theorem bit_written (cur v : Word) (mask : Nat) {i : Nat} (hi : i < 32) :
    bit (written cur v mask).toNat i = if bit mask i then bit v.toNat i else bit cur.toNat i := by
  simp only [bit_eq_testBit, BitVec.testBit_toNat, written, w32, BitVec.getLsbD_or, BitVec.getLsbD_and, BitVec.getLsbD_not,
    BitVec.getLsbD_ofNat, hi, decide_true, Bool.true_and]
  cases mask.testBit i <;> simp

theorem judged_intvCtrl (s : State) {a : Access} (hpriv : Privileged a) (vec : Fin 32) (v : Word) :
    Judged s pgDie intvCtrlRow (0x20C + 16 * vec) v a.priv.toNat := by
  have hvec := vec.isLt
  refine ⟨accessRefused_eq_none s _ hpriv rfl (.inl (by omega)), rfl, ?_, ?_, ?_⟩
  · simp [State.commitRefused, intvCtrlRow, show 0x20C + 16 * vec.val ≠ 0x40 by omega,
      show 0x20C + 16 * vec.val ≠ 0x44 by omega, show 0x20C + 16 * vec.val ≠ 0x100 by omega]
  · simp [reservedValue, pgDie, show 0x20C + 16 * vec.val ≠ 0xF10 by omega,
      show ¬ 0xF00 ≤ 0x20C + 16 * vec.val by omega, show (0x20C + 16 * vec.val) % 16 = 12 by omega]
  · simp [State.protRefused, pgDie]

/-- An accepted write of INTV_CTRL stores MASK and sends where PEND waits for it (R331). -/
theorem State.writeEffect_intvCtrl (s : State) (vec : Fin 32) (v : Word) (priv port : Nat) :
    s.writeEffect pgDie intvCtrlRow (0x20C + 16 * vec) v priv port .none =
      (s.setReg (0x20C + 16 * vec) (Machine.written (s.reg (0x20C + 16 * vec)) v 1)).vectorResend vec := by
  have hvec := vec.isLt
  have hstore : s.store1 pgDie intvCtrlRow (0x20C + 16 * vec) v =
      s.setReg (0x20C + 16 * vec) (Machine.written (s.reg (0x20C + 16 * vec)) v 1) := by
    have hkey : s.regKey pgDie (0x20C + 16 * vec) = 0x20C + 16 * vec := Nat.zero_add _
    rw [State.store1, hkey, RegRow.stored_rw rfl rfl]
    rfl
  rw [State.writeEffect, if_neg (by omega), if_neg (by omega), if_neg (by omega), if_neg (by simp [intvCtrlRow]),
    if_neg (by omega)]
  simp only [State.writeBlock, pgDie] at hstore ⊢
  rw [if_neg (by omega), if_pos (by omega), hstore, show (0x20C + 16 * vec.val - 0x20C) / 16 = vec by omega]

/-- A write of INTV_CTRL that leaves nothing to send (R331). -/
theorem exec_intvCtrlWrite {s : State} {a : Access} (hw : Performs s a 0) (hpriv : Privileged a) (vec : Fin 32)
    {v : Word} (h : bit v.toNat 0 = true ∨ bit (s.regN (0x20C + 16 * vec)) 1 = false) :
    exec (.intvCtrlWrite a vec v) s = .next ((s.setReg (0x20C + 16 * vec)
      (written (s.reg (0x20C + 16 * vec)) v 1)).respond a .rgwa 0) := by
  have hvec := vec.isLt
  have hpage : pageAt (0x20C + 16 * vec) = some pgDie := by
    rw [← Nat.zero_add (0x20C + 16 * vec.val)]
    exact pageAt_base_add rfl rfl (by omega)
  have hwrite := accessWrite_of_judged (v := v) (o := 0x20C + 16 * vec) (p := pgDie) hw
    (regAt_of_page (by omega) hpage rfl (rowAt_intvCtrl vec)) rfl (judged_intvCtrl s hpriv vec v) rfl rfl
  rw [if_neg (by simp [pgDie]), State.writeEffect_intvCtrl] at hwrite
  refine congrArg Host.Outcome.next (hwrite.trans (congrArg (State.respond · a .rgwa 0) ?_))
  rcases h with hmask | hpend
  · refine State.vectorResend_masked ?_
    rw [State.regN, State.reg_setReg_same, bit_written _ _ _ (by decide), if_pos (by decide), hmask]
  · refine State.vectorResend_idle ?_
    rw [State.regN, State.reg_setReg_same, bit_written _ _ _ (by decide), if_neg (by decide)]
    exact hpend

/-- Settles O33: on every page the three common registers are written as `writeCommon` says, on the page as its island
wakes (R381); INTV_CTRL is a register of DIE. -/
theorem interruptRegisterWrites : Obligations.InterruptRegisterWrites := by
  intro s a page p v hw hpriv hp hb hdark hawake cleared enabled
  rw [← hb] at hw hp hawake
  have hmapped := Page.mapped_of_pageAt hp
  have hreg {o : Nat} (ho : o < 0x100) : (s.wakeFor p).reg (p.base + o) = s.reg (p.base + o) :=
    State.reg_wakeFor hp hawake ho
  have hwrite {o : Nat} {r : RegRow} (hr : p.kind.rowAt o = some r) (hrl : r.rl = false) (hrs : r.rs = 0) (ho : o < 0x40)
      (hctrl : o ≠ 0x10) (h4 : o % 4 = 0) :
      s.accessWrite a (page.toNat + o) v = ((s.wakeFor p).writeCommon p r o v).respond a .rgwa 0 := by
    rw [← hb]
    exact accessWrite_common hw hpriv hp hdark hr hrl hrs ho hctrl h4
  have hstatus : exec (.intStatusWrite a page v) s =
      .next (((s.wakeFor p).writeCommon p (intStatusRow p.kind) 0x18 v).respond a .rgwa 0) :=
    congrArg _ (hwrite (rowAt_intStatus _) rfl rfl (by decide) (by decide) rfl)
  have henable : exec (.intEnableWrite a page v) s =
      .next (((s.wakeFor p).writeCommon p (intEnableRow p.kind) 0x1C v).respond a .rgwa 0) :=
    congrArg _ (hwrite (rowAt_intEnable _) rfl rfl (by decide) (by decide) rfl)
  have hcause : exec (.errCauseClear a page v) s =
      .next (((s.wakeFor p).writeCommon p errCauseRow 0x20 v).respond a .rgwa 0) :=
    congrArg _ (hwrite (rowAt_errCause _) rfl rfl (by decide) (by decide) rfl)
  refine ⟨⟨_, answers_common hw hstatus, ?_⟩, ⟨_, answers_common hw henable, ?_⟩, fun hlow hline => ?_,
    fun hlow hline => ?_, fun hv => ⟨_, answers_common hw hcause, ?_, ?_⟩, fun hk vec h => ?_⟩
  · rw [State.reg_respond, State.writeCommon_intStatus, State.reg_vectorTouched _ hmapped (by decide),
      State.reg_setReg_same, hreg (by decide)]
  · rw [State.reg_respond, State.writeCommon_intEnable, State.reg_vectorTouched _ hmapped (by decide),
      State.reg_setReg_same, hreg (by decide)]
  · rw [hstatus, State.wakeFor_of_low (by rw [hb]; exact hlow) hp, State.writeCommon_intStatus,
      State.vectorTouched_of_no_line hline]
  · rw [henable, State.wakeFor_of_low (by rw [hb]; exact hlow) hp, State.writeCommon_intEnable,
      State.vectorTouched_of_no_line hline]
  · have hcount := p.kind.countOff_range
    rw [State.regN_respond, State.writeCommon_errCause _ _ hv, State.regN, State.reg_setReg_other _ _ (by omega),
      State.reg_setReg_same, toNat_clear_valid _ hv, hreg (by decide)]
    rfl
  · rw [State.reg_respond, State.writeCommon_errCause _ _ hv, State.reg_setReg_same]
  · rw [eq_pgDie_of_pageAt hp hk] at hw
    exact exec_intvCtrlWrite hw hpriv vec h

end Sys2Proof.Machine

/-! ## Shadows and page commits (O35) -/

namespace Sys2Proof.Machine

/-- A die in service whose POWER page is pending, with EPOCH 0 and a shadow of 5 listed at the page's COMMIT_EPOCH. -/
def shadowedEpoch : State :=
  (({ State.reset with
      ports := [(0, { Port.initial with train := .up, fresh := false })]
      shad := [(0x48040, 5)] } : State).setRegN 0x1100 10).setRegN 0x48040 0x10000

/-- An access at level 0 through port 0. -/
def levelZero : Access := { port := 0, tag := 0, stream := 0, srcpos := 0, srcpkg := 0, priv := 0, msg := false }

theorem performs_shadowedEpoch : Performs shadowedEpoch levelZero 0x48000 :=
  ⟨by decide +kernel, by decide +kernel, by decide +kernel, by decide +kernel, by decide, by unfold Unarmed; decide +kernel⟩

/-- Adoption copies the listed shadow into COMMIT_EPOCH before it counts: EPOCH goes from 0 to 6. -/
theorem epoch_commitAdoption_shadowedEpoch : shadowedEpoch.regF 0x48040 0 16 = 0 ∧
    (shadowedEpoch.commitAdoption 0x48000).regF 0x48040 0 16 = 6 := by
  decide +kernel

/-- Refutes O35: the statement speaks of every state, and adoption copies every shadow that is listed for the page
(`copyShadows`), one of COMMIT_EPOCH among them, before it adds one to EPOCH (`shadowedEpoch`). In a reachable state only
RS fields have shadows, and COMMIT_EPOCH has none (R347). -/
theorem not_shadowRegistersAndCommits : ¬ Obligations.ShadowRegistersAndCommits := by
  intro h
  obtain ⟨-, -, hpending⟩ := h shadowedEpoch levelZero 0x48000 pgPower 0 performs_shadowedEpoch rfl rfl rfl (by decide)
    (by decide)
  obtain ⟨-, -, -, hadopt⟩ := hpending (by decide +kernel)
  obtain ⟨t, ht, -, hepoch, -⟩ := hadopt rfl rfl
  have hst : shadowedEpoch.commitAdoption 0x48000 = t := Host.Outcome.next.inj ht
  have hcounts : (shadowedEpoch.commitAdoption 0x48000).regF 0x48040 0 16 =
      (shadowedEpoch.regF 0x48040 0 16 + 1) % 2 ^ 16 := hst ▸ hepoch
  obtain ⟨hbefore, hafter⟩ := epoch_commitAdoption_shadowedEpoch
  rw [hbefore, hafter] at hcounts
  exact absurd hcounts (by decide)

end Sys2Proof.Machine

/-! ## The controller's period (O40) -/

namespace Sys2Proof.Machine

/-! ### Islands changed one after another -/

/-- Clusters `0` to `n - 1` are each passed to a change of its own island. -/
theorem State.island_foldl_range {g : State → Nat → State} {f : Nat → Island → Island}
    (hsame : ∀ u c, (g u c).island c = f c (u.island c)) (hother : ∀ u c i, i ≠ c → (g u c).island i = u.island i)
    (s : State) (n i : Nat) :
    ((List.range n).foldl g s).island i = if i < n then f i (s.island i) else s.island i := by
  induction n with
  | zero => simp
  | succ n ih =>
    rw [List.range_succ, List.foldl_append, List.foldl_cons, List.foldl_nil]
    by_cases h : i = n
    · subst h
      rw [hsame, ih, if_neg (Nat.lt_irrefl i), if_pos (Nat.lt_succ_self i)]
    · rw [hother _ _ _ h, ih]
      exact if_congr (by omega) rfl rfl

/-- The emergency limit one step up, where there is one (R373). -/
def Island.lifted (i : Island) : Island := if i.emergency < 15 then { i with emergency := i.emergency + 1 } else i

theorem State.island_emergencyLift (s : State) (i : Nat) :
    s.emergencyLift.island i = if i < 320 then (s.island i).lifted else s.island i := by
  refine State.island_foldl_range (f := fun _ x => x.lifted) (fun u c => ?_) (fun u c i h => ?_) s 320 i
  · dsimp only
    unfold Island.lifted
    split
    · exact State.island_setIsland_same _ _ _
    · rfl
  · dsimp only
    split
    · exact State.island_setIsland_other _ _ h
    · rfl

theorem State.emergencyLift_keep (s : State) : Keep [.islands] s s.emergencyLift :=
  have hl := Sub.refl [.islands]
  (Keep.refl _ s).emergencyLift

/-! ### Islands' energies that sending and raising leave (R364) -/

theorem State.energy_send (s : State) (t : Txn) : (s.send t).power.energy = s.power.energy := by
  have hactive (u : State) (island kind : Nat) (job n) : (u.active island kind job n).power.energy = u.power.energy := by
    unfold State.active
    split <;> rfl
  unfold State.send
  split
  · rfl
  · exact (hactive _ _ _ _ _).trans (hactive _ _ _ _ _)

theorem State.energy_freeTags (s : State) (port vc : Nat) : (s.freeTags port vc).power.energy = s.power.energy := by
  unfold State.freeTags
  dsimp only
  split
  · split
    · rfl
    · exact State.energy_send _ _
  · rfl

theorem State.energy_flush (s : State) (port stream : Nat) (why : Purpose) :
    (s.flush port stream why).power.energy = s.power.energy := by
  unfold State.flush State.request
  split
  · rfl
  · dsimp only
    split
    · exact State.energy_send _ _
    · exact State.energy_freeTags _ _ _

theorem State.energy_vectorSend (s : State) (v : Nat) : (s.vectorSend v).power.energy = s.power.energy := by
  unfold State.vectorSend
  dsimp only
  split
  · rfl
  · exact State.energy_flush _ _ _ _

theorem State.energy_raise (s : State) (p : Page) (bits : Nat) : (s.raise p bits).power.energy = s.power.energy := by
  unfold State.raise
  dsimp only
  split
  · rw [State.energy_vectorSend]
    split
    · exact State.energy_vectorSend _ _
    · rfl
  · split
    · exact State.energy_vectorSend _ _
    · rfl

/-! ### The accounts of a control period (R364, R376) -/

theorem SMap.getD_foldl_addTo (f : Nat → Nat) (m : SMap Nat) (n c : Nat) :
    SMap.getD ((List.range n).foldl (fun m c => addTo m c (f c)) m) c 0 =
      SMap.getD m c 0 + if c < n then f c else 0 := by
  induction n with
  | zero => simp
  | succ n ih =>
    rw [List.range_succ, List.foldl_append, List.foldl_cons, List.foldl_nil]
    unfold addTo at ih ⊢
    by_cases h : c = n
    · subst h
      rw [SMap.getD_putD_same, ih, if_neg (Nat.lt_irrefl c), if_pos (Nat.lt_succ_self c), Nat.add_zero]
    · rw [SMap.getD_putD_other _ _ _ _ h, ih]
      exact congrArg _ (if_congr (by omega) rfl rfl)

/-- The state with other energies in its tickets (R376). -/
def State.withTickets (s : State) (m : SMap Nat) : State := { s with power := { s.power with ticket := m } }

/-- What crediting jobs comes to. -/
def State.Credited (s t : State) : Prop := ∃ m, t = s.withTickets m

theorem State.credited_credit {s t : State} (h : s.Credited t) (job : Option Nat) (e : Nat) :
    s.Credited (t.credit job e).1 := by
  obtain ⟨m, rfl⟩ := h
  unfold State.credit
  split
  · exact ⟨_, rfl⟩
  · exact ⟨m, rfl⟩

theorem State.credited_foldl {α β : Type} {s : State} (π : β → State) {g : β → α → β} {l : List α} {b : β}
    (h : s.Credited (π b)) (hg : ∀ b x, s.Credited (π b) → s.Credited (π (g b x))) : s.Credited (π (l.foldl g b)) :=
  List.foldlRecOn (motive := fun b => s.Credited (π b)) l g h fun b hb x _ => hg b x hb

@[simp] theorem State.power_showPower (s : State) : s.showPower.power = s.power := rfl

theorem State.reg_showPower_other (s : State) {k : Nat} (h0 : k ≠ 0x48110) (h4 : k ≠ 0x48114) :
    s.showPower.reg k = s.reg k := by
  unfold State.showPower
  rw [State.reg_setRegN_other _ _ h4, State.reg_setRegN_other _ _ h0]

theorem State.reg_showEstimates_below (s : State) (e : Estimates) {k : Nat} (h : k < 0x1000000) :
    (s.showEstimates e).reg k = s.reg k := by
  have hadd (u : State) : (u.addInterval e).reg k = u.reg k :=
    State.reg_of_regs (((Keep.refl [.power] u).addInterval e (Sub.refl _)).same.same .regs (by decide)) k
  rw [State.showEstimates, hadd]
  exact State.reg_foldl (fun u c => State.reg_setRegN_other _ _ (by unfold clusterBase; omega)) _ s

/-- The accounts of a period: each cluster's calibrated energy goes to its island, the estimates to their registers. -/
theorem State.account_spec (s : State) (e : Estimates) :
    (∀ c, c < 320 → SMap.getD (s.account e).power.energy c 0 =
      SMap.getD s.power.energy c 0 + s.calib (domainOf c) (e.cluster c)) ∧
    ∀ k, k < 0x1000000 → k ≠ 0x48110 → k ≠ 0x48114 → (s.account e).reg k = s.reg k := by
  unfold State.account
  extract_lets total
  split
  next s1 dyn given e1 =>
  have h1 : s.Credited s1 := by
    rw [← show _ = s1 from congrArg Prod.fst e1]
    exact State.credited_foldl (β := State × Nat × Nat) Prod.fst ⟨s.power.ticket, rfl⟩
      fun _ _ hx => State.credited_credit hx _ _
  extract_lets link static
  split
  next s2 given2 e2 =>
  have h2 : s.Credited s2 := by
    rw [← show _ = s2 from congrArg Prod.fst e2]
    exact State.credited_foldl (β := State × Nat) Prod.fst h1 fun _ _ hx => State.credited_credit hx _ _
  split
  next s3 given3 e3 =>
  have h3 : s.Credited s3 := by
    rw [← show _ = s3 from congrArg Prod.fst e3]
    exact State.credited_foldl (β := State × Nat) Prod.fst h2 fun _ _ hx => State.credited_credit hx _ _
  obtain ⟨m, rfl⟩ := h3
  have hreg {k : Nat} (hk : k < 0x1000000) : ((s.withTickets m).showEstimates e).reg k = s.reg k :=
    State.reg_showEstimates_below _ e hk
  generalize (s.withTickets m).showEstimates e = shown at hreg ⊢
  refine ⟨fun c hc => ?_, fun k hk h0 h4 => ?_⟩
  · rw [State.power_showPower]
    dsimp only
    rw [SMap.getD_foldl_addTo, if_pos hc]
    rfl
  · rw [State.reg_showPower_other _ h0 h4]
    exact hreg hk

/-! ### What the emergency cut and the learner leave (R373, R374) -/

/-- Islands changed one after another, and nothing else. -/
theorem State.foldl_setIsland_keep (f : State → Nat → Island) (l : List Nat) (s : State) :
    Keep [.islands] s (l.foldl (fun t c => t.setIsland c (f t c)) s) :=
  have hl := Sub.refl [.islands]
  (Keep.refl _ s).foldl fun _ _ h => h.setIsland _ _

theorem State.reg_emergency_other (s : State) (mw : Nat) {k : Nat} (hk : 0x4804C ≤ k) (hc : k ≠ 0x4811C) :
    (s.emergency mw).reg k = s.reg k := by
  unfold State.emergency
  dsimp only
  split
  · rw [State.reg_raise_other _ _ (pgPower_not_records hk), State.reg_incReg_other _ _ hc,
      State.reg_of_regs ((State.foldl_setIsland_keep _ _ s).same.same .regs (by decide))]
  · rfl

theorem State.energy_emergency (s : State) (mw : Nat) : (s.emergency mw).power.energy = s.power.energy := by
  unfold State.emergency
  dsimp only
  split
  · rw [State.energy_raise, State.incReg_power, (State.foldl_setIsland_keep _ _ s).same.same .power (by decide)]
  · rfl

theorem learnKey_ge (e : Nat) : 0x48700 ≤ learnKey e := Nat.le_add_right _ _

/-- The learner's allocation leaves the registers below the learner's, and the islands' energies. -/
theorem State.learnAllocate_spec (s : State) : (∀ k, k < 0x48700 → s.learnAllocate.reg k = s.reg k) ∧
    s.learnAllocate.power.energy = s.power.energy := by
  unfold State.learnAllocate
  refine List.foldlRecOn (motive := fun t : State => (∀ k, k < 0x48700 → t.reg k = s.reg k) ∧
    t.power.energy = s.power.energy) _ _ ⟨fun _ _ => rfl, rfl⟩ fun t ⟨hreg, henergy⟩ x _ => ?_
  split
  · exact ⟨hreg, henergy⟩
  · split
    · exact ⟨hreg, henergy⟩
    · dsimp only
      split
      · next e _ =>
        have hkey := learnKey_ge e
        refine ⟨fun k hk => ?_, henergy⟩
        rw [State.reg_withPower, State.setSplit, State.reg_setRegN_other _ _ (by omega),
          State.reg_setRegN_other _ _ (by omega), hreg k hk]
      · exact ⟨hreg, henergy⟩

/-! ### The plan of R372 -/

/-- Every cluster of the plan's domains has its LIMIT, and a step within it. -/
def State.Bounds (s : State) (doms : List Dom) : Prop :=
  ∀ d i x y, doms[d]? = some x → x.cl[i]? = some y → y.limit = s.limitOf (16 * d + i) ∧ y.pick ≤ y.limit

/-- A change of a domain that moves its clusters' steps within their limits. -/
def Dom.StaysWithin (x x' : Dom) : Prop :=
  ∀ (i : Nat) (y' : Est), x'.cl[i]? = some y' →
    ∃ y, x.cl[i]? = some y ∧ y'.limit = y.limit ∧ (y.pick ≤ y.limit → y'.pick ≤ y'.limit)

theorem Dom.raise_staysWithin (x : Dom) : x.StaysWithin x.raise := by
  intro i y' h
  obtain ⟨y, hy, rfl⟩ := Option.map_eq_some_iff.1 (List.getElem?_map.symm.trans h)
  refine ⟨y, hy, ?_⟩
  split
  · next hroom => exact ⟨rfl, fun _ => hroom⟩
  · exact ⟨rfl, id⟩

theorem Dom.lower_staysWithin (x : Dom) : x.StaysWithin x.lower := by
  intro i y' h
  obtain ⟨y, hy, rfl⟩ := Option.map_eq_some_iff.1 (List.getElem?_map.symm.trans h)
  exact ⟨y, hy, rfl, fun hp => (Nat.min_le_left _ _).trans hp⟩

theorem getElem?_setAt {α : Type} (l : List α) (i j : Nat) (b : α) :
    (setAt l i b)[j]? = if j = i then l[j]?.map fun _ => b else l[j]? := by
  induction l generalizing i j with
  | nil => simp [setAt]
  | cons a l ih =>
    cases i with
    | zero => cases j <;> simp [setAt]
    | succ i => cases j <;> simp [setAt, ih]

theorem State.Bounds.setAt {s : State} {l : List Dom} (h : s.Bounds l) {j : Nat} {x x' : Dom} (hx : l[j]? = some x)
    (hw : x.StaysWithin x') : s.Bounds (setAt l j x') := by
  intro d i z y' hz hy'
  rw [getElem?_setAt] at hz
  split at hz
  · next hd =>
    subst hd
    obtain rfl : x' = z := by simpa [hx] using hz
    obtain ⟨y, hy, hlimit, hpick⟩ := hw i y' hy'
    obtain ⟨hl, hp⟩ := h d i x y hx hy
    exact ⟨hlimit.trans hl, hpick hp⟩
  · exact h d i z y' hz hy'

theorem State.Bounds.raiseGo {s : State} (base cap n : Nat) :
    ∀ (i : Nat) {l : List Dom}, s.Bounds l → s.Bounds (raiseGo base cap n i l) := by
  induction n with
  | zero => exact fun _ _ h => h
  | succ n ih =>
    intro i l h
    rw [Machine.raiseGo]
    split
    · exact h
    · next x hx =>
      split
      · exact ih _ h
      · dsimp only
        split
        · exact h
        · exact ih _ (h.setAt hx x.raise_staysWithin)

theorem State.Bounds.lowerGo {s : State} (base cap n : Nat) :
    ∀ (i : Nat) {l : List Dom}, s.Bounds l → s.Bounds (lowerGo base cap n i l) := by
  induction n with
  | zero => exact fun _ _ h => h
  | succ n ih =>
    intro i l h
    rw [Machine.lowerGo]
    split
    · exact h
    · split
      · exact h
      · next x hx =>
        split
        · exact ih _ h
        · exact ih _ (h.setAt hx x.lower_staysWithin)

theorem Est.best_le (e : Est) (allowance : Nat) : e.best allowance ≤ e.limit := by
  unfold Est.best
  cases h : (List.getLast? ((List.range 16).filter
    fun x => decide (x ≤ e.limit) && decide (e.at (e.mem + e.cmp) x x ≤ allowance))) with
  | none => exact Nat.zero_le _
  | some x =>
    have hx := (List.mem_filter.1 (List.mem_of_getLast? h)).2
    rw [Bool.and_eq_true] at hx
    exact of_decide_eq_true hx.1

theorem eq_of_getElem?_range {n i x : Nat} (h : (List.range n)[i]? = some x) : i = x := by
  obtain ⟨hi, hx⟩ := List.getElem?_eq_some_iff.1 h
  exact (List.getElem_range hi).symm.trans hx

/-- The domains as they start, each with its sixteen clusters' estimates. -/
theorem State.bounds_start {s : State} {ests : List Est}
    (h : ∀ (c : Nat) (y : Est), ests[c]? = some y → y.limit = s.limitOf c ∧ y.pick ≤ y.limit)
    (step : List Est → Nat) (leak : Nat → List Nat) :
    s.Bounds ((List.range 20).map fun d =>
      { step := step ((ests.drop (16 * d)).take 16), cl := (ests.drop (16 * d)).take 16, leak := leak d }) := by
  intro d i x y hx hy
  obtain ⟨d', hd', rfl⟩ := Option.map_eq_some_iff.1 (List.getElem?_map.symm.trans hx)
  obtain rfl : d = d' := eq_of_getElem?_range hd'
  dsimp only at hy
  rw [List.getElem?_take] at hy
  split at hy
  · rw [List.getElem?_drop] at hy
    exact h _ _ hy
  · cases hy

/-- A plan whose domains are bounded by LIMIT and whose mesh step by 9 (R370, R372). -/
structure State.Bounded (s : State) (p : Plan372) : Prop where
  doms : s.Bounds p.doms
  mesh : p.mesh ≤ 9

theorem getLast?_filter_range_le (P : Nat → Bool) (n : Nat) :
    (((List.range (n + 1)).filter P).getLast?).getD 0 ≤ n := by
  cases h : ((List.range (n + 1)).filter P).getLast? with
  | none => exact Nat.zero_le _
  | some x =>
    have hx := List.mem_range.1 (List.mem_filter.1 (List.mem_of_getLast? h)).1
    exact Nat.le_of_lt_succ hx

/-- The clusters as the controller sees them, before it chooses. -/
def State.ests (s : State) (e : Estimates) (run : List Nat) : List Est :=
  (List.range 320).map fun c =>
    let d := (e.dyn[c]?).getD (0, 0)
    { step := (run[c]?).getD 0, dom := s.domainStep (domainOf c), limit := s.limitOf c
      mem := toMw (s.calib (domainOf c) d.1), cmp := toMw (s.calib (domainOf c) d.2), pick := 0 }

theorem State.limit_of_ests {s : State} {e : Estimates} {run : List Nat} {c : Nat} {y : Est}
    (h : (s.ests e run)[c]? = some y) : y.limit = s.limitOf c := by
  obtain ⟨i, hi, rfl⟩ := Option.map_eq_some_iff.1 (List.getElem?_map.symm.trans h)
  obtain rfl : c = i := eq_of_getElem?_range hi
  rfl

theorem State.bounded_budget (s : State) (e : Estimates) (run holds : List Nat) :
    s.Bounded (s.budget e run holds) := by
  unfold State.budget
  extract_lets cap present
  rw [show present = s.ests e run from rfl]
  split
  extract_lets
  split
  extract_lets
  split
  extract_lets ests doms
  have hests (c : Nat) (y : Est) (hy : ests[c]? = some y) : y.limit = s.limitOf c ∧ y.pick ≤ y.limit := by
    obtain ⟨x, hx, rfl⟩ := Option.map_eq_some_iff.1 (List.getElem?_map.symm.trans hy)
    have hlimit : x.limit = s.limitOf c := State.limit_of_ests hx
    exact ⟨hlimit, Est.best_le x _⟩
  have hdoms : s.Bounds doms := State.bounds_start hests _ _
  constructor
  · dsimp only
    refine State.Bounds.lowerGo _ _ _ _ ?_
    split
    · exact hdoms.raiseGo _ _ _ _
    · exact hdoms
  · exact getLast?_filter_range_le _ 9

/-! ### The steps chosen -/

/-- The step that a plan gives a cluster. -/
def Plan372.stepOf (p : Plan372) (c : Nat) : Nat :=
  (((p.doms[c / 16]?).bind fun d => d.cl[c % 16]?).map (·.pick)).getD 0

theorem State.Bounds.stepOf_le {s : State} {p : Plan372} (h : s.Bounds p.doms) (c : Nat) : p.stepOf c ≤ s.limitOf c := by
  unfold Plan372.stepOf
  cases hd : p.doms[c / 16]? with
  | none => exact Nat.zero_le _
  | some x =>
    cases hy : x.cl[c % 16]? with
    | none => simp [hy]
    | some y =>
      obtain ⟨hlimit, hpick⟩ := h _ _ x y hd hy
      rw [Nat.div_add_mod] at hlimit
      simpa [hy, ← hlimit] using hpick

/-- The plan that a control period follows: its second budget (log entry 100). Irreducible, so that no proof evaluates the
controller. -/
@[irreducible] def State.plan (s : State) (e : Estimates) (run : List Nat) : Plan372 :=
  let first := s.budget e run ((List.range 20).map s.domainStep)
  s.budget e run ((List.range 20).map fun d => s.willHold d (((first.doms[d]?).map (·.step)).getD 0))

/-- The islands take the steps that a plan chooses. -/
def State.choose (s : State) (p : Plan372) : State :=
  let t := (List.range 320).foldl (fun t c => t.setIsland c { t.island c with want := p.stepOf c }) s
  t.setIsland 320 { t.island 320 with want := p.mesh }

/-- The domains go toward the steps that a plan chooses. -/
def State.steer (s : State) (p : Plan372) : State :=
  (List.range 20).foldl (fun t d => t.steerDomain d (((p.doms[d]?).map (·.step)).getD 0)) s

/-- BUDGET as it shows a plan's allowances (R377). -/
def Plan372.shown (p : Plan372) : Nat :=
  p.link / 1000 % 1024 + p.mem / 1000 % 1024 * 2 ^ 10 + p.cmp / 1000 % 1024 * 2 ^ 20

/-- The prediction for the next period (R373). -/
def State.prediction (s : State) (p : Plan372) : Nat :=
  p.base + ((List.range 20).map fun d =>
    (p.doms[d]?).map fun x => ({ x with step := s.domainStep d } : Dom).power).foldl (fun a p => a + p.getD 0) 0

/-- A state with another prediction. -/
def State.withPrediction (s : State) (n : Nat) : State := { s with power := { s.power with predicted := n } }

theorem State.reg_withPrediction (s : State) (n k : Nat) : (s.withPrediction n).reg k = s.reg k := rfl

theorem State.island_withPrediction (s : State) (n i : Nat) : (s.withPrediction n).island i = s.island i := rfl

theorem State.energy_withPrediction (s : State) (n : Nat) : (s.withPrediction n).power.energy = s.power.energy := rfl

/-- What a control period does with its plan. -/
theorem State.control_eq (s : State) (e : Estimates) (run : List Nat) : s.control e run =
    let p := s.plan e run
    let t := (s.choose p).steer p
    (t.setRegN 0x48118 p.shown).withPrediction (t.prediction p) := by
  unfold State.control State.plan State.choose State.steer Plan372.stepOf State.prediction Plan372.shown State.withPrediction
  dsimp only

theorem State.choose_keep (s : State) (p : Plan372) : Keep [.islands] s (s.choose p) :=
  have hl := Sub.refl [.islands]
  (State.foldl_setIsland_keep _ _ s).setIsland _ _

theorem State.island_choose (s : State) (p : Plan372) {c : Nat} (h : c < 320) :
    (s.choose p).island c = { s.island c with want := p.stepOf c } := by
  rw [State.choose, State.island_setIsland_other _ _ (Nat.ne_of_lt h),
    State.island_foldl_range (f := fun c x => { x with want := p.stepOf c })
      (fun _ _ => State.island_setIsland_same _ _ _) (fun _ _ _ h => State.island_setIsland_other _ _ h), if_pos h]

theorem State.steer_keep (s : State) (p : Plan372) : Keep [.sb, .power] s (s.steer p) :=
  have hl := Sub.refl [.sb, .power]
  (Keep.refl _ s).foldl fun _ _ h => h.steerDomain _ _

theorem State.energy_steerDomain (s : State) (d target : Nat) :
    (s.steerDomain d target).power.energy = s.power.energy := by
  unfold State.steerDomain
  dsimp only
  split
  · rfl
  · split
    · rfl
    · split <;> rfl

theorem State.energy_steer (s : State) (p : Plan372) : (s.steer p).power.energy = s.power.energy := by
  unfold State.steer
  exact List.foldlRecOn (motive := fun t : State => t.power.energy = s.power.energy) _ _ rfl
    fun _ ht _ _ => (State.energy_steerDomain _ _ _).trans ht

theorem State.reg_control_other (s : State) (e : Estimates) (run : List Nat) {k : Nat} (h : k ≠ 0x48118) :
    (s.control e run).reg k = s.reg k := by
  rw [State.control_eq]
  dsimp only
  rw [State.reg_withPrediction, State.reg_setRegN_other _ _ h,
    State.reg_of_regs ((State.steer_keep _ _).same.same .regs (by decide)),
    State.reg_of_regs ((State.choose_keep _ _).same.same .regs (by decide))]

theorem State.energy_control (s : State) (e : Estimates) (run : List Nat) :
    (s.control e run).power.energy = s.power.energy := by
  rw [State.control_eq]
  dsimp only
  rw [State.energy_withPrediction, State.setRegN_power, State.energy_steer, (State.choose_keep _ _).same.same .power (by decide)]

theorem State.island_of_islands {s t : State} (h : t.islands = s.islands) (i : Nat) : t.island i = s.island i := by
  simp only [State.island, h]

/-- A control period changes no cluster island but in its WANT. -/
theorem State.island_control (s : State) (e : Estimates) (run : List Nat) {c : Nat} (h : c < 320) :
    (s.control e run).island c = { s.island c with want := (s.plan e run).stepOf c } := by
  rw [State.control_eq]
  dsimp only
  rw [State.island_withPrediction, State.island_setRegN,
    State.island_of_islands ((State.steer_keep _ _).same.same .islands (by decide)), State.island_choose _ _ h]

theorem State.want_mesh_control (s : State) (e : Estimates) (run : List Nat) :
    ((s.control e run).island 320).want = (s.plan e run).mesh := by
  rw [State.control_eq]
  dsimp only
  rw [State.island_withPrediction, State.island_setRegN,
    State.island_of_islands ((State.steer_keep _ _).same.same .islands (by decide)), State.choose,
    State.island_setIsland_same]

theorem State.limitOf_control (s : State) (e : Estimates) (run : List Nat) {c : Nat} (h : c < 320) :
    (s.control e run).limitOf c = s.limitOf c := by
  have hfailed : (s.control e run).sensorFailed (sensorOf c) = s.sensorFailed (sensorOf c) := by
    rw [State.sensorFailed, State.regN, State.reg_control_other _ _ _ (by omega)]
    rfl
  have hstep : (s.control e run).regF 0x49108 0 4 = s.regF 0x49108 0 4 := by
    rw [State.regF, State.regN, State.reg_control_other _ _ _ (by decide)]
    rfl
  simp only [State.limitOf, hfailed, hstep, State.island_control s e run h]

theorem State.bounded_plan (s : State) (e : Estimates) (run : List Nat) : s.Bounded (s.plan e run) := by
  unfold State.plan
  exact State.bounded_budget _ _ _ _

/-- No cluster is wanted above its LIMIT, nor the mesh above step 9 (R370, R372). -/
theorem State.wants_control (s : State) (e : Estimates) (run : List Nat) :
    (∀ c, c < 320 → ((s.control e run).island c).want ≤ (s.control e run).limitOf c) ∧
      ((s.control e run).island 320).want ≤ 9 := by
  obtain ⟨hdoms, hmesh⟩ := s.bounded_plan e run
  constructor
  · intro c hc
    rw [State.limitOf_control _ _ _ hc, State.island_control _ _ _ hc]
    exact hdoms.stepOf_le c
  · rw [State.want_mesh_control]
    exact hmesh

/-! ### CAP_EFF (R369) -/

/-- A register of POWER that a control period leaves before it shows CAP_EFF: CAP, CAP_LIMIT and JOB_CAP are among
them. -/
def PeriodKeeps (k : Nat) : Prop := 0x48100 ≤ k ∧ k < 0x48700 ∧ k ≠ 0x48110 ∧ k ≠ 0x48114 ∧ k ≠ 0x4811C

theorem State.capEff_of_same {s t : State} (hops : t.ops = s.ops) (hreg : ∀ k, PeriodKeeps k → t.reg k = s.reg k) :
    t.capEff = s.capEff := by
  have hjobs (job : Nat) : t.jobRuns job = s.jobRuns job := by
    simp only [State.jobRuns, State.accepted, hops]
  have hcaps : ∀ k < 4, t.regN (0x48610 + 4 * k) = s.regN (0x48610 + 4 * k) := fun k hk =>
    congrArg BitVec.toNat (hreg _ (by unfold PeriodKeeps; omega))
  have hcap : t.regF 0x48100 0 10 = s.regF 0x48100 0 10 := by
    rw [State.regF, State.regN, hreg _ (by unfold PeriodKeeps; decide)]
    rfl
  have hlimit : t.regF 0x48104 0 10 = s.regF 0x48104 0 10 := by
    rw [State.regF, State.regN, hreg _ (by unfold PeriodKeeps; decide)]
    rfl
  unfold State.capEff
  rw [hcap, hlimit]
  refine List.foldl_ext _ _ _ fun x k hk => ?_
  dsimp only
  rw [hcaps k (List.mem_range.1 hk), hjobs]

theorem State.capEff_lt (s : State) : s.capEff < 2 ^ 10 := by
  unfold State.capEff
  refine List.foldlRecOn (motive := fun x => x < 2 ^ 10) _ _
    ((Nat.min_le_left _ _).trans_lt (Nat.mod_lt _ (by decide))) fun x hx k _ => ?_
  dsimp only
  split
  · exact (Nat.min_le_left _ _).trans_lt hx
  · exact hx

/-! ### One control period -/

/-- The state in which a control period computes CAP_EFF: energies accounted, emergencies cut, phases allocated. -/
def State.metered (s : State) (e : Estimates) (mw : Nat) : State := ((s.account e).emergency mw).learnAllocate

theorem State.metered_keep (s : State) (e : Estimates) (mw : Nat) :
    Keep [.regs, .islands, .ports, .out, .outst, .vecBusy, .power] s (s.metered e mw) :=
  have hl := Sub.refl [.regs, .islands, .ports, .out, .outst, .vecBusy, .power]
  (((Keep.refl _ s).account e).emergency mw).learnAllocate

theorem State.reg_metered (s : State) (e : Estimates) (mw : Nat) {k : Nat} (h : PeriodKeeps k) :
    (s.metered e mw).reg k = s.reg k := by
  obtain ⟨hlo, hhi, h0, h4, hc⟩ := h
  rw [State.metered, (State.learnAllocate_spec _).1 k hhi, State.reg_emergency_other _ _ (by omega) hc,
    (s.account_spec e).2 k (by omega) h0 h4]

theorem State.energy_metered (s : State) (e : Estimates) (mw : Nat) {c : Nat} (h : c < 320) :
    SMap.getD (s.metered e mw).power.energy c 0 =
      SMap.getD s.power.energy c 0 + s.calib (domainOf c) (e.cluster c) := by
  rw [State.metered, (State.learnAllocate_spec _).2, State.energy_emergency, (s.account_spec e).1 c h]

theorem State.controlPeriod_idle {s : State} (h : s.stopped = true ∨ s.bootStep < 4 ∨ s.bootStep = 11) :
    s.controlPeriod = s :=
  if_pos (by simpa [or_assoc] using h)

theorem State.controlPeriod_eq {s : State} (hs : s.stopped = false) (h4 : 4 ≤ s.bootStep) (h11 : s.bootStep ≠ 11) :
    ∃ mw, s.controlPeriod = ((s.metered s.estimates mw).setRegN 0x48134 (s.metered s.estimates mw).capEff).control
      s.estimates ((List.range 320).map s.runStep) :=
  ⟨_, if_neg (by simp [hs, h11]; omega)⟩

/-- Settles O40: the accounts by `account_spec`, CAP_EFF because what precedes it leaves CAP, CAP_LIMIT and JOB_CAP, the
steps because both phases of R372 move a domain's clusters within their limits (`raise_staysWithin`,
`lower_staysWithin`). That no period acts after a shutdown is log entry 59, that one acts in isolation log entry 76. -/
theorem controllerStaysWithinLimits : Obligations.ControllerStaysWithinLimits := by
  intro s
  refine ⟨fun h => congrArg _ (State.controlPeriod_idle h), fun hs h4 h11 => ⟨_, rfl, ?_⟩,
    ⟨_, rfl, fun c hc => ?_, fun c hc => ?_, fun f hf => ?_⟩, ⟨_, rfl, ?_, ?_⟩⟩
  · obtain ⟨mw, heq⟩ := State.controlPeriod_eq hs h4 h11
    rw [heq]
    refine ⟨fun c hc => ?_, ?_, State.wants_control _ _ _⟩
    · rw [State.energy_control, State.setRegN_power, State.energy_metered _ _ _ hc]
    · have hcap : (s.metered s.estimates mw).capEff = s.capEff :=
        State.capEff_of_same ((s.metered_keep _ _).same.same .ops (by decide)) fun _ hk => s.reg_metered _ _ hk
      rw [State.regN, State.reg_control_other _ _ _ (by decide), State.reg_setRegN_same, hcap,
        toNat_w32 (s.capEff_lt.trans (by decide))]
  · exact (s.island_emergencyLift c).trans (if_pos hc)
  · exact (s.island_emergencyLift c).trans (if_neg (by omega))
  · exact s.emergencyLift_keep.same.same f (by simpa using hf)
  · have hkey : ¬ pgPower.records 0x481F8 := pgPower_not_records (by decide)
    rw [State.calStale, State.regN, State.reg_raise_other _ _ hkey]
    exact State.bit_setRegF_same _ _ (by decide)
  · exact State.bit_raise_status _ pgPower_aboveVectors (by decide)

end Sys2Proof.Machine

/-! ## Heat, the ladder and the health monitor (O53) -/

namespace Sys2Proof.Machine

/-- A die whose sensor 0 has just read 125 °C, while the FLUSH of an interrupt message is out with a vector number that
puts the vector's control register (20Ch + 16v, R330) at sensor 3's TEMP. -/
def hotWithStrayFlush : State :=
  { State.reset with
    therm := { hot := [0] }
    outst := [⟨0, .flush, 0, 0, 0, 1, .vectorFlush 0x4900, none⟩] }

/-- A second reading of 125 °C stops the die, and the stray vector's PEND sets bit 1 of sensor 3's TEMP. -/
theorem reg_thermalSample_strayFlush :
    (hotWithStrayFlush.thermalSample [some 500]).reg 0x4920C = 2 ∧ hotWithStrayFlush.reg 0x4920C = 0 := by
  decide +kernel

/-- Refutes O53: the statement speaks of every state, and the stop sequence sets PEND of the vector that each outstanding
FLUSH of an interrupt names (`dropTraffic`). Vector 4900h, which the die does not have and no reachable state names, has
its control register at 4920Ch, THERM's TEMP3: a sample without a reading of sensor 3 that stops the die for sensor 0
changes it from 0 to 2, where the statement keeps it. -/
theorem not_heatLadderAndHealth : ¬ Obligations.HeatLadderAndHealth := by
  rintro ⟨hsample, -⟩
  obtain ⟨t, ht, hsensors⟩ := hsample hotWithStrayFlush [some 500]
  obtain ⟨-, -, hunread⟩ := hsensors 3 (by decide)
  have hst : hotWithStrayFlush.thermalSample [some 500] = t := Host.Outcome.next.inj ht
  have hkept : (hotWithStrayFlush.thermalSample [some 500]).reg 0x4920C = hotWithStrayFlush.reg 0x4920C :=
    hst ▸ (hunread (.inl rfl)).1
  obtain ⟨hafter, hbefore⟩ := reg_thermalSample_strayFlush
  rw [hafter, hbefore] at hkept
  exact absurd hkept (by decide)

end Sys2Proof.Machine

/-! ## Communication groups (O51) -/

namespace Sys2Proof.Machine

/-! ### Records sent to the members (R430, R431) -/

/-- Where the record of a round goes: the concord window of the member, at the sender's own slot. -/
def Group.recordAddr (g : Group) (m round : Nat) : Nat :=
  8 * 2 ^ 48 + 2 ^ 40 * fld (g.member m) 8 8 + 2 ^ 36 * fld (g.member m) 0 4 + 2 ^ 27 * g.cluster + 2 ^ 21 * g.handle
    + concordOff g.self round

/-- The record of a round to a member stands among the outstanding transactions. -/
def State.RecordOut (s : State) (gi : Nat) (g : Group) (m round : Nat) : Prop :=
  ∃ x ∈ s.outst, x.purpose = .concord gi m (2 * g.exchange + round) ∧ x.op = .wwr ∧ x.addr = g.recordAddr m round

abbrev sendFields : List Field := [.ports, .out, .outst, .power]

theorem State.concordSend_keep (s : State) (gi : Nat) (g : Group) (m round : Nat) (d : List Byte) :
    Keep sendFields s (s.concordSend gi g m round d) :=
  have hl := Sub.refl sendFields
  (Keep.refl _ s).concordSend gi g m round d

theorem State.recordOut_concordSend {s : State} (h : s.mute = false) (gi : Nat) (g : Group) (m round : Nat)
    (d : List Byte) : (s.concordSend gi g m round d).RecordOut gi g m round := by
  obtain ⟨x, hx, hop, hwhy, haddr, -⟩ := State.outst_request h
    { port := 15, op := .wwr, stream := 15, addr := g.recordAddr m round, words := 16, fmt := 9, data := fitBytes 64 d }
    (.concord gi m (2 * g.exchange + round)) (memberPkg (g.member m) != 0xFF)
  exact ⟨x, hx, hwhy, hop, haddr⟩

theorem State.RecordOut.concordSend {s : State} {gi : Nat} {g : Group} {m round : Nat} (h : s.RecordOut gi g m round)
    (n r : Nat) (d : List Byte) : (s.concordSend gi g n r d).RecordOut gi g m round := by
  obtain ⟨x, hx, hrecord⟩ := h
  exact ⟨x, State.mem_outst_request hx _ _ _, hrecord⟩

theorem State.RecordOut.of_outst {s t : State} {gi : Nat} {g : Group} {m round : Nat} (h : s.RecordOut gi g m round)
    (ho : t.outst = s.outst) : t.RecordOut gi g m round := by
  rw [State.RecordOut, ho]; exact h

/-- One record to each slot of a list. -/
def State.concordSends (s : State) (gi : Nat) (g : Group) (round : Nat) (d : List Byte) (l : List Nat) : State :=
  l.foldl (fun t m => t.concordSend gi g m round d) s

theorem State.concordSends_keep (s : State) (gi : Nat) (g : Group) (round : Nat) (d : List Byte) (l : List Nat) :
    Keep sendFields s (s.concordSends gi g round d l) :=
  have hl := Sub.refl sendFields
  (Keep.refl _ s).foldl fun _ _ h => h.concordSend _ _ _ _ _

@[simp] theorem State.group_concordSends (s : State) (gi : Nat) (g : Group) (round : Nat) (d : List Byte) (l : List Nat)
    (k : Nat) : (s.concordSends gi g round d l).group k = s.group k :=
  State.group_of_groups ((s.concordSends_keep gi g round d l).same.same .groups (by decide)) k

theorem State.RecordOut.concordSends {s : State} {gi : Nat} {g : Group} {m round : Nat} (h : s.RecordOut gi g m round)
    (d : List Byte) (l : List Nat) : (s.concordSends gi g round d l).RecordOut gi g m round := by
  induction l generalizing s with
  | nil => exact h
  | cons n l ih => exact ih (h.concordSend n round d)

/-- Every slot of the list gets its record. -/
theorem State.recordOut_concordSends {s : State} (h : s.mute = false) (gi : Nat) (g : Group) (round : Nat) (d : List Byte)
    {l : List Nat} {m : Nat} (hm : m ∈ l) : (s.concordSends gi g round d l).RecordOut gi g m round := by
  induction l generalizing s with
  | nil => cases hm
  | cons n l ih =>
    rcases List.mem_cons.1 hm with rfl | hm
    · exact (State.recordOut_concordSend h gi g m round d).concordSends d l
    · exact ih (((s.concordSend_keep gi g n round d).same.same .mute (by decide)).trans h) hm

/-! ### The two rounds of an exchange (R431) -/

/-- The entry once its exchange has started: the own record's digest and words, and when it was sent to each member. -/
def State.opened (s : State) (g : Group) : Group :=
  { g with
    digest := concordDigest (s.regN 0x1108) s.numericMode s.features g.epoch.toNat
    round2 := false
    mine := [s.regN 0x1108, s.numericMode, s.features, g.epoch.toNat]
    sent := g.others.foldl (fun m k => SMap.put m k (s.time.now % 2 ^ 32)) [] }

/-- Round 1 sends one record to every other member. -/
theorem State.concordStart_eq (s : State) (gi : Nat) : ∃ d, s.concordStart gi =
    (s.setGroup gi (s.opened (s.group gi))).concordSends gi (s.opened (s.group gi)) 0 d
      (s.opened (s.group gi)).others :=
  ⟨_, rfl⟩

/-- Round 2 sends one record to every other member of the package. -/
theorem State.concordSecond_eq (s : State) (gi : Nat) : ∃ d, s.concordSecond gi =
    (s.setGroup gi { s.group gi with round2 := true }).concordSends gi (s.group gi) 1 d (s.group gi).peers :=
  ⟨_, rfl⟩

theorem Group.exchanging_iff {g : Group} :
    g.exchanging = true ↔ (g.st = .forming ∨ g.st = .fencing) ∧ g.sent ≠ [] := by
  simp [Group.exchanging]

theorem State.concordRound_of_not {s : State} {gi : Nat} (h : ¬ ((s.group gi).exchanging = true ∧
    (s.group gi).round2 = false ∧ ∀ m ∈ (s.group gi).others, s.concordHas gi (s.group gi) m 0 = true)) :
    s.concordRound gi = s :=
  if_neg (by simpa [and_assoc] using h)

theorem State.concordRound_of {s : State} {gi : Nat} (hx : (s.group gi).exchanging = true)
    (h2 : (s.group gi).round2 = false) (hall : ∀ m ∈ (s.group gi).others, s.concordHas gi (s.group gi) m 0 = true) :
    s.concordRound gi = s.concordSecond gi :=
  if_pos (by simpa [hx, h2] using hall)

/-! ### The mask of an evaluation (R432) -/

/-- Bits 0 to 5 of a sum of flags that leaves bit 4 out. -/
theorem bit_flags (a b c d e : Bool) (j : Nat) :
    bit (b2n a + 2 * b2n b + 4 * b2n c + 8 * b2n d + 32 * b2n e) j = ([a, b, c, d, false, e][j]?).getD false := by
  match j with
  | 0 | 1 | 2 | 3 | 4 | 5 => revert a b c d e; decide
  | n + 6 =>
    have hlt : b2n a + 2 * b2n b + 4 * b2n c + 8 * b2n d + 32 * b2n e < 2 ^ 6 := by
      revert a b c d e; decide
    rw [bit_eq_testBit, Nat.testBit_lt_two_pow (hlt.trans_le (Nat.pow_le_pow_right (by decide) (by omega)))]
    rfl

/-- A member's round-1 record holds another digest than that of its words. -/
def State.DigestBad (s : State) (g : Group) (m : Nat) : Prop :=
  toLE 4 (s.concordWord g m 0 0) ++ toLE 4 (s.concordWord g m 0 1) ≠
    concordDigest (s.concordWord g m 0 2) (s.concordWord g m 0 3) (s.concordWord g m 0 4) (s.concordWord g m 0 5)

/-- What a bit of MASK says of a member's round-1 record. -/
def State.RecordBad (s : State) (g : Group) (m j : Nat) : Prop :=
  if j < 4 then s.concordWord g m 0 (2 + j) ≠ (g.mine[j]?).getD 0 else j = 5 ∧ s.DigestBad g m

theorem State.bit_fieldMask (s : State) (g : Group) (m j : Nat) :
    bit (s.fieldMask g m) j = true ↔ s.RecordBad g m j := by
  simp only [State.fieldMask, bit_flags]
  match j with
  | 0 | 1 | 2 | 3 | 4 | 5 => simp [State.RecordBad, State.DigestBad]
  | n + 6 => simp [State.RecordBad]

theorem bit_foldl_or (f : Nat → Nat) (l : List Nat) (a j : Nat) :
    bit (l.foldl (fun a m => a ||| f m) a) j = true ↔ bit a j = true ∨ ∃ m ∈ l, bit (f m) j = true := by
  induction l generalizing a with
  | nil => simp
  | cons m l ih => simp [ih, or_assoc]

/-- MASK of an evaluation: what the members' round-1 records and the skews toward those of the package set. -/
def State.exchangeMask (s : State) (g : Group) : Nat :=
  g.others.foldl (fun a m => a ||| s.fieldMask g m) 0 |||
    if g.peers.any fun m => decide (200 < s.skewTwice g m) then 16 else 0

theorem bit_sixteen (b : Bool) (j : Nat) : bit (if b then 16 else 0) j = true ↔ b = true ∧ j = 4 := by
  cases b
  · simp [bit_eq_testBit]
  · simp [bit_eq_testBit, Nat.testBit_two_pow (n := 4), eq_comm]

/-- What a bit of MASK says of the whole exchange. -/
def State.ExchangeBad (s : State) (g : Group) (j : Nat) : Prop :=
  if j < 4 then ∃ m ∈ g.others, s.concordWord g m 0 (2 + j) ≠ (g.mine[j]?).getD 0
  else if j = 4 then ∃ m ∈ g.peers, 200 < s.skewTwice g m
  else j = 5 ∧ ∃ m ∈ g.others, s.DigestBad g m

theorem State.bit_exchangeMask (s : State) (g : Group) (j : Nat) :
    bit (s.exchangeMask g) j = true ↔ s.ExchangeBad g j := by
  have hzero : bit 0 j = false := by rw [bit_eq_testBit, Nat.zero_testBit]
  rw [State.exchangeMask, bit_or, Bool.or_eq_true, bit_foldl_or, bit_sixteen, List.any_eq_true]
  simp only [hzero, Bool.false_eq_true, false_or, State.bit_fieldMask, decide_eq_true_eq, State.RecordBad,
    State.ExchangeBad]
  split_ifs with hfield hskew
  · simp [show j ≠ 4 by omega]
  · simp [hskew]
  · simp [hskew, and_left_comm]

theorem eq_zero_of_bits {n : Nat} (h : ∀ j, ¬ bit n j = true) : n = 0 :=
  Nat.zero_of_testBit_eq_false fun j => by rw [← bit_eq_testBit]; exact Bool.eq_false_iff.2 (h j)

/-! ### The verdict (R432) -/

theorem State.group_groupVerdict_formed (s : State) (gi : Nat) :
    (s.groupVerdict gi 0).group gi = { s.group gi with st := .formed, mask := 0 } := by
  have hraised (b : Bool) (t : State) : (if b then t.raise pgGroup 4 else t).group gi = t.group gi := by
    split
    · exact State.group_raise _ _ _ _
    · rfl
  simp only [State.groupVerdict, if_true]
  split
  · rw [State.finish, State.group_modOp, hraised, State.group_setGroup_same]
  · rw [hraised, State.group_setGroup_same]

/-- A verdict with a mask raises GROUP's interrupt for DISCORD. -/
theorem State.bit_groupVerdict_discord {s : State} {gi mask : Nat} (h : mask ≠ 0) :
    bit ((s.groupVerdict gi mask).regN 0x50018) 1 = true := by
  have hraised : bit (((s.setGroup gi { s.group gi with st := .discord, mask := mask }).raise pgGroup 2).regN 0x50018) 1 =
      true := State.bit_raise_status _ (p := pgGroup) ⟨by decide, by decide⟩ (by decide)
  simp only [State.groupVerdict, h, if_false]
  split
  · rw [State.regN, State.reg_failWith]
    exact hraised
  · exact hraised

/-- The verdict of an exchange: its mask, FORMED without one, DISCORD and its interrupt otherwise. -/
theorem State.groupVerdict_exchangeMask (s u : State) (gi : Nat) (g : Group) :
    let t := u.groupVerdict gi (s.exchangeMask g)
    (∀ j, bit (t.group gi).mask j = true ↔ s.ExchangeBad g j) ∧
      ((∀ j, ¬ s.ExchangeBad g j) → (t.group gi).st = .formed) ∧
      ((∃ j, s.ExchangeBad g j) → (t.group gi).st = .discord ∧ bit (t.regN 0x50018) 1 = true) := by
  intro t
  have hbits := s.bit_exchangeMask g
  by_cases hzero : s.exchangeMask g = 0
  · have hgood (j : Nat) : ¬ s.ExchangeBad g j := by
      rw [← hbits, hzero, bit_eq_testBit, Nat.zero_testBit]
      decide
    have hgroup : t.group gi = { u.group gi with st := .formed, mask := 0 } := by
      rw [← State.group_groupVerdict_formed, ← hzero]
    rw [hgroup]
    exact ⟨fun j => hzero ▸ hbits j, fun _ => rfl, fun ⟨j, hj⟩ => absurd hj (hgood j)⟩
  · have hgroup : t.group gi = { u.group gi with st := .discord, mask := s.exchangeMask g } :=
      State.group_groupVerdict_discord hzero
    rw [hgroup]
    exact ⟨hbits, fun hgood => absurd (eq_zero_of_bits fun j => (hbits j).not.2 (hgood j)) hzero,
      fun _ => ⟨rfl, State.bit_groupVerdict_discord hzero⟩⟩

theorem State.concordEvaluate_of_not {s : State} {gi : Nat} (h : ¬ ((s.group gi).exchanging = true ∧
    (s.group gi).round2 = true ∧ ∀ m ∈ (s.group gi).peers, s.concordHas gi (s.group gi) m 1 = true)) :
    s.concordEvaluate gi = s :=
  if_pos (by
    rw [Bool.not_eq_true', Bool.eq_false_iff]
    simpa [and_assoc] using h)

/-- An evaluation stores the worst skew and takes the verdict of the mask. -/
theorem State.concordEvaluate_of {s : State} {gi : Nat} (hx : (s.group gi).exchanging = true)
    (h2 : (s.group gi).round2 = true) (hall : ∀ m ∈ (s.group gi).peers, s.concordHas gi (s.group gi) m 1 = true)
    (hmask : (s.group gi).mask = 0) :
    ∃ u : State, s.concordEvaluate gi = u.groupVerdict gi (s.exchangeMask (s.group gi)) := by
  have hall' : ((s.group gi).peers.all fun m => s.concordHas gi (s.group gi) m 1) = true := List.all_eq_true.2 hall
  simp only [State.concordEvaluate, hx, h2, hall', hmask, Bool.and_self, Bool.not_true, Bool.false_eq_true, if_false,
    Nat.zero_or, List.any_map, Function.comp_def]
  exact ⟨_, rfl⟩

/-! ### FORM and DISSOLVE (R429, R434) -/

theorem State.ownSlots_eq (s : State) (g : Group) : s.ownSlots g =
    ((List.range 16).filter fun m => bit (g.member m) 31).filter fun m =>
      fld (g.member m) 0 4 == s.pos && fld (g.member m) 8 8 == 0xFF := by
  rw [List.filter_filter, State.ownSlots]
  refine List.filter_congr fun m _ => ?_
  rw [memberValid, memberPos, memberPkg, Bool.and_assoc, Bool.and_comm]

/-- What FORM asks of the entry, its members and its window. -/
def State.MayForm (s : State) (gi : Nat) : Prop :=
  let g := s.group gi
  let e := s.handle g.cluster g.handle
  g.st = .empty ∧ s.admitSt ≠ 3 ∧ 2 ≤ ((List.range 16).filter fun m => memberValid (g.member m)).length ∧
    (s.ownSlots g).length = 1 ∧ g.cluster < 320 ∧ s.windowOpen g.cluster g.handle = true ∧ e.fmt = 9 ∧ e.tagMode = 0 ∧
    2048 ≤ e.extent

theorem State.formRefused_eq_false_iff (s : State) (gi : Nat) : s.formRefused gi = false ↔ s.MayForm gi := by
  simp only [State.formRefused, State.MayForm, and_assoc, Bool.or_eq_false_iff, bne_eq_false_iff_eq,
    beq_eq_false_iff_ne, decide_eq_false_iff_not, Bool.not_eq_false', not_lt, not_le, ne_eq, not_not, Nat.reduceMul]

/-- The entry that FORM leaves, before its exchange starts. -/
def State.formingGroup (s : State) (gi : Nat) : Group :=
  { s.group gi with
    st := .forming, mask := 0, exchange := 0, lost := 0, skew := 0, skewPos := 0, sent := [], round2 := false
    self := ((s.ownSlots (s.group gi)).head?).getD 0 }

/-- FORM starts round 1 on that entry. -/
theorem State.form_eq (s : State) (gi : Nat) : ∃ d, s.form gi =
    ((s.setGroup gi (s.formingGroup gi)).setGroup gi (s.opened (s.formingGroup gi))).concordSends gi
      (s.opened (s.formingGroup gi)) 0 d (s.opened (s.formingGroup gi)).others := by
  obtain ⟨d, h⟩ := (s.setGroup gi (s.formingGroup gi)).concordStart_eq gi
  rw [State.group_setGroup_same] at h
  exact ⟨d, h⟩

theorem State.group_form (s : State) (gi : Nat) : (s.form gi).group gi = s.opened (s.formingGroup gi) := by
  obtain ⟨d, h⟩ := s.form_eq gi
  rw [h, State.group_concordSends, State.group_setGroup_same]

/-- The records of round 1 are under way. -/
theorem State.recordOut_form {s : State} (h : s.mute = false) {gi m : Nat}
    (hm : m ∈ (s.opened (s.formingGroup gi)).others) : (s.form gi).RecordOut gi (s.opened (s.formingGroup gi)) m 0 := by
  obtain ⟨d, hd⟩ := s.form_eq gi
  rw [hd]
  exact State.recordOut_concordSends (by rw [State.setGroup_mute, State.setGroup_mute, h]) gi _ 0 d hm

/-- The members other than SELF are those that round 1 is sent to. -/
theorem State.mem_others_formingGroup {s : State} {gi m : Nat}
    (hm : m ∈ (List.range 16).filter fun k => memberValid ((s.group gi).member k))
    (hself : m ≠ (s.formingGroup gi).self) :
    m ∈ (s.opened (s.formingGroup gi)).others := by
  obtain ⟨hrange, hvalid⟩ := List.mem_filter.1 hm
  exact List.mem_filter.2 ⟨hrange, Bool.and_eq_true_iff.2 ⟨hvalid, bne_iff_ne.2 hself⟩⟩

/-- The one slot that names this die becomes SELF. -/
theorem State.ownSlots_of_length {s : State} {gi : Nat} (h : (s.ownSlots (s.group gi)).length = 1) :
    s.ownSlots (s.group gi) = [(s.formingGroup gi).self] := by
  obtain ⟨m, hm⟩ := List.length_eq_one_iff.1 h
  simp [State.formingGroup, hm]

theorem State.form_keep (s : State) (gi : Nat) : Keep [.ports, .out, .outst, .groups, .power] s (s.form gi) :=
  have hl := Sub.refl [.ports, .out, .outst, .groups, .power]
  (Keep.refl _ s).form gi

/-- The FENCE in progress that DISSOLVE ends: none on an EMPTY entry. -/
def State.fenceOf (s : State) (gi : Nat) : Option Nat :=
  if (s.group gi).st == .empty then none else s.groupFence gi

theorem State.fenceOf_eq_none {s : State} {gi : Nat} (h : (s.group gi).st = .empty ∨ s.groupFence gi = none) :
    s.fenceOf gi = none := by
  rw [State.fenceOf]
  rcases h with hst | hnone
  · exact if_pos (beq_iff_eq.2 hst)
  · rw [hnone, ite_self]

theorem State.fenceOf_of_not_empty {s : State} {gi : Nat} (h : (s.group gi).st ≠ .empty) :
    s.fenceOf gi = s.groupFence gi :=
  if_neg (by simpa using h)

/-- The entry that DISSOLVE leaves. -/
def State.dissolvedGroup (s : State) (gi : Nat) : Group :=
  { s.group gi with
    st := .empty, mask := if (s.fenceOf gi).isSome then 128 else 0, exchange := 0, lost := 0, self := 0, sent := []
    round2 := false }

theorem State.mask_dissolvedGroup (s : State) (gi : Nat) :
    (s.dissolvedGroup gi).mask = if (s.fenceOf gi).isSome then 128 else 0 := rfl

theorem State.dissolve_of_none {s : State} {gi : Nat} (h : s.fenceOf gi = none) :
    s.dissolve gi = s.setGroup gi (s.dissolvedGroup gi) := by
  rw [State.fenceOf] at h
  simp only [State.dissolve, State.dissolvedGroup, State.fenceOf, h]

theorem State.dissolve_of_some {s : State} {gi id : Nat} (h : s.fenceOf gi = some id) :
    s.dissolve gi = (s.setGroup gi (s.dissolvedGroup gi)).failWith id 0x23 := by
  rw [State.fenceOf] at h
  simp only [State.dissolve, State.dissolvedGroup, State.fenceOf, h]

theorem State.group_dissolve (s : State) (gi : Nat) : (s.dissolve gi).group gi = s.dissolvedGroup gi := by
  cases h : s.fenceOf gi with
  | none => rw [State.dissolve_of_none h, State.group_setGroup_same]
  | some id => rw [State.dissolve_of_some h, State.group_failWith, State.group_setGroup_same]

theorem State.dissolve_keep (s : State) (gi : Nat) : Keep [.ops, .groups, .securing] s (s.dissolve gi) :=
  have hl := Sub.refl [.ops, .groups, .securing]
  (Keep.refl _ s).dissolve gi

/-- DISSOLVE ends the FENCE in progress with DISCORD. -/
theorem State.op_dissolve {s : State} {gi id : Nat} {o : OpRec} (h : s.fenceOf gi = some id) (ho : s.op id = some o)
    (hk : o.kind ≠ .secure) (he : o.ended = false) :
    ∃ p, (s.dissolve gi).op id = some p ∧ p.status = 0x23 ∧ p.phase = .finished := by
  have hfail := State.op_failWith_of_not_secure (s := s.setGroup gi (s.dissolvedGroup gi)) ho hk 0x23
  rw [OpRec.finishedWith_of_not_ended (o := o.stopWith 0x23) he] at hfail
  exact ⟨_, (State.dissolve_of_some h) ▸ hfail, rfl, rfl⟩

/-! ### Writes of G_CTRL (R428) -/

def gCtrlRow : RegRow := { off := 0x108, name := "G_CTRL", wo := 3, ru := 428 }

theorem regAt_gCtrl : regAt 0x50108 = some (pgGroup, gCtrlRow) :=
  regAt_of_page rfl (p := pgGroup) rfl rfl rfl

section GCtrl

variable {s : State} {a : Access} {v : Word} (hw : Performs s a 0x50000) (hpriv : Privileged a)
include hpriv

theorem judged_gCtrl : Judged s pgGroup gCtrlRow 0x108 v a.priv.toNat :=
  ⟨accessRefused_eq_none s _ hpriv rfl (.inl (by decide)), rfl, rfl, rfl, rfl⟩

include hw

/-- FORM of an entry that does not allow it is refused (R429). -/
theorem gCtrlForm_refused (h0 : bit v.toNat 0 = true) (h : s.formRefused (s.regF 0x50100 0 6) = true) :
    RefusedForState (.gCtrlForm a v) s a pgGroup 0xE6 0x108 := by
  have hst : s.stateRefused pgGroup 0x108 v = true := Bool.and_eq_true_iff.2 ⟨h0, h⟩
  have hwrite := accessWrite_of_stateRefused (v := v) (aux := .none) hw regAt_gCtrl (judged_gCtrl hpriv)
    (Bool.or_eq_true_iff.2 (.inr hst))
  exact refusedForState_of_exec (congrArg Host.Outcome.next hwrite) hw.mute ⟨by decide, by decide⟩ (by decide)
    (by decide)

theorem accessWrite_gCtrl (h : (bit v.toNat 0 && s.formRefused (s.regF 0x50100 0 6)) = false) :
    s.accessWrite a 0x50108 v = (s.writeGroup pgGroup gCtrlRow 0x108 v).respond a .rgwa 0 :=
  accessWrite_of_accepted (aux := .none) (p := pgGroup) hw regAt_gCtrl (judged_gCtrl hpriv) rfl (by decide) h

/-- An accepted FORM is answered once round 1 has started. -/
theorem answers_gCtrlForm (h0 : bit v.toNat 0 = true) (h1 : bit v.toNat 1 = false)
    (h : s.formRefused (s.regF 0x50100 0 6) = false) :
    Answers (.gCtrlForm a v) s ((s.form (s.regF 0x50100 0 6)).respond a .rgwa 0) (rgwaOf a 0) := by
  have hwrite := accessWrite_gCtrl (v := v) hw hpriv (by rw [h0, h]; rfl)
  have hform : s.writeGroup pgGroup gCtrlRow 0x108 v = s.form (s.regF 0x50100 0 6) := by
    simp [State.writeGroup, h0, h1]
  rw [hform] at hwrite
  have keep := s.form_keep (s.regF 0x50100 0 6)
  exact answers_of_respond (congrArg Host.Outcome.next hwrite) keep.out ((keep.same.same .mute (by decide)).trans hw.mute)

theorem answers_gCtrlDissolve (h0 : bit v.toNat 0 = false) (h1 : bit v.toNat 1 = true) :
    Answers (.gCtrlDissolve a v) s ((s.dissolve (s.regF 0x50100 0 6)).respond a .rgwa 0) (rgwaOf a 0) := by
  have hwrite := accessWrite_gCtrl (v := v) hw hpriv (by rw [h0]; rfl)
  have hdissolve : s.writeGroup pgGroup gCtrlRow 0x108 v = s.dissolve (s.regF 0x50100 0 6) := by
    simp [State.writeGroup, h0, h1]
  rw [hdissolve] at hwrite
  have keep := s.dissolve_keep (s.regF 0x50100 0 6)
  exact answers_of_respond (congrArg Host.Outcome.next hwrite) keep.out ((keep.same.same .mute (by decide)).trans hw.mute)

end GCtrl

@[simp] theorem State.group_respond (s : State) (a : Access) (op : TxnOp) (st aux g : Nat) :
    (s.respond a op st aux).group g = s.group g :=
  State.group_of_groups ((s.send_keep _).same.same .groups (by decide)) g

theorem State.ops_respond (s : State) (a : Access) (op : TxnOp) (st aux : Nat) : (s.respond a op st aux).ops = s.ops :=
  (s.send_keep _).same.same .ops (by decide)

/-- Settles O51: FORM by the entry that it leaves and the records of round 1, DISSOLVE by `group_dissolve` and
`op_dissolve`, CONCORD_ROUND by the records of round 2, CONCORD_EVALUATE by the bits of `exchangeMask` and the verdict.
What DISSOLVE keeps of the entry, and MASK bit 7, is log entry 48. -/
theorem groupsFormExchangeAndDissolve : Obligations.GroupsFormExchangeAndDissolve := by
  refine ⟨fun s a v hw hpriv => ?commands, fun s i => ?exchange⟩
  case commands =>
    intro i g valid own e ok
    have hown : own = s.ownSlots g := (s.ownSlots_eq g).symm
    have hok : ok ↔ s.formRefused i = false := by
      rw [State.formRefused_eq_false_iff, State.MayForm, ← hown]
      exact Iff.rfl
    refine ⟨fun h0 hno => ?refused, fun h0 h1 hmay => ?form, fun h0 h1 => ?dissolve⟩
    case refused => exact gCtrlForm_refused hw hpriv h0 (Bool.eq_true_of_not_eq_false fun h => hno (hok.2 h))
    case form =>
      have hans := answers_gCtrlForm hw hpriv h0 h1 (hok.1 hmay)
      obtain ⟨-, -, -, hone, -⟩ := hmay
      refine ⟨_, hans, ?_⟩
      rw [State.group_respond, State.group_form]
      refine ⟨rfl, rfl, rfl, hown.trans (State.ownSlots_of_length (hown ▸ hone)), rfl, fun m hm hself => ?_⟩
      exact (State.recordOut_form hw.mute (State.mem_others_formingGroup hm hself)).of_outst (State.outst_send _ _)
    case dissolve =>
      refine ⟨_, answers_gCtrlDissolve hw hpriv h0 h1, ?_⟩
      rw [State.group_respond, State.group_dissolve, State.ops_respond]
      refine ⟨rfl, rfl, rfl, rfl, fun hnone => ?_, fun id o w x hst hid ho hk he => ?_⟩
      · have hfence := State.fenceOf_eq_none hnone
        rw [State.mask_dissolvedGroup, hfence, State.dissolve_of_none hfence]
        exact ⟨rfl, rfl⟩
      · have hfence := (State.fenceOf_of_not_empty hst).trans hid
        rw [State.mask_dissolvedGroup, hfence, State.op_of_ops (State.ops_respond _ _ _ _ _)]
        exact ⟨rfl, State.op_dissolve hfence ho (by simp [hk]) he⟩
  case exchange =>
    intro g running there
    have hrunning : running ↔ g.exchanging = true := Group.exchanging_iff.symm
    refine ⟨fun hno => ?waits, fun hrun h2 hall hmute => ?round, fun hno => ?early, fun hrun h2 hall hmask => ?verdict⟩
    case waits =>
      rw [hrunning] at hno
      exact congrArg Host.Outcome.next (State.concordRound_of_not hno)
    case round =>
      obtain ⟨d, hd⟩ := s.concordSecond_eq i
      have hround := (State.concordRound_of (hrunning.1 hrun) h2 hall).trans hd
      refine ⟨_, congrArg Host.Outcome.next hround, ?_, fun m hm => ?_⟩
      · rw [State.group_concordSends, State.group_setGroup_same]
      · obtain ⟨x, hx, hwhy, hop, -⟩ := State.recordOut_concordSends
          (s := s.setGroup i { s.group i with round2 := true }) hmute i g 1 d hm
        exact ⟨x, hx, hwhy, hop⟩
    case early =>
      rw [hrunning] at hno
      exact congrArg Host.Outcome.next (State.concordEvaluate_of_not hno)
    case verdict =>
      obtain ⟨u, hu⟩ := State.concordEvaluate_of (hrunning.1 hrun) h2 hall hmask
      exact ⟨_, congrArg Host.Outcome.next hu, s.groupVerdict_exchangeMask u i g⟩

end Sys2Proof.Machine

/-! ## The fuses (O4) -/

namespace Sys2Proof.Machine

/-- Settles O4: an idle period blows no fuse, and the frame of every command bounds what it does to them (R441, R472). -/
theorem stepOnlyBlowsFuses : Obligations.StepOnlyBlowsFuses := by
  intro s t ht
  cases hq : s.pending with
  | nil =>
    have hidle : step s = .next (tick s) := by rw [step, hq]
    rw [hidle] at ht
    exact Host.Outcome.next.inj ht ▸ (tick_keep s).fuses
  | cons c rest =>
    obtain ⟨u, hu, hk⟩ := exec_next_keep c { s with pending := rest }
    rw [step_of_pending_cons hq, hu] at ht
    exact Host.Outcome.next.inj ht ▸ hk.fuses

end Sys2Proof.Machine

/-! ## Writes of SEC's CMD (R450, R451) -/

namespace Sys2Proof.Machine

theorem pgSec_aboveVectors : pgSec.AboveVectors := ⟨by decide, by decide⟩

/-! ### What a service posts -/

/-- Bits [7:0] of CMD name the service; its level, the boundary's error state and its session are checked in this order
(log entry 25). -/
def State.service (s : State) (code priv port : Nat) (r : SelfTestResult) : Service :=
  if code = 0 ∨ 12 < code then { st := s, result := 4 }
  else if !serviceLevel code priv then { st := s, result := 1 }
  else if s.sec.error then { st := s, result := 3 }
  else if serviceSession code && !s.sec.session then { st := s, result := 2 }
  else s.serve code priv port r

/-- MBOX takes the output, and a failure is captured (R450). -/
def Service.captured (x : Service) (code : Nat) : State :=
  let t := x.st.putMbox x.out
  if x.full then t.capture pgSec 1 [w32 code]
  else if x.result = 5 then t.capture pgSec 4 []
  else if x.result = 0 ∨ x.result = 7 then t
  else t.capture pgSec 1 [w32 code]

/-- CMD_STAT takes RESULT and the output's length, and INT_STATUS.DONE is set (R451). -/
def Service.ended (x : Service) (code : Nat) : State :=
  ((x.captured code).setRegN 0x54104 (x.result % 256 * 256 + x.out.length * 65536)).raise pgSec 1

theorem State.secCommand_eq (s : State) (v priv port : Nat) (r : SelfTestResult) :
    s.secCommand v priv port r = (s.service (fld v 0 8) priv port r).ended (fld v 0 8) := rfl

theorem State.reg_putMbox_other (s : State) (d : List Byte) {k : Nat} (h : k < 0x54400 ∨ 0x54600 ≤ k) :
    (s.putMbox d).reg k = s.reg k := by
  refine List.foldlRecOn (motive := fun (t : State) => t.reg k = s.reg k) (List.range 128) _ rfl fun t ht w hw => ?_
  rw [List.mem_range] at hw
  rw [State.reg_setRegN_other _ _ (by omega), ht]


theorem Service.captured_keep (x : Service) (code : Nat) : Keep raiseFields x.st (x.captured code) := by
  have hl := Sub.refl raiseFields
  have hput : Keep raiseFields x.st (x.st.putMbox x.out) := (Keep.refl _ _).putMbox _
  unfold Service.captured
  dsimp only
  split
  · exact hput.capture _ _ _
  · split
    · exact hput.capture _ _ _
    · split
      · exact hput
      · exact hput.capture _ _ _

theorem Service.ended_keep (x : Service) (code : Nat) : Keep raiseFields x.st (x.ended code) := by
  have hl := Sub.refl raiseFields
  exact ((x.captured_keep code).setRegN _ _).raise _ _

theorem Service.reg_captured_other (x : Service) (code : Nat) {k : Nat} (hr : ¬ pgSec.records k)
    (hm : k < 0x54400 ∨ 0x54600 ≤ k) : (x.captured code).reg k = x.st.reg k := by
  have hput := x.st.reg_putMbox_other x.out hm
  have hcap (cause : Nat) {ws : List Word} (hw : ws.length ≤ 5) :
      ((x.st.putMbox x.out).capture pgSec cause ws).reg k = x.st.reg k :=
    (State.reg_capture_other _ cause hw hr).trans hput
  unfold Service.captured
  dsimp only
  split
  · exact hcap 1 (by simp)
  · split
    · exact hcap 4 (by simp)
    · split
      · exact hput
      · exact hcap 1 (by simp)

theorem Service.reg_ended_other (x : Service) (code : Nat) {k : Nat} (hr : ¬ pgSec.records k) (hstat : k ≠ 0x54104)
    (hm : k < 0x54400 ∨ 0x54600 ≤ k) : (x.ended code).reg k = x.st.reg k := by
  rw [Service.ended, State.reg_raise_other _ _ hr, State.reg_setRegN_other _ _ hstat, x.reg_captured_other code hr hm]

/-- What a service that was performed leaves for software to read, and of the boundary. -/
structure Service.Posted (x : Service) (t : State) : Prop where
  stat : x.result < 256 → x.out.length < 65536 → t.regN 0x54104 = x.result * 256 + x.out.length * 65536
  done : bit (t.regN 0x54018) 0 = true
  sec : t.sec = x.st.sec
  fuses : t.fuses = x.st.fuses
  reg : ∀ k, 0x5404C ≤ k → k ≠ 0x54104 → k < 0x54400 ∨ 0x54600 ≤ k → t.reg k = x.st.reg k

/-- The answer to the write comes after the service has posted its end. -/
theorem Service.posted (x : Service) (code : Nat) (a : Access) (op : TxnOp) (status : Nat) :
    x.Posted ((x.ended code).respond a op status) := by
  have hsend := (x.ended code).send_keep
  have hkeep := (x.ended_keep code).same.same
  have hrec {k : Nat} (hk : 0x5404C ≤ k) : ¬ pgSec.records k := Page.not_records_of_le pgSec_aboveVectors hk
  refine ⟨fun hr hn => ?_, ?_, ?_, ?_, fun k hk hstat hm => ?_⟩
  · rw [State.regN_respond, State.regN, Service.ended, State.reg_raise_other _ _ (hrec (by decide)),
      State.reg_setRegN_same, toNat_w32 (by omega), Nat.mod_eq_of_lt hr]
  · rw [State.regN_respond]
    exact State.bit_raise_status _ pgSec_aboveVectors (by decide)
  · exact ((hsend _).same.same .sec (by decide)).trans (hkeep .sec (by decide))
  · exact ((hsend _).same.same .fuses (by decide)).trans (hkeep .fuses (by decide))
  · rw [State.reg_respond, x.reg_ended_other code (hrec hk) hstat hm]

theorem Service.Posted.written {x : Service} {t : State} (h : x.Posted t) : t.auditWritten = x.st.auditWritten :=
  h.reg 0x5510C (by decide) (by decide) (by decide)

/-! ### The write -/

/-- CMD (R451). -/
def cmdRow : RegRow := { off := 0x100, name := "CMD", wo := 0xFF, ru := 451 }

theorem regAt_cmd : regAt 0x54100 = some (pgSec, cmdRow) := regAt_of_page rfl (p := pgSec) rfl rfl rfl

section Cmd

variable {s : State} {a : Access} {v : Word} (hw : Performs s a 0x54000) (hpriv : Privileged a)
include hpriv

theorem judged_cmd : Judged s pgSec cmdRow 0x100 v a.priv.toNat :=
  ⟨accessRefused_eq_none s _ hpriv rfl (.inl (by decide)), rfl, rfl, rfl, rfl⟩

include hw

/-- A second service while one runs (R451). -/
theorem cmd_refused {c : Instr} (hc : exec c s = .next (s.accessWrite a 0x54100 v))
    (hbusy : bit (s.regN 0x54104) 0 = true) : RefusedForState c s a pgSec 0xE6 0x100 :=
  refusedForState_of_exec (hc.trans (congrArg Host.Outcome.next (accessWrite_of_stateRefused (p := pgSec) hw regAt_cmd
    (judged_cmd hpriv) (Bool.or_eq_true_iff.2 (.inr hbusy))))) hw.mute pgSec_aboveVectors (by decide) (by decide)

theorem accessWrite_cmd (hidle : bit (s.regN 0x54104) 0 = false) (aux : WriteAux) : s.accessWrite a 0x54100 v aux =
    (s.secCommand v.toNat a.priv.toNat a.port.val aux.test).respond a .rgwa 0 :=
  accessWrite_of_accepted (p := pgSec) hw regAt_cmd (judged_cmd hpriv) rfl (by decide) hidle

/-- A service that is called runs to its end and posts it. -/
theorem cmd_posted {c : Instr} {aux : WriteAux} (hc : exec c s = .next (s.accessWrite a 0x54100 v aux))
    (hidle : bit (s.regN 0x54104) 0 = false) {x : Service}
    (hx : s.service (v.toNat % 256) a.priv.toNat a.port.val aux.test = x) :
    ∃ t, Answers c s t (rgwaOf a 0) ∧ x.Posted t := by
  have hl := Sub.refl (allBut [.moved, .closing, .nextOp, .time, .latched, .therm, .mute, .stopped, .turn, .pending])
  have keep := (Keep.refl (allBut [.moved, .closing, .nextOp, .time, .latched, .therm, .mute, .stopped, .turn, .pending])
    s).secCommand v.toNat a.priv.toNat a.port.val aux.test
  have hexec := hc.trans (congrArg Host.Outcome.next (accessWrite_cmd hw hpriv hidle aux))
  refine ⟨_, answers_of_respond hexec keep.out ((keep.same.same .mute (by decide)).trans hw.mute), ?_⟩
  rw [State.secCommand_eq, fld_zero, ← hx]
  exact Service.posted _ _ _ _ _

end Cmd

/-! ### The checks of R450 -/

theorem State.service_unknown {s : State} {code : Nat} (h : code = 0 ∨ 12 < code) (priv port : Nat)
    (r : SelfTestResult) : s.service code priv port r = { st := s, result := 4 } := if_pos h

section Known

variable {s : State} {code priv : Nat} (h1 : 1 ≤ code) (h12 : code ≤ 12) (port : Nat) (r : SelfTestResult)
include h1 h12

theorem State.service_level (h : serviceLevel code priv = false) :
    s.service code priv port r = { st := s, result := 1 } := by
  simp [State.service, show ¬ (code = 0 ∨ 12 < code) by omega, h]

theorem State.service_error (h : serviceLevel code priv = true) (he : s.sec.error = true) :
    s.service code priv port r = { st := s, result := 3 } := by
  simp [State.service, show ¬ (code = 0 ∨ 12 < code) by omega, h, he]

theorem State.service_session (h : serviceLevel code priv = true) (he : s.sec.error = false)
    (hc : serviceSession code = true) (hs : s.sec.session = false) :
    s.service code priv port r = { st := s, result := 2 } := by
  simp [State.service, show ¬ (code = 0 ∨ 12 < code) by omega, h, he, hc, hs]

theorem State.service_serve (h : serviceLevel code priv = true) (he : s.sec.error = false)
    (hs : serviceSession code = false ∨ s.sec.session = true) : s.service code priv port r = s.serve code priv port r := by
  have hno : (serviceSession code && !s.sec.session) = false := by
    rcases hs with hs | hs <;> simp [hs]
  simp [State.service, show ¬ (code = 0 ∨ 12 < code) by omega, h, he, hno]

end Known

theorem serviceLevel_of_zero : ∀ code : Nat, code ≠ 2 → code ≠ 3 → serviceLevel code 0 = true := by
  intro code h2 h3
  unfold serviceLevel
  split
  case h_3 | h_4 => contradiction
  all_goals rfl

end Sys2Proof.Machine

/-! ## Refusals of a service (O45) -/

namespace Sys2Proof.Machine

section Cmd

variable {s : State} {a : Access} {v : Word} (hw : Performs s a 0x54000) (hpriv : Privileged a)
  (hidle : bit (s.regN 0x54104) 0 = false)
include hw hpriv hidle

/-- A service ends with a result of a byte and an output whose length CMD_STAT can hold. -/
theorem cmd_ends {c : Instr} {aux : WriteAux} (hc : exec c s = .next (s.accessWrite a 0x54100 v aux)) {x : Service}
    (hx : s.service (v.toNat % 256) a.priv.toNat a.port.val aux.test = x) {result n : Nat} {P : State → Prop}
    (hres : x.result = result) (hlen : x.out.length = n) (hr : result < 256) (hn : n < 65536)
    (hP : ∀ t, x.Posted t → P t) :
    ∃ t, Answers c s t (rgwaOf a 0) ∧ t.regN 0x54104 = result * 256 + n * 65536 ∧ bit (t.regN 0x54018) 0 = true ∧ P t := by
  subst hres hlen
  obtain ⟨t, ht, hp⟩ := cmd_posted hw hpriv hc hidle hx
  exact ⟨t, ht, hp.stat hr hn, hp.done, hP t hp⟩

/-- A service without output. -/
theorem cmd_ends_silent {c : Instr} {aux : WriteAux} (hc : exec c s = .next (s.accessWrite a 0x54100 v aux)) {x : Service}
    (hx : s.service (v.toNat % 256) a.priv.toNat a.port.val aux.test = x) {result : Nat} {P : State → Prop}
    (hres : x.result = result) (hout : x.out = []) (hr : result < 256) (hP : ∀ t, x.Posted t → P t) :
    ∃ t, Answers c s t (rgwaOf a 0) ∧ t.regN 0x54104 = result * 256 ∧ bit (t.regN 0x54018) 0 = true ∧ P t := by
  have h := cmd_ends hw hpriv hidle hc hx (n := 0) hres (by rw [hout]; rfl) hr (by decide) hP
  rwa [Nat.zero_mul, Nat.add_zero] at h

end Cmd

theorem serviceLevel_two_three {code : Nat} (h : code = 2 ∨ code = 3) : serviceLevel code 0 = false := by
  rcases h with rfl | rfl <;> rfl

/-- The services of the crypto officer, but ZEROISE, are for level 0 alone (R450). -/
theorem serviceLevel_officer {code : Nat} (h4 : 4 ≤ code) (h9 : code ≠ 9) (priv : Nat) :
    serviceLevel code priv = (priv == 0) := by
  unfold serviceLevel
  split
  case h_5 => rfl
  all_goals omega

theorem serviceSession_iff {code : Nat} : serviceSession code = true ↔ code = 7 ∨ code = 11 ∨ code = 12 := by
  simp [serviceSession, or_assoc]

/-- Settles O45: the first check of R450 that fails gives the result, and what the service leaves is the state that it
was called in (log entry 25). -/
theorem serviceRefusals : Obligations.ServiceRefusals := by
  intro s a v hw hpriv code ends
  have hc : exec (.rgwr a 0x54100 v) s = .next (s.accessWrite a 0x54100 v .none) := rfl
  refine ⟨fun hbusy => cmd_refused hw hpriv hc hbusy, fun hidle => ?_⟩
  have of_service {n : Nat} (hn : n < 256) (hx : s.service code a.priv.toNat a.port.val .pass = { st := s, result := n }) :
      ends n :=
    cmd_ends_silent hw hpriv hidle hc hx rfl rfl hn fun t hp => ⟨hp.sec, hp.fuses⟩
  refine ⟨fun h => of_service (by decide) (State.service_unknown h _ _ _), fun ⟨h, h0⟩ => ?_, fun ⟨h4, h12, h9, h1⟩ => ?_,
    fun ⟨h1, h12⟩ hlevel he => of_service (by decide) (State.service_error h1 h12 _ _ hlevel he),
    fun ⟨h, h0⟩ he hs => ?_⟩
  · exact of_service (by decide) (State.service_level (by omega) (by omega) _ _ (by rw [h0]; exact serviceLevel_two_three h))
  · refine of_service (by decide) (State.service_level (by omega) h12 _ _ ?_)
    rw [serviceLevel_officer h4 h9, h1]
    rfl
  · refine of_service (by decide) (State.service_session (by omega) (by omega) _ _ ?_ he (serviceSession_iff.2 h) hs)
    rw [serviceLevel_officer (by omega) (by omega), h0]
    rfl

end Sys2Proof.Machine

/-! ## What services are made of -/

namespace Sys2Proof.Machine

/-! ### Lengths of the boundary's strings -/

@[simp] theorem length_toLE (n x : Nat) : (toLE n x).length = n := by
  induction n generalizing x with
  | zero => rfl
  | succ n ih => rw [toLE, List.length_cons, ih]

@[simp] theorem length_toBE (n x : Nat) : (toBE n x).length = n := by
  rw [toBE, List.length_reverse, length_toLE]

/-- The numbers below 54 give the sixteen primes that the chaining value's start needs. -/
theorem sixteen_le_length_smallPrimes : 16 ≤ smallPrimes.length := by
  rw [smallPrimes, show 410 = 54 + 356 from rfl, List.range_add, List.filter_append, List.length_append]
  exact Nat.le_add_right_of_le (by decide +kernel)

theorem length_chainStart : chainStart.length = 8 := by
  have h (l : List Nat) (hl : 16 ≤ l.length) : (((l.drop 8).take 8).map (rootFraction 2)).length = 8 := by
    rw [List.length_map, List.length_take, List.length_drop]
    omega
  exact h smallPrimes sixteen_le_length_smallPrimes

theorem length_hashRound (k w : Nat) (l : List Nat) : (hashRound k w l).length = l.length := by
  unfold hashRound
  split
  · simp only [List.length_cons]
  · rfl

theorem length_hashRounds (ks sched work : List Nat) : (hashRounds ks sched work).length = work.length := by
  unfold hashRounds
  refine List.foldlRecOn (motive := fun x : List Nat × List Nat => x.2.length = work.length) ks _ rfl fun x hx k _ => ?_
  exact (length_hashRound _ _ _).trans hx

theorem length_hashBlock (chain : List Nat) (block : List Byte) : (hashBlock chain block).length = chain.length := by
  rw [hashBlock, List.length_zipWith, length_hashRounds, Nat.min_self]

/-- SHA-384 gives 48 bytes. -/
theorem length_sha384 (l : List Byte) : (sha384 l).length = 48 := by
  have hchain : ∀ (n : Nat) (p : List Byte), ((List.range n).foldl
      (fun c i => hashBlock c ((p.drop (128 * i)).take 128)) chainStart).length = 8 := fun n p =>
    List.foldlRecOn (motive := fun c : List Nat => c.length = 8) (List.range n) _ length_chainStart
      fun c hc i _ => (length_hashBlock c _).trans hc
  simp [sha384, List.length_flatMap, hchain]

/-- The imprint record has 400 bytes (R447). -/
theorem State.length_imprint (s : State) (nonce : List Byte) : (s.imprint nonce).length = 400 := by
  simp [State.imprint, length_fitBytes, zeros, State.configMeas, State.protMeas, length_sha384]

/-! ### Draws of the generator (R445) -/

theorem State.length_draw (s : State) (n : Nat) : (s.draw n).1.length = n := by
  simp only [State.draw, Drbg.generate, length_fitBytes]

theorem State.reg_withSec (s : State) (x : Sec) (k : Nat) : ({ s with sec := x } : State).reg k = s.reg k := rfl

/-- A draw counts a reseed in RESEEDS and changes no other register. -/
theorem State.reg_draw_other (s : State) (n : Nat) {k : Nat} (h : k ≠ 0x54118) : (s.draw n).2.reg k = s.reg k := by
  unfold State.draw
  dsimp only
  split
  · rw [State.reg_incReg_other _ _ h, State.seedDrbg, State.reg_withSec, State.reg_withSec]
  · rw [State.reg_withSec]

/-! ### Records of a service (R458, R459) -/

theorem State.audited_keep (s : State) (kind priv port arg : Nat) (data : List Byte) :
    Keep [.regs, .ports, .out, .outst, .vecBusy, .audit, .power] s (s.audited kind priv port arg data) :=
  have hl := Sub.refl [.regs, .ports, .out, .outst, .vecBusy, .audit, .power]
  (Keep.refl _ s).audited kind priv port arg data

@[simp] theorem State.sec_audited (s : State) (kind priv port arg : Nat) (data : List Byte) :
    (s.audited kind priv port arg data).sec = s.sec :=
  (s.audited_keep kind priv port arg data).same.same .sec (by decide)

@[simp] theorem State.fuses_audited (s : State) (kind priv port arg : Nat) (data : List Byte) :
    (s.audited kind priv port arg data).fuses = s.fuses :=
  (s.audited_keep kind priv port arg data).same.same .fuses (by decide)

@[simp] theorem State.auditWritten_audited (s : State) (kind priv port arg : Nat) (data : List Byte) :
    (s.audited kind priv port arg data).auditWritten = s.auditWritten + 1 := by
  rw [State.auditWritten, State.reg_audited _ _ _ _ _ _ (pgAudit_not_records (by decide)), State.reg_setReg_same]

theorem Service.logged_of_room {s : State} (h : s.auditRoom = true) (kind priv port arg : Nat) (data : List Byte)
    (f : State → Service) : Service.logged s kind priv port arg data f = f (s.audited kind priv port arg data) :=
  if_pos h

end Sys2Proof.Machine

/-! ## Services for users (O42) -/

namespace Sys2Proof.Machine

theorem State.serveRandom_of_length {s : State} (h1 : 1 ≤ s.mbox 0) (h512 : s.mbox 0 ≤ 512) :
    s.serveRandom = { st := (s.draw (s.mbox 0)).2, out := (s.draw (s.mbox 0)).1 } :=
  if_neg (by omega)

theorem State.serveRandom_of_bad_length {s : State} (h : s.mbox 0 = 0 ∨ 512 < s.mbox 0) :
    s.serveRandom = { st := s, result := 4 } :=
  if_pos h

theorem State.serveAttest_of_killed {s : State} (h : s.fuses.killed = true) : s.serveAttest = { st := s, result := 3 } :=
  if_pos h

theorem State.serveAttest_result {s : State} (h : s.fuses.killed = false) : s.serveAttest.result = 0 := by
  rw [State.serveAttest, h]
  rfl

/-- ATTEST answers the record and a signature of 96 bytes (R447). -/
theorem State.length_serveAttest {s : State} (h : s.fuses.killed = false) : s.serveAttest.out.length = 496 := by
  simp only [State.serveAttest, h, Bool.false_eq_true, if_false, List.length_append, State.length_imprint, length_fitBytes]

theorem State.attests_serveAttest {s : State} (h : s.fuses.killed = false) :
    s.serveAttest.st.reg 0x5411C = s.reg 0x5411C + 1 := by
  simp only [State.serveAttest, h, Bool.false_eq_true, if_false, State.reg_incReg_same]
  rw [State.reg_draw_other _ _ (by decide)]
  rfl

/-- Settles O42: each service is called at its own level (`service_serve`), and `cmd_ends` says what it posts. The entropy
of the generator is log entry 5. -/
theorem servicesForUsers : Obligations.ServicesForUsers := by
  intro s a v hw hidle he ends
  have hserved (code : Nat) (hv : v.toNat % 256 = code) (hcode : code = 1 ∨ code = 2 ∨ code = 3)
      (hlevel : serviceLevel code a.priv.toNat = true) :
      s.service (v.toNat % 256) a.priv.toNat a.port.val .pass = s.serve code a.priv.toNat a.port.val .pass := by
    rw [hv]
    refine State.service_serve (by omega) (by omega) _ _ hlevel he (.inl ?_)
    rcases hcode with rfl | rfl | rfl <;> rfl
  refine ⟨fun hv hpriv => ?_, fun hv h1 => ?_, fun hv h1 => ?_⟩
  · have hlevel : serviceLevel 1 a.priv.toNat = true := by
      rcases hpriv with h | h <;> rw [h] <;> rfl
    have hserve : s.serve 1 a.priv.toNat a.port.val .pass = { st := s.selfTest .pass } := by
      simp [State.serve, State.selfTest, he]
    exact cmd_ends hw hpriv hidle (aux := ⟨⟨[], []⟩, .pass⟩) rfl ((hserved 1 hv (.inl rfl) hlevel).trans hserve) rfl
      (by rfl) (by decide) (by decide) fun t hp => congrArg Sec.testOk hp.sec
  · have hlevel : serviceLevel 2 a.priv.toNat = true := by rw [h1]; rfl
    have hx := hserved 2 hv (.inr (.inl rfl)) hlevel
    refine ⟨fun ⟨hn, h512⟩ => ?_, fun hn => ?_⟩
    · exact cmd_ends hw (.inr h1) hidle rfl (hx.trans (State.serveRandom_of_length hn h512)) rfl (s.length_draw _)
        (by decide) (by omega) fun t hp => hp.sec
    · exact cmd_ends hw (.inr h1) hidle rfl (hx.trans (State.serveRandom_of_bad_length hn)) rfl rfl
        (by decide) (by decide) fun t hp => hp.sec
  · have hlevel : serviceLevel 3 a.priv.toNat = true := by rw [h1]; rfl
    have hx : _ = s.serveAttest := hserved 3 hv (.inr (.inr rfl)) hlevel
    refine ⟨fun hk => ?_, fun hk => ?_⟩
    · exact cmd_ends hw (.inr h1) hidle rfl hx (State.serveAttest_result hk) (State.length_serveAttest hk) (by decide)
        (by decide) fun t hp => (hp.reg _ (by decide) (by decide) (by decide)).trans (State.attests_serveAttest hk)
    · exact cmd_ends hw (.inr h1) hidle rfl (hx.trans (State.serveAttest_of_killed hk)) rfl rfl (by decide)
        (by decide) fun t hp => hp.sec

end Sys2Proof.Machine

/-! ## Login and session (O43) -/

namespace Sys2Proof.Machine

section Officer

variable {s : State} {a : Access} {v : Word} (hw : Performs s a 0x54000) (hidle : bit (s.regN 0x54104) 0 = false)
  (he : s.sec.error = false) (h0 : a.priv = 0)
include he h0

/-- Level 0 may call every service from 04h on, with the session that some ask for (R450). -/
theorem service_officer {code : Nat} (hv : v.toNat % 256 = code) (h4 : 4 ≤ code) (h12 : code ≤ 12)
    (hs : serviceSession code = false ∨ s.sec.session = true) :
    s.service (v.toNat % 256) a.priv.toNat a.port.val .pass = s.serve code 0 a.port.val .pass := by
  rw [hv, h0]
  exact State.service_serve (by omega) h12 _ _ (serviceLevel_of_zero code (by omega) (by omega)) he hs

end Officer

theorem State.length_serveChallenge (s : State) : s.serveChallenge.out.length = 48 := by
  rw [State.serveChallenge, State.length_draw]

theorem State.challenge_serveChallenge (s : State) : s.serveChallenge.st.sec.challenge = some (s.draw 48).1 := by
  rw [State.serveChallenge]

theorem State.serveLogin_locked {s : State} (h : 8 ≤ s.sec.failed) (priv port : Nat) :
    s.serveLogin priv port = { st := s, result := 3 } :=
  if_pos h

/-- A login that may be tried uses up the challenge and is recorded, whether it succeeds or not (R450, R458). -/
theorem State.serveLogin_tried {s : State} (h : s.sec.failed < 8) (hroom : s.auditRoom = true) (priv port : Nat) :
    s.serveLogin priv port =
      let t := s.audited 7 priv port (b2n s.loginOk) []
      if s.loginOk then { st := { t with sec := { s.sec with challenge := none, session := true } } }
      else { st := { t with sec := { s.sec with challenge := none, failed := s.sec.failed + 1 } }, result := 5 } := by
  rw [State.serveLogin, if_neg (by omega), Service.logged_of_room hroom, State.sec_audited]

/-- CO_LOGOUT ends the session and is recorded (R450, R458). -/
theorem State.serve_logout {s : State} (hroom : s.auditRoom = true) (priv port : Nat) (r : SelfTestResult) :
    s.serve 6 priv port r =
      { st := { s.audited 8 priv port 0 [] with sec := { s.sec with session := false } } } := by
  rw [State.serve, Service.logged_of_room hroom, State.sec_audited]

/-- Settles O43: the three services of level 0 that need no session, each by what it does to the boundary and to the
audit log. -/
theorem cryptoOfficerSession : Obligations.CryptoOfficerSession := by
  intro s a v hw hidle he h0 hroom ends
  have hserved (code : Nat) (hv : v.toNat % 256 = code) (h4 : 4 ≤ code) (h12 : code ≤ 12)
      (hs : serviceSession code = false) := service_officer he h0 hv h4 h12 (.inl hs)
  refine ⟨fun hv => ?_, fun hv hfew => ?_, fun hv hmany => ?_, fun hv => ?_⟩
  · have hx : _ = s.serveChallenge := hserved 4 hv (by decide) (by decide) rfl
    refine cmd_ends hw (.inl h0) hidle rfl hx rfl s.length_serveChallenge (by decide) (by decide) fun t hp =>
      ⟨_, ?_, s.length_draw 48⟩
    rw [hp.sec, State.challenge_serveChallenge]
  · have hx := (hserved 5 hv (by decide) (by decide) rfl).trans (State.serveLogin_tried hfew hroom 0 a.port.val)
    refine ⟨fun hok => ?_, fun hbad => ?_⟩
    · rw [hok] at hx
      refine cmd_ends hw (.inl h0) hidle rfl hx rfl rfl (by decide) (by decide) fun t hp => ⟨hp.sec, ?_⟩
      exact hp.written.trans (State.auditWritten_audited _ _ _ _ _ _)
    · rw [hbad] at hx
      refine cmd_ends hw (.inl h0) hidle rfl hx rfl rfl (by decide) (by decide) fun t hp => ⟨hp.sec, ?_⟩
      exact hp.written.trans (State.auditWritten_audited _ _ _ _ _ _)
  · exact cmd_ends hw (.inl h0) hidle rfl ((hserved 5 hv (by decide) (by decide) rfl).trans
      (State.serveLogin_locked hmany 0 a.port.val)) rfl rfl (by decide) (by decide) fun t hp => hp.sec
  · refine cmd_ends hw (.inl h0) hidle rfl ((hserved 6 hv (by decide) (by decide) rfl).trans
      (State.serve_logout hroom _ _ _)) rfl rfl (by decide) (by decide) fun t hp => ⟨hp.sec, ?_⟩
    exact hp.written.trans (State.auditWritten_audited _ _ _ _ _ _)

end Sys2Proof.Machine

/-! ## Keys and fuses (O44) -/

namespace Sys2Proof.Machine

/-- The key that LOAD_KEY takes out of MBOX, if it verifies (R442, R450). -/
def State.wrappedKey (s : State) : Option (List Byte) :=
  unwrapKey s.sec.kaPriv (s.mboxBytes 4 96) (s.mbox 0) s.fuses.serial.toNat (s.mboxBytes 100 40)

section Slots

variable {s : State} (priv port : Nat) (r : SelfTestResult)

theorem State.serve_loadKey_bad_slot (h : 15 < s.mbox 0) : s.serve 7 priv port r = { st := s, result := 4 } := by
  simp only [State.serve, State.serveLoadKey, if_pos h]

theorem State.serve_loadKey_bad_key (h : s.mbox 0 ≤ 15) (hk : s.wrappedKey = none) :
    s.serve 7 priv port r = { st := s, result := 7 } := by
  rw [State.wrappedKey] at hk
  rw [State.serve, State.serveLoadKey]
  simp only [hk, if_neg (Nat.not_lt.2 h)]

theorem State.serve_loadKey_key (h : s.mbox 0 ≤ 15) {k : List Byte} (hk : s.wrappedKey = some k)
    (hroom : s.auditRoom = true) : s.serve 7 priv port r =
      { st := { s.audited 4 priv port (s.mbox 0) (sha384 (s.mboxBytes 4 96)) with
                sec := { s.sec with keys := SMap.put s.sec.keys (s.mbox 0) (fitBytes 32 k) } } } := by
  rw [State.wrappedKey] at hk
  rw [State.serve, State.serveLoadKey]
  simp only [hk, if_neg (Nat.not_lt.2 h), Service.logged_of_room hroom, State.sec_audited]

theorem State.serve_clearKey_bad_slot (h : 15 < s.mbox 0) : s.serve 8 priv port r = { st := s, result := 4 } := by
  simp only [State.serve, State.serveClearKey, if_pos h]

theorem State.serve_clearKey_slot (h : s.mbox 0 ≤ 15) (hroom : s.auditRoom = true) : s.serve 8 priv port r =
    { st := { s.audited 5 priv port (s.mbox 0) [] with
              sec := { s.sec with keys := SMap.del s.sec.keys (s.mbox 0) } } } := by
  rw [State.serve, State.serveClearKey]
  simp only [if_neg (Nat.not_lt.2 h), Service.logged_of_room hroom, State.sec_audited]

end Slots

/-! ### Zeroisation (R441, R450) -/

/-- The generator as the next instantiation leaves it: the entropy is a free value (R445; log entry 5). -/
def State.freshDrbg (s : State) : Drbg := Drbg.zero.seed (fitBytes 96 (Config.entropy s.sec.seeds))

/-- A draw that no reseed follows (R445). -/
theorem State.sec_draw {s : State} (h : (s.sec.since + 1) % 65536 ≠ 0) (n : Nat) :
    (s.draw n).2.sec = { s.sec with drbg := (s.sec.drbg.generate n).2, since := s.sec.since + 1 } := by
  rw [State.draw]
  dsimp only
  rw [if_neg h]

theorem State.sec_newKeyPair (s : State) :
    s.newKeyPair.sec = { (s.draw 48).2.sec with kaPriv := (s.sec.drbg.generate 48).1 } := rfl

theorem State.sec_instantiate (s : State) :
    s.instantiate.sec = { s.sec with drbg := s.freshDrbg, since := 0, seeds := s.sec.seeds + 1 } := by
  simp only [State.instantiate, State.seedDrbg, State.freshDrbg]

/-- ZEROISE makes the first key pair of the generator that it instantiates (R450). -/
theorem State.sec_zeroise (s : State) : s.zeroise.sec = { s.sec with
    keys := [], challenge := none, session := false, kaPriv := (s.freshDrbg.generate 48).1,
    drbg := (s.freshDrbg.generate 48).2, since := 1, seeds := s.sec.seeds + 1 } := by
  have hfirst (u : State) : (u.instantiate.sec.since + 1) % 65536 ≠ 0 := by
    simp [State.sec_instantiate]
  rw [State.zeroise, State.sec_newKeyPair, State.sec_draw (hfirst _)]
  simp only [State.sec_instantiate, State.freshDrbg, Nat.zero_add]

/-- ZEROISE is recorded before it clears the boundary (R450, R458). -/
theorem State.serve_zeroise {s : State} (hroom : s.auditRoom = true) (port : Nat) (r : SelfTestResult) :
    s.serve 9 0 port r = { st := (s.audited 6 0 port 0 []).zeroise } := by
  rw [State.serve, if_neg (by decide), Service.logged_of_room hroom]

/-! ### Fuses (R441, R450) -/

section Fuses

variable {s : State} (priv port : Nat)

theorem State.serveFuseOwner_set (h : s.fuses.ownerHash ≠ none) : s.serveFuseOwner priv port = { st := s, result := 8 } := by
  rw [State.serveFuseOwner, if_pos (Option.isSome_iff_ne_none.2 h)]

theorem State.serveFuseOwner_blank (h : s.fuses.ownerHash = none) (hroom : s.auditRoom = true) :
    s.serveFuseOwner priv port = { st := { s.audited 9 priv port 1 (s.mboxBytes 0 48) with
      fuses := { s.fuses with ownerHash := some (s.mboxBytes 0 48) } } } := by
  rw [State.serveFuseOwner, h]
  simp only [Option.isSome_none, Bool.false_eq_true, if_false, Service.logged_of_room hroom, State.fuses_audited]

theorem State.serveRaiseSvn_room (hroom : s.auditRoom = true) : s.serveRaiseSvn priv port =
    { st := { s.audited 9 priv port 2 (toLE 4 (s.fuses.raiseSvn s.sec.svn).svnMin) with
              fuses := s.fuses.raiseSvn s.sec.svn } } := by
  rw [State.serveRaiseSvn, Service.logged_of_room hroom, State.fuses_audited]

theorem State.serveKill_no_code (h : s.mbox 0 ≠ 0x4B494C4C) : s.serveKill priv port = { st := s, result := 4 } := by
  rw [State.serveKill, if_pos h]

theorem State.serveKill_code (h : s.mbox 0 = 0x4B494C4C) (hroom : s.auditRoom = true) : s.serveKill priv port =
    { st := { s.audited 9 priv port 3 [] with fuses := { s.fuses with killed := true } } } := by
  rw [State.serveKill, if_neg (not_not_intro h), Service.logged_of_room hroom, State.fuses_audited]

end Fuses

/-- A fuse of SVN_MIN is blown where it was before or stands among the first `n` (R441). -/
theorem Fuses.getLsbD_raiseSvn (f : Fuses) (n : Nat) {k : Nat} (hk : k < 64) :
    (f.raiseSvn n).svnFuses.getLsbD k = (f.svnFuses.getLsbD k || decide (k < n)) := by
  rw [Fuses.raiseSvn, BitVec.getLsbD_or, BitVec.getLsbD_ofNat, Nat.testBit_two_pow_sub_one, decide_eq_true hk,
    Bool.true_and]
  congr 2
  simp [hk]

/-- Settles O44: each service of level 0 in a session, by what it does to the keys, the generator and the fuses. The
entropy of the generator is log entry 5, the private scalar that its bytes give log entry 6. -/
theorem keysAndFuses : Obligations.KeysAndFuses := by
  intro s a v hw hidle he h0 hroom hsession slot key d ends
  have ends_of (result : Nat) {code : Nat} (hv : v.toNat % 256 = code) (h4 : 4 ≤ code) (h12 : code ≤ 12) {c : Instr}
      (hc : exec c s = .next (s.accessWrite a 0x54100 v .none)) {x : Service}
      (hx : s.serve code 0 a.port.val .pass = x) (hres : x.result = result) (hr : result < 256)
      (hout : x.out = []) {P : State → Prop} (hP : ∀ t, x.Posted t → P t) : ends c result P :=
    cmd_ends_silent hw (.inl h0) hidle hc ((service_officer he h0 hv h4 h12 (.inr hsession)).trans hx) hres hout hr hP
  refine ⟨fun hv => ⟨fun hs => ?_, fun hs hk => ?_, fun k hs hk => ?_⟩, fun hv => ⟨fun hs => ?_, fun hs => ?_⟩,
    fun hv => ?_, fun hv => ⟨fun hblank => ?_, fun hset => ?_⟩, fun hv => ?_, fun hv => ⟨fun hc => ?_, fun hc => ?_⟩⟩
  · exact ends_of 4 hv (by decide) (by decide) rfl (State.serve_loadKey_bad_slot 0 _ _ hs) rfl (by decide) rfl
      fun t hp => hp.sec
  · exact ends_of 7 hv (by decide) (by decide) rfl (State.serve_loadKey_bad_key 0 _ _ hs hk) rfl (by decide) rfl
      fun t hp => hp.sec
  · refine ends_of 0 hv (by decide) (by decide) rfl (State.serve_loadKey_key 0 _ _ hs hk hroom) rfl (by decide) rfl
      fun t hp => ?_
    rw [hp.sec]
    exact ⟨SMap.find_put_same _ _ _, fun i hi => SMap.find_put_other _ _ hi⟩
  · exact ends_of 4 hv (by decide) (by decide) rfl (State.serve_clearKey_bad_slot 0 _ _ hs) rfl (by decide) rfl
      fun t hp => hp.sec
  · refine ends_of 0 hv (by decide) (by decide) rfl (State.serve_clearKey_slot 0 _ _ hs hroom) rfl (by decide) rfl
      fun t hp => ?_
    rw [hp.sec]
    exact ⟨SMap.find_del_same _ _, fun i hi => SMap.find_del_other _ hi⟩
  · refine ends_of 0 hv (by decide) (by decide) rfl (State.serve_zeroise hroom _ _) rfl (by decide) rfl fun t hp => ?_
    simp only [hp.sec, State.sec_zeroise, State.freshDrbg, State.sec_audited, d, and_self]
  · exact ends_of 0 hv (by decide) (by decide) rfl (State.serveFuseOwner_blank 0 _ hblank hroom) rfl (by decide) rfl
      fun t hp => hp.fuses
  · exact ends_of 8 hv (by decide) (by decide) rfl (State.serveFuseOwner_set 0 _ hset) rfl (by decide) rfl
      fun t hp => hp.fuses
  · refine ends_of 0 hv (by decide) (by decide) rfl (State.serveRaiseSvn_room 0 _ hroom) rfl (by decide) rfl fun t hp => ?_
    rw [hp.fuses]
    exact ⟨rfl, fun k hk => Fuses.getLsbD_raiseSvn _ _ hk⟩
  · exact ends_of 0 hv (by decide) (by decide) rfl (State.serveKill_code 0 _ hc hroom) rfl (by decide) rfl
      fun t hp => hp.fuses
  · exact ends_of 4 hv (by decide) (by decide) rfl (State.serveKill_no_code 0 _ hc) rfl (by decide) rfl
      fun t hp => hp.fuses

end Sys2Proof.Machine

/-! ## Protection entries and the end of a task (O46) -/

namespace Sys2Proof.Machine

/-! ### Writes of PROT (R452) -/

theorem pgProt_aboveVectors : pgProt.AboveVectors := ⟨by decide, by decide⟩

theorem pgProt_not_records {k : Nat} (h : 0x5604C ≤ k) : ¬ pgProt.records k :=
  Page.not_records_of_le pgProt_aboveVectors h

/-- APPLY (R452). -/
def applyRow : RegRow := { off := 0x140, name := "APPLY", wo := 0xFFFF00FF, ru := 452 }
/-- TASK_END (R452). -/
def taskEndRow : RegRow := { off := 0x148, name := "TASK_END", wo := 0xFFFF000F, ru := 452 }

theorem regAt_apply : regAt 0x56140 = some (pgProt, applyRow) := regAt_of_page rfl (p := pgProt) rfl rfl rfl
theorem regAt_taskEnd : regAt 0x56148 = some (pgProt, taskEndRow) := regAt_of_page rfl (p := pgProt) rfl rfl rfl

/-- The upper half of a word is its field [31:16]. -/
theorem fld_upper (v : Word) : fld v.toNat 16 16 = v.toNat / 2 ^ 16 := by
  have hv := v.isLt
  unfold fld
  omega

theorem State.protRefused_apply (s : State) (v : Word) :
    s.protRefused pgProt 0x140 v = if s.applyRefused v.toNat then some 1 else none := by
  simp [State.protRefused, pgProt]

theorem State.protRefused_taskEnd (s : State) (v : Word) :
    s.protRefused pgProt 0x148 v = if s.taskEndRefused v.toNat then some 2 else none := by
  simp [State.protRefused, pgProt]

theorem State.applyRefused_iff (s : State) (v : Word) :
    s.applyRefused v.toNat = true ↔ v.toNat / 2 ^ 16 ≠ s.regF 0x56144 0 16 ∨ s.auditRoom = false := by
  rw [State.applyRefused, fld_upper, Bool.or_eq_true, bne_iff_ne, Bool.not_eq_true']

/-- A write that PROT refuses for a reason of its own (R456). -/
theorem accessWrite_of_protRefused {s : State} {a : Access} {base off : Nat} {p : Page} {r : RegRow} {v : Word}
    {cause : Nat} (hw : Performs s a base) (hr : regAt off = some (p, r))
    (haccess : s.accessRefused p r (off - p.base) a.priv.toNat = none) (hdark : s.darkPage p = false)
    (hcommit : s.commitRefused p r (off - p.base) v = none)
    (hencoding : reservedValue p.kind (off - p.base) v.toNat = false)
    (hprot : s.protRefused p (off - p.base) v = some cause) :
    s.accessWrite a off v = ((s.capture p cause [v]).noteRefusal p).respond a .rgwa 0x11 := by
  rw [accessWrite_of_row hw hr]
  simp only [State.writeRegister, haccess, hdark, hcommit, hencoding, hprot, Bool.false_eq_true, if_false]

theorem State.refusedOwn_keep (s : State) (cause : Nat) (v : Word) :
    Keep raiseFields s ((s.capture pgProt cause [v]).noteRefusal pgProt) :=
  have hl := Sub.refl raiseFields
  ((Keep.refl _ s).capture _ _ _).noteRefusal _

/-- Such a refusal is answered with STATUS 11h, counted, and recorded with the value written (R325, R326, R456). -/
theorem answers_protRefused {c : Instr} {s : State} {a : Access} {v : Word} {cause : Nat} (hw : Performs s a 0x56000)
    (h : exec c s = .next (((s.capture pgProt cause [v]).noteRefusal pgProt).respond a .rgwa 0x11))
    (hcause : cause < 2 ^ 31) :
    ∃ t, Answers c s t (rgwaOf a 0x11) ∧ t.prot = s.prot ∧ t.reg 0x56048 = s.reg 0x56048 + 1 ∧
      (bit (s.regN 0x56020) 31 = false → t.regN 0x56020 = 2 ^ 31 + cause ∧ t.reg 0x56024 = v) := by
  have keep := s.refusedOwn_keep cause v
  have hother {o : Nat} (hcount : o ≠ 0x48) (hstat : o ≠ 0x18) :
      ((s.capture pgProt cause [v]).noteRefusal pgProt).reg (pgProt.base + o) =
        (s.capture pgProt cause [v]).reg (pgProt.base + o) := by
    rw [State.noteRefusal_eq _ (by decide), State.reg_raise_page _ _ pgProt_aboveVectors hstat,
      State.reg_incReg_other _ _ (by omega)]
  refine ⟨_, answers_of_respond h keep.out ((keep.same.same .mute (by decide)).trans hw.mute), ?_, ?_,
    fun hempty => ⟨?_, ?_⟩⟩
  · exact ((State.send_keep _ _).same.same .prot (by decide)).trans (keep.same.same .prot (by decide))
  · have hcount : ((s.capture pgProt cause [v]).noteRefusal pgProt).reg (pgProt.base + 0x48) =
        inc (s.reg (pgProt.base + 0x48)) := by
      rw [State.noteRefusal_eq _ (by decide), State.reg_raise_page _ _ pgProt_aboveVectors (by decide),
        State.reg_incReg_same, State.reg_capture_refusals _ _ (by simp) pgProt_aboveVectors]
    exact (State.reg_respond _ _ _ _ _ _).trans hcount
  · have hcapture := (hother (o := 0x20) (by decide) (by decide)).trans
      (s.reg_capture_cause cause [v] pgProt_aboveVectors hempty)
    rw [State.regN_respond]
    exact (congrArg BitVec.toNat hcapture).trans (toNat_w32 (by omega))
  · exact (State.reg_respond _ _ _ _ _ _).trans ((hother (o := 0x24) (by decide) (by decide)).trans
      (s.reg_capture_word cause v [] pgProt_aboveVectors hempty))

section Prot

variable {s : State} {a : Access} {v : Word} (hw : Performs s a 0x56000) (h0 : a.priv = 0)
include hw h0

theorem protApply_refused (h : s.applyRefused v.toNat = true) : exec (.protApply a v) s =
    .next (((s.capture pgProt 1 [v]).noteRefusal pgProt).respond a .rgwa 0x11) := by
  have hp : s.protRefused pgProt 0x140 v = some 1 := by rw [State.protRefused_apply, h]; rfl
  exact congrArg _ (accessWrite_of_protRefused hw regAt_apply (by rw [h0]; rfl) rfl rfl rfl hp)

theorem taskEnd_refused (h : s.taskEndRefused v.toNat = true) : exec (.taskEnd a v) s =
    .next (((s.capture pgProt 2 [v]).noteRefusal pgProt).respond a .rgwa 0x11) := by
  have hp : s.protRefused pgProt 0x148 v = some 2 := by rw [State.protRefused_taskEnd, h]; rfl
  exact congrArg _ (accessWrite_of_protRefused hw regAt_taskEnd (by rw [h0]; rfl) rfl rfl rfl hp)

theorem exec_protApply (h : s.applyRefused v.toNat = false) : exec (.protApply a v) s =
    .next ((s.applyEntry v.toNat 0 a.port.val).respond a .rgwa 0) := by
  have hp : s.protRefused pgProt 0x140 v = none := by rw [State.protRefused_apply, h]; rfl
  have hj : Judged s pgProt applyRow 0x140 v a.priv.toNat := ⟨by rw [h0]; rfl, rfl, rfl, rfl, hp⟩
  have hwrite := accessWrite_of_accepted (aux := .none) (p := pgProt) hw regAt_apply hj rfl (by decide) rfl
  rw [h0] at hwrite
  exact congrArg _ hwrite

theorem exec_taskEnd (h : s.taskEndRefused v.toNat = false) : exec (.taskEnd a v) s =
    .next ((s.endNamed v.toNat).respond a .rgwa 0) := by
  have hp : s.protRefused pgProt 0x148 v = none := by rw [State.protRefused_taskEnd, h]; rfl
  have hj : Judged s pgProt taskEndRow 0x148 v a.priv.toNat := ⟨by rw [h0]; rfl, rfl, rfl, rfl, hp⟩
  exact congrArg _ (accessWrite_of_accepted (aux := .none) (p := pgProt) hw regAt_taskEnd hj rfl (by decide) rfl)

end Prot

/-! ### The entry that APPLY makes (R453) -/

theorem State.newEntry_eq (s : State) : s.newEntry =
    ⟨s.reg 0x56120, s.reg 0x56124, s.reg 0x56128, s.reg 0x5612C, s.reg 0x56130, s.reg 0x56134⟩ := rfl

theorem State.reg_withProt (s : State) (m : SMap ProtEntry) (k : Nat) : ({ s with prot := m } : State).reg k = s.reg k := rfl

theorem State.protEntry_respond (s : State) (a : Access) (op : TxnOp) (st aux e : Nat) :
    (s.respond a op st aux).protEntry e = s.protEntry e :=
  congrArg (SMap.getD · e ProtEntry.zero) ((s.send_keep _).same.same .prot (by decide))

theorem State.applyEntry_keep (s : State) (v priv port : Nat) :
    Keep [.regs, .ports, .out, .outst, .vecBusy, .prot, .audit, .power] s (s.applyEntry v priv port) :=
  have hl := Sub.refl [.regs, .ports, .out, .outst, .vecBusy, .prot, .audit, .power]
  (Keep.refl _ s).applyEntry v priv port

theorem State.prot_applyEntry (s : State) (v priv port : Nat) :
    (s.applyEntry v priv port).prot = SMap.putD s.prot (v % 256) s.newEntry ProtEntry.zero := by
  rw [State.applyEntry, fld_zero]
  refine ((State.raise_keep _ _ _).same.same .prot (by decide)).trans ?_
  rw [← (s.audited_keep 1 priv port (v % 2 ^ 8) s.newEntry.image).same.same .prot (by decide)]
  rfl

theorem State.reg_applyEntry_other (s : State) (v priv port : Nat) {k : Nat} (hk : 0x5604C ≤ k) (hgen : k ≠ 0x56144) :
    (s.applyEntry v priv port).reg k = s.reg k := by
  rw [State.applyEntry, State.reg_raise_other _ _ (pgProt_not_records hk), State.reg_incReg_other _ _ hgen,
    State.reg_withProt, State.reg_audited _ _ _ _ _ _ (pgAudit_not_records (by omega)), State.reg_setReg_other _ _ (by omega)]

theorem State.gen_applyEntry (s : State) (v priv port : Nat) :
    (s.applyEntry v priv port).reg 0x56144 = s.reg 0x56144 + 1 := by
  rw [State.applyEntry, State.reg_raise_other _ _ (pgProt_not_records (by decide)), State.reg_incReg_same,
    State.reg_withProt, State.reg_audited _ _ _ _ _ _ (pgAudit_not_records (by decide)),
    State.reg_setReg_other _ _ (by decide)]
  rfl

/-- An entry is recorded in the audit log before it is made (R453, R458). -/
theorem State.auditWritten_applyEntry (s : State) (v priv port : Nat) :
    (s.applyEntry v priv port).auditWritten = s.auditWritten + 1 := by
  have hrec : ¬ pgProt.records 0x5510C := by
    unfold Page.records
    decide
  rw [State.auditWritten, State.applyEntry, State.reg_raise_other _ _ hrec, State.reg_incReg_other _ _ (by decide),
    State.reg_withProt]
  exact State.auditWritten_audited _ _ _ _ _ _

theorem State.bit_applyEntry (s : State) (v priv port : Nat) :
    bit ((s.applyEntry v priv port).regN 0x56018) 0 = true :=
  State.bit_raise_status _ pgProt_aboveVectors (by decide)

/-! ### The end of a task (R455) -/

theorem State.queue_respond (s : State) (a : Access) (op : TxnOp) (st aux q : Nat) :
    (s.respond a op st aux).queue q = s.queue q :=
  State.queue_of_queues ((s.send_keep _).same.same .queues (by decide)) q

/-- A task that ends is a task of its queue no more. -/
theorem State.tasks_endTask (s : State) (q job : Nat) (dark : Bool) :
    ∀ x ∈ ((s.endTask q job dark).queue q).tasks, x.job ≠ job := by
  intro x hx
  rw [State.endTask, State.queue_setQueue_same] at hx
  simpa using List.of_mem_filter hx

theorem State.endNamed_eq (s : State) (v : Word) :
    ∃ dark, s.endNamed v.toNat = s.endTask (v.toNat % 16) (v.toNat / 2 ^ 16) dark := by
  unfold State.endNamed
  simp only [fld_upper, fld_zero]
  split
  · exact ⟨_, rfl⟩
  · exact ⟨_, rfl⟩

/-- Settles O46: APPLY by what `applyEntry` leaves, the refusals by PROT's own causes, TASK_END by what `endTask` takes
off its queue. -/
theorem protectionEntryIsApplied : Obligations.ProtectionEntryIsApplied := by
  intro s a v hw h0 i refused
  have htask : s.taskEndRefused v.toNat = s.taskRuns (v.toNat % 16) (v.toNat / 2 ^ 16) := by
    rw [State.taskEndRefused, fld_upper, fld_zero, show 2 ^ 4 = 16 from rfl]
  refine ⟨fun hgen hroom => ?_, fun h => ?_, fun hrun => ?_, fun hidle => ?_⟩
  · have happly : s.applyRefused v.toNat = false := by
      rw [Bool.eq_false_iff, ne_eq, State.applyRefused_iff, hgen, hroom]
      simp
    have keep := s.applyEntry_keep v.toNat 0 a.port.val
    have hprot := s.prot_applyEntry v.toNat 0 a.port.val
    refine ⟨_, answers_of_respond (exec_protApply hw h0 happly) keep.out ((keep.same.same .mute (by decide)).trans hw.mute),
      ?_, fun k hk => ?_, ?_, ?_, ?_⟩
    · rw [← State.newEntry_eq, State.protEntry_respond, State.protEntry, hprot, SMap.getD_putD_same]
    · rw [State.protEntry_respond, State.protEntry, hprot, SMap.getD_putD_other _ _ _ _ hk]
      rfl
    · exact (State.reg_respond _ _ _ _ _ _).trans (s.gen_applyEntry _ _ _)
    · exact (State.reg_respond _ _ _ _ _ _).trans (s.auditWritten_applyEntry _ _ _)
    · rw [State.regN_respond]
      exact s.bit_applyEntry _ _ _
  · exact answers_protRefused hw (protApply_refused hw h0 ((s.applyRefused_iff v).2 h)) (by decide)
  · exact answers_protRefused hw (taskEnd_refused hw h0 (htask.trans hrun)) (by decide)
  · obtain ⟨dark, hend⟩ := s.endNamed_eq v
    have hl := Sub.refl [.regs, .shad, .store, .full, .banks, .owners, .endedOwners, .stage, .cores, .islands, .queues,
      .ports, .out, .outst, .vecBusy, .power]
    have keep : Keep [.regs, .shad, .store, .full, .banks, .owners, .endedOwners, .stage, .cores, .islands, .queues,
      .ports, .out, .outst, .vecBusy, .power] s (s.endNamed v.toNat) := (Keep.refl _ s).endNamed v.toNat
    refine ⟨_, answers_of_respond (exec_taskEnd hw h0 (htask.trans hidle)) keep.out
      ((keep.same.same .mute (by decide)).trans hw.mute), ?_⟩
    rw [State.queue_respond, hend]
    exact s.tasks_endTask _ _ _

end Sys2Proof.Machine

/-! ## Start-up steps that pass, the ports' training apart (R462 to R470) -/

namespace Sys2Proof.Machine

/-! ### The next step (R460, R462) -/

theorem State.inStep_iff {s : State} {n : Nat} :
    s.inStep n = true ↔ s.bootStep = n ∧ s.bootFailed = false ∧ s.stopped = false := by
  simp [State.inStep, and_assoc]

/-- The next step writes its time, the total and BOOT. -/
theorem State.reg_nextStep_other (s : State) (n : Nat) {k : Nat} (hstep : k ≠ 0x1110 + 4 * (n - 1)) (htotal : k ≠ 0x1134)
    (hboot : k ≠ bootKey) : (s.nextStep n).reg k = s.reg k := by
  rw [State.nextStep]
  dsimp only
  rw [State.reg_setRegF_other _ _ _ _ hboot, State.reg_setReg_other _ _ htotal, State.reg_setReg_other _ _ hstep]
  rfl

theorem State.nextStep_keep (s : State) (n : Nat) : Keep [.regs, .free] s (s.nextStep n) :=
  have hl := Sub.refl [.regs, .free]
  (Keep.refl _ s).nextStep n

/-- A step that leaves BOOT as it was leads to the next one. -/
theorem State.nextStep_passes {s u : State} {n : Nat} (hs : s.inStep n = true) (hn : n < 15)
    (hu : u.reg bootKey = s.reg bootKey) : (u.nextStep n).bootStep = n + 1 ∧ (u.nextStep n).bootFailed = false := by
  obtain ⟨-, hfail, -⟩ := State.inStep_iff.1 hs
  have hboot (w x : Word) : (((({ u with free := u.free + 1 } : State).setReg (0x1110 + 4 * (n - 1)) w).setReg 0x1134 x)).regF
      bootKey 4 1 = s.regF bootKey 4 1 := by
    rw [State.regF, State.regN, State.reg_setReg_other _ _ (by decide), State.reg_setReg_other _ _ (by unfold bootKey; omega),
      State.regF, State.regN, ← hu]
    rfl
  refine ⟨?_, ?_⟩
  · exact (State.regF_setRegF_same _ _ (by decide)).trans (Nat.mod_eq_of_lt (by omega))
  · rw [State.bootFailed] at hfail ⊢
    rw [State.nextStep]
    dsimp only
    rw [State.regF_setRegF_disjoint _ _ (by decide) (.inr (by decide))]
    rw [← hfail]
    exact congrArg (· == 1) (hboot _ _)

/-! ### Steps 3, 4, 8 and 9 -/

theorem State.fuseRead_agree {s : State} (hs : s.inStep 3 = true) : s.fuseRead true = s.nextStep 3 := by
  rw [State.fuseRead, if_pos hs, if_pos rfl]

/-- The boundary as step 4 leaves it when its self-tests pass. -/
def State.booted (s : State) : State :=
  let t := s.instantiate.newKeyPair.selfTest .pass
  t.setRegF 0x40120 0 4 t.time.ref

theorem State.stewardBoot_pass {s : State} (hs : s.inStep 4 = true) : s.stewardBoot .pass = s.booted.nextStep 4 := by
  rw [State.stewardBoot, if_pos hs]
  exact if_pos rfl

theorem State.testOk_booted (s : State) : s.booted.sec.testOk = true := rfl

theorem State.reg_booted_boot (s : State) : s.booted.reg bootKey = s.reg bootKey := by
  rw [State.booted, State.reg_setRegF_other _ _ _ _ (by decide)]
  have hdraw := s.instantiate.reg_draw_other 48 (k := bootKey) (by decide)
  have hpair : (s.instantiate.newKeyPair.selfTest .pass).reg bootKey = (s.instantiate.draw 48).2.reg bootKey := by
    rw [State.selfTest, State.reg_withSec, State.newKeyPair]
    exact State.reg_withSec _ _ _
  rw [hpair, hdraw, State.instantiate]
  dsimp only
  rw [State.reg_withSec, State.seedDrbg, State.reg_withSec]

theorem State.numericSelfTest_agree {s : State} (hs : s.inStep 8 = true) : s.numericSelfTest true =
    ({ s with cores := [], regs := s.regs.filter fun p => !testCleared p.1 } : State).nextStep 8 := by
  rw [State.numericSelfTest, if_pos hs, if_pos rfl]

/-- The registers of cores that the numeric self-test clears lie above every page. -/
theorem State.reg_testCleared_boot (s : State) :
    ({ s with cores := [], regs := s.regs.filter fun p => !testCleared p.1 } : State).reg bootKey = s.reg bootKey := by
  rw [State.reg, SMap.getD, SMap.find_filter_key s.regs (fun k => !testCleared k), if_pos (by decide)]
  rfl

theorem State.admission_waiting {s : State} (hs : s.inStep 9 = true) (h0 : s.admitSt = 0) :
    s.admission = ((s.latchConcord.setRegN 0x4010C 1).sideSignal 0x13 0).raiseIbi 6 := by
  rw [State.admission, hs, h0]
  rfl

theorem State.admitted_keep (s : State) : Keep [.ports, .out, .outst, .sb, .power] (s.latchConcord.setRegN 0x4010C 1)
    (((s.latchConcord.setRegN 0x4010C 1).sideSignal 0x13 0).raiseIbi 6) :=
  have hl := Sub.refl [.ports, .out, .outst, .sb, .power]
  ((Keep.refl _ _).sideSignal _ _).raiseIbi 6

/-! ### Step 6: the microcode image (R443, R444) -/

/-- An image that runs: its boot record, its version and measurement. -/
def State.runsImage (s : State) (v : HubView) : State :=
  let a := s.ucodeAddr
  let h := viewBytes v a 256
  let n := bytesAt h 12 4
  let meas := sha384 (h.take 160 ++ viewBytes v (a + 256) n)
  let t := ((s.bootReads a 256).bootReads (a + 256) n).audited 0 0 0xFF (bytesAt h 8 4) meas
  let t := t.setRegN 0x1108 (bytesAt h 4 4)
  { t with sec := { t.sec with svn := bytesAt h 8 4, ucodeMeas := meas } }

/-- Every check of R444 on the image at the address of SB_UCODE. -/
structure State.ImageGood (s : State) (v : HubView) : Prop where
  header : bootOk v s.ucodeAddr 256 = true
  valid : imageHeaderOk (viewBytes v s.ucodeAddr 256) = true
  body : bootOk v (s.ucodeAddr + 256) (bytesAt (viewBytes v s.ucodeAddr 256) 12 4) = true
  root : sha384 (((viewBytes v s.ucodeAddr 256).drop 64).take 96) = s.fuses.rootHash
  signature : ecdsaVerify (((viewBytes v s.ucodeAddr 256).drop 64).take 96)
    (sha384 ((viewBytes v s.ucodeAddr 256).take 160 ++
      viewBytes v (s.ucodeAddr + 256) (bytesAt (viewBytes v s.ucodeAddr 256) 12 4)))
    (((viewBytes v s.ucodeAddr 256).drop 160).take 96) = true
  svn : s.fuses.svnMin ≤ bytesAt (viewBytes v s.ucodeAddr 256) 8 4

theorem State.bootReads_keep (s : State) (a n : Nat) : Keep [.ports, .out, .power] s (s.bootReads a n) :=
  have hl := Sub.refl [.ports, .out, .power]
  (Keep.refl _ s).bootReads a n

theorem State.microcodeFetch_good {s : State} {v : HubView} (hs : s.inStep 6 = true) (h : s.ImageGood v) :
    s.microcodeFetch v = (s.runsImage v).nextStep 6 := by
  obtain ⟨hheader, hvalid, hbody, hroot, hsig, hsvn⟩ := h
  have hfuses : ((s.bootReads s.ucodeAddr 256).bootReads (s.ucodeAddr + 256)
      (bytesAt (viewBytes v s.ucodeAddr 256) 12 4)).fuses = s.fuses :=
    ((State.bootReads_keep _ _ _).same.same .fuses (by decide)).trans ((s.bootReads_keep _ _).same.same .fuses (by decide))
  rw [State.microcodeFetch, if_pos hs, State.runsImage]
  simp only [hheader, hvalid, hbody, hfuses, hroot, hsig, Nat.not_lt.2 hsvn, Bool.not_true, Bool.or_self, bne_self_eq_false,
    Bool.false_eq_true, if_false, decide_false]

/-- Registers that neither a read of the image nor its boot record writes. -/
theorem State.reg_imageRecord (s : State) (a n m k' : Nat) (d : List Byte) {k : Nat} (hrec : ¬ pgAudit.records k)
    (hk : k ≠ 0x5510C) :
    ((((s.bootReads a n).bootReads (a + n) m)).audited 0 0 0xFF k' d).reg k = s.reg k := by
  rw [State.reg_audited _ _ _ _ _ _ hrec, State.reg_setReg_other _ _ hk,
    State.reg_of_regs ((State.bootReads_keep _ _ _).same.same .regs (by decide)),
    State.reg_of_regs ((State.bootReads_keep _ _ _).same.same .regs (by decide))]

theorem State.reg_runsImage_boot (s : State) (v : HubView) : (s.runsImage v).reg bootKey = s.reg bootKey := by
  rw [State.runsImage]
  dsimp only
  rw [State.reg_withSec, State.reg_setRegN_other _ _ (by decide)]
  exact s.reg_imageRecord _ _ _ _ _ (by unfold Page.records; decide) (by decide)

theorem ofLE_lt (l : List Byte) : ofLE l < 256 ^ l.length := by
  induction l with
  | nil => decide
  | cons b t ih =>
    have hb := b.isLt
    rw [ofLE, List.length_cons, pow_succ]
    omega

theorem bytesAt_lt (l : List Byte) (o n : Nat) : bytesAt l o n < 256 ^ n := by
  refine (ofLE_lt _).trans_le (Nat.pow_le_pow_right (by decide) ?_)
  rw [List.length_take]
  exact Nat.min_le_left _ _

/-- UCODE_VER takes the image's UVER. -/
theorem State.regN_runsImage_version (s : State) (v : HubView) :
    (s.runsImage v).regN 0x1108 = bytesAt (viewBytes v s.ucodeAddr 256) 4 4 := by
  have h := bytesAt_lt (viewBytes v s.ucodeAddr 256) 4 4
  rw [State.regN, State.runsImage]
  dsimp only
  rw [State.reg_withSec, State.reg_setRegN_same, toNat_w32 (by omega)]

/-! ### Step 7: the store's self-test (R467) -/

/-- The stores as step 7 leaves them, with the repaired rows in REPAIR. -/
def State.storesReady (s : State) (obs : StoreTestObs) : State :=
  ({ s with store := [], full := [], banks := s.restingBanks } : State).setRegN 0x110C
    (obs.repaired.foldl (fun a p => a + p.2) 0 % 2 ^ 16 + 2 ^ 16 * obs.repaired.foldl (fun a p => max a p.2) 0)

theorem State.storeSelfTest_pass {s : State} {obs : StoreTestObs} (hs : s.inStep 7 = true)
    (hfew : ∀ p ∈ obs.repaired, p.2 ≤ 8) (hcore : obs.coreFail = false) :
    s.storeSelfTest obs = (s.storesReady obs).nextStep 7 := by
  have hany : (obs.repaired.any fun p => decide (8 < p.2)) = false := by
    simpa using hfew
  rw [State.storeSelfTest, if_pos hs, hany, hcore]
  rfl

/-- REPAIR counts the repaired rows modulo 65,536. -/
theorem State.rows_storesReady (s : State) (obs : StoreTestObs) :
    (s.storesReady obs).regF 0x110C 0 16 = (obs.repaired.map (·.2)).sum % 2 ^ 16 := by
  have hsum : obs.repaired.foldl (fun a p => a + p.2) 0 = (obs.repaired.map (·.2)).sum := by
    rw [List.sum_eq_foldl, List.foldl_map]
  rw [State.regF, State.regN, State.storesReady, State.reg_setRegN_same, hsum, fld_zero, w32, BitVec.toNat_ofNat]
  omega

end Sys2Proof.Machine

/-! ## The ports train (R266 to R274, R466) -/

namespace Sys2Proof.Machine

/-! ### What sending and raising leave of the ports' trainings -/

theorem State.train_send (s : State) (t : Txn) (q : Nat) : ((s.send t).port q).train = (s.port q).train := by
  obtain ⟨l, hl⟩ := s.port_send t q
  rw [hl]

theorem State.train_freeTags (s : State) (port vc q : Nat) : ((s.freeTags port vc).port q).train = (s.port q).train := by
  unfold State.freeTags
  dsimp only
  split
  · split
    · rfl
    · exact State.train_send _ _ _
  · rfl

theorem State.train_flush (s : State) (port stream : Nat) (why : Purpose) (q : Nat) :
    ((s.flush port stream why).port q).train = (s.port q).train := by
  unfold State.flush State.request
  split
  · rfl
  · dsimp only
    split
    · exact State.train_send _ _ _
    · exact State.train_freeTags _ _ _ _

theorem State.train_vectorSend (s : State) (v q : Nat) : ((s.vectorSend v).port q).train = (s.port q).train := by
  unfold State.vectorSend
  dsimp only
  split
  · rfl
  · exact State.train_flush _ _ _ _ _

theorem State.train_raise (s : State) (p : Page) (bits q : Nat) :
    ((s.raise p bits).port q).train = (s.port q).train := by
  unfold State.raise
  dsimp only
  split
  · rw [State.train_vectorSend]
    split
    · exact State.train_vectorSend _ _ _
    · rfl
  · split
    · exact State.train_vectorSend _ _ _
    · rfl

/-! ### What the training of a port leaves -/

/-- The registers that the training of a port writes: PORT_CTRL, those that hold its repair maps and credits, and those
that record its events. -/
def trainingKey (p k : Nat) : Prop :=
  (pgPort p).records k ∨ k = portKey p 0x104 ∨ (portKey p 0x110 ≤ k ∧ k < portKey p 0x200)

/-- Every register but those, and the state of every other port's training, stay. -/
structure State.TrainsOnly (s t : State) (p : Nat) : Prop where
  reg : ∀ k, ¬ trainingKey p k → t.reg k = s.reg k
  train : ∀ q, q ≠ p → (t.port q).train = (s.port q).train

theorem State.TrainsOnly.refl (s : State) (p : Nat) : s.TrainsOnly s p := ⟨fun _ _ => rfl, fun _ _ => rfl⟩

theorem State.TrainsOnly.trans {s t u : State} {p : Nat} (h : s.TrainsOnly t p) (g : t.TrainsOnly u p) :
    s.TrainsOnly u p :=
  ⟨fun k hk => (g.reg k hk).trans (h.reg k hk), fun q hq => (g.train q hq).trans (h.train q hq)⟩

theorem State.trainsOnly_setPort (s : State) (p : Nat) (x : Port) : s.TrainsOnly (s.setPort p x) p :=
  ⟨fun _ _ => rfl, fun _ hq => congrArg Port.train (State.port_setPort_other _ _ hq)⟩

theorem State.TrainsOnly.setPort {s t : State} {p : Nat} (h : s.TrainsOnly t p) (x : Port) :
    s.TrainsOnly (t.setPort p x) p :=
  h.trans (t.trainsOnly_setPort p x)

/-- A register of the port's page that its training writes. -/
theorem State.TrainsOnly.setRegN {s t : State} {p : Nat} (h : s.TrainsOnly t p) {k : Nat} (hk : trainingKey p k) (v : Nat) :
    s.TrainsOnly (t.setRegN k v) p := by
  refine ⟨fun j hj => ?_, h.train⟩
  rw [State.reg_setRegN_other _ _ fun he => hj (by rw [he]; exact hk), h.reg j hj]

theorem State.TrainsOnly.raise {s t : State} {p : Nat} (h : s.TrainsOnly t p) (bits : Nat) :
    s.TrainsOnly (t.raise (pgPort p) bits) p :=
  ⟨fun k hk => (State.reg_raise_other _ _ fun hr => hk (.inl hr)).trans (h.reg k hk),
    fun q hq => (State.train_raise _ _ _ _).trans (h.train q hq)⟩

theorem State.TrainsOnly.foldl {α : Type} {s t : State} {p : Nat} {g : State → α → State} {l : List α}
    (h : s.TrainsOnly t p) (hg : ∀ u x, x ∈ l → s.TrainsOnly u p → s.TrainsOnly (g u x) p) :
    s.TrainsOnly (l.foldl g t) p :=
  List.foldlRecOn (motive := fun u => s.TrainsOnly u p) l g h fun u hu x hx => hg u x hx hu

theorem trainingKey_of_range (p : Nat) {o : Nat} (h : 0x110 ≤ o ∧ o < 0x200) : trainingKey p (portKey p o) :=
  .inr (.inr (by unfold portKey; omega))

/-- The repair maps lie in REPAIR_IN and REPAIR_OUT. -/
theorem State.TrainsOnly.putRepair {s t : State} {p : Nat} (h : s.TrainsOnly t p) {o : Nat}
    (ho : o = repairIn ∨ o = repairOut) (codes : List Nat) (spare : Nat) : s.TrainsOnly (t.putRepair p o codes spare) p := by
  have hrange : 0x110 ≤ o ∧ o + 32 < 0x200 := by
    rcases ho with rfl | rfl <;> decide
  refine State.TrainsOnly.setRegN (State.TrainsOnly.foldl h fun u w hw hu => hu.setRegN ?_ _) ?_ _
  · rw [List.mem_range] at hw
    exact trainingKey_of_range p (by omega)
  · exact trainingKey_of_range p (by omega)

/-- The training of a port arms nothing. -/
theorem State.TrainsOnly.unarmed {s t : State} {p : Nat} (h : s.TrainsOnly t p) {q : Nat} (hq : Unarmed s (portKey q 0)) :
    Unarmed t (portKey q 0) := by
  have hk : ¬ trainingKey p (portKey q 0 + 0xF10) := by
    unfold trainingKey Page.records portKey pgPort
    simp only [Page.vector]
    omega
  rw [Unarmed, State.regN, h.reg _ hk]
  exact hq

/-! ### The states of a training whose receiver finds nothing (R269, R270) -/

/-- A port in a state of its first training, with no bond found bad, and which training sets have come. -/
structure Port.At (x : Port) (st : TrainSt) (ts1 ts2 : Bool) : Prop where
  train : x.train = st
  retrain : x.retrain = false
  bad : x.bad = []
  gotTs1 : x.gotTs1 = ts1
  gotTs2 : x.gotTs2 = ts2

/-- What is observed finds no bond bad in any state of a first training. -/
def cleanObs (obs : TrainObs) : Prop := ∀ st, badBonds obs st false = []

theorem Port.At.no_bad {x : Port} {st : TrainSt} {ts1 ts2 : Bool} (h : x.At st ts1 ts2) {obs : TrainObs}
    (ho : cleanObs obs) (st' : TrainSt) : (badBonds obs st' x.retrain).foldl setIns x.bad = [] := by
  rw [h.retrain, ho, h.bad]
  rfl

/-- Another state, with the same training sets. -/
theorem Port.At.enter {x y : Port} {st st' : TrainSt} {ts1 ts2 : Bool} (h : x.At st ts1 ts2) (htrain : y.train = st')
    (hbad : y.bad = []) (hrest : y.retrain = x.retrain ∧ y.gotTs1 = x.gotTs1 ∧ y.gotTs2 = x.gotTs2) : y.At st' ts1 ts2 :=
  ⟨htrain, hrest.1.trans h.retrain, hbad, hrest.2.1.trans h.gotTs1, hrest.2.2.trans h.gotTs2⟩

/-- The training of a port has come to a state, and has left all that it does not write. -/
structure State.Trains (s t : State) (p : Nat) (st : TrainSt) (ts1 ts2 : Bool) : Prop where
  arrived : (t.port p).At st ts1 ts2
  only : s.TrainsOnly t p

theorem State.Trains.setPort {s t : State} {p : Nat} (h : s.TrainsOnly t p) {x : Port} {st : TrainSt} {ts1 ts2 : Bool}
    (hx : x.At st ts1 ts2) : s.Trains (t.setPort p x) p st ts1 ts2 :=
  ⟨by rwa [State.port_setPort_same], h.setPort x⟩

section
variable {s t : State} {p : Nat} {obs : TrainObs} {st : TrainSt} {ts1 ts2 : Bool}

/-- Training starts with no bond bad and no training set taken. -/
theorem State.trains_begin (s : State) (p : Nat) : s.Trains (s.beginTraining p false) p .detect false false :=
  State.Trains.setPort (State.TrainsOnly.refl s p) ⟨rfl, rfl, rfl, rfl, rfl⟩

theorem State.Trains.lock (h : s.Trains t p .detect ts1 ts2) (ho : cleanObs obs) :
    s.Trains (t.trainingNext p obs) p .lock ts1 ts2 := by
  rw [State.trainingNext]
  simp only [h.arrived.train, h.arrived.no_bad ho]
  exact State.Trains.setPort h.only (h.arrived.enter rfl rfl ⟨rfl, rfl, rfl⟩)

theorem State.Trains.deskew (h : s.Trains t p .lock ts1 ts2) (ho : cleanObs obs) :
    s.Trains (t.trainingNext p obs) p .deskew ts1 ts2 := by
  rw [State.trainingNext]
  simp only [h.arrived.train, h.arrived.no_bad ho]
  exact State.Trains.setPort h.only (h.arrived.enter rfl rfl ⟨rfl, rfl, rfl⟩)

theorem State.Trains.test (h : s.Trains t p .deskew ts1 ts2) (ho : cleanObs obs) :
    s.Trains (t.trainingNext p obs) p .test ts1 ts2 := by
  rw [State.trainingNext]
  simp only [h.arrived.train, h.arrived.no_bad ho]
  exact State.Trains.setPort h.only (h.arrived.enter rfl rfl ⟨rfl, rfl, rfl⟩)

/-! MAP: nothing failed, and every width that PORT_CTRL allows is at hand. -/

theorem State.heldBonds_of_unarmed {s : State} {p : Nat} (h : Unarmed s (portKey p 0)) : s.heldBonds p = [] := by
  have hheld (l b : Nat) : s.heldBond p l b = false := by
    rw [State.heldBond, State.injects, h]
    rfl
  simp [State.heldBonds, hheld]

theorem State.widthIn_healthy (s : State) (p : Nat) :
    widthOf (healthyLanes (laneCodes []) (spareFor (laneCodes []))).length (s.maxWidth p) ≠ 0 := by
  have hlanes : (healthyLanes (laneCodes []) (spareFor (laneCodes []))).length = 32 := by decide +kernel
  rw [hlanes, State.maxWidth]
  split <;> decide

theorem State.Trains.map (h : s.Trains t p .test ts1 ts2) (ho : cleanObs obs) (hq : Unarmed s (portKey p 0)) :
    s.Trains (t.trainingNext p obs) p .map ts1 ts2 ∧ ((t.trainingNext p obs).port p).widthIn ≠ 0 := by
  have hheld (x : Port) : (t.setPort p x).heldFound p = (t.setPort p x, []) := by
    rw [State.heldFound, State.heldBonds_of_unarmed (s := t.setPort p x) (h.only.unarmed hq)]
    rfl
  rw [State.trainingNext]
  simp only [h.arrived.train, h.arrived.no_bad ho, hheld, List.foldl_nil, State.beginMap, State.port_setPort_same]
  refine ⟨State.Trains.setPort (State.TrainsOnly.setPort (State.TrainsOnly.putRepair (.setPort (.setPort h.only _) _)
    (.inl rfl) _ _) _) ⟨rfl, h.arrived.retrain, rfl, h.arrived.gotTs1, h.arrived.gotTs2⟩, ?_⟩
  exact State.widthIn_healthy _ p

/-! REPAIR: the training sets of a hub that found nothing to repair. -/

/-- A byte of a flit as the receiver of a training set reads it. -/
def tsByte (f : List Byte) (i : Nat) : Nat := ((f[i]?).getD 0).toNat

/-- The type, the width and the map of a hub's training set (R271). -/
theorem hubTs_map (q : Fin 32) :
    let b := tsByte (fitBytes 64 (hubTs q 1))
    b 0 = 3 ∧ b 4 = 1 ∧ b 7 = 32 ∧ b 41 = 0x3F ∧ ((List.range 33).map fun l => b (8 + l)) = List.replicate 33 0x3F := by
  revert q
  decide +kernel

/-- The type, the map and the credits of a hub's second training set. -/
theorem hubTs_credits (q : Fin 32) :
    let b := tsByte (fitBytes 64 (hubTs q 2))
    let c (o : Nat) : List Nat := (List.range 4).map fun v => b (o + 4 * v) + 256 * b (o + 1 + 4 * v)
    b 0 = 3 ∧ b 4 = 2 ∧ ((List.range 33).map fun l => b (8 + l)) = List.replicate 33 0x3F ∧
      c 44 = hubGrants.map (·.1) ∧ c 46 = hubGrants.map (·.2) := by
  revert q
  decide +kernel

theorem State.takeTs_map {s : State} (q : Fin 32) (hx : (s.port q).gotTs1 = false) :
    s.takeTs q (fitBytes 64 (hubTs q 1)) =
      (s.putRepair q repairOut (List.replicate 33 0x3F) 0x3F).setPort q { s.port q with gotTs1 := true, widthOut := 32 } := by
  obtain ⟨hsync, htype, hwidth, hspare, hcodes⟩ := hubTs_map q
  unfold tsByte at hsync htype hwidth hspare hcodes
  simp only [State.takeTs, hsync, htype, hwidth, hspare, hcodes, hx]
  rfl

theorem State.takeTs_credits {s : State} (q : Fin 32) (hx : (s.port q).gotTs2 = false) :
    s.takeTs q (fitBytes 64 (hubTs q 2)) =
      s.setPort q { s.port q with gotTs2 := true, hubHdr := hubGrants.map (·.1), hubData := hubGrants.map (·.2) } := by
  obtain ⟨hsync, htype, hcodes, hhdr, hdata⟩ := hubTs_credits q
  unfold tsByte at hsync htype hcodes hhdr hdata
  simp only [State.takeTs, hsync, htype, hcodes, hhdr, hdata, hx]
  rfl

theorem State.Trains.takesMap {q : Fin 32} (h : s.Trains t q st false ts2) :
    s.Trains (t.takeTs q (fitBytes 64 (hubTs q 1))) q st true ts2 ∧
      ((t.takeTs q (fitBytes 64 (hubTs q 1))).port q).widthIn = (t.port q).widthIn ∧
      ((t.takeTs q (fitBytes 64 (hubTs q 1))).port q).widthOut = 32 := by
  rw [State.takeTs_map q h.arrived.gotTs1, State.port_setPort_same]
  exact ⟨State.Trains.setPort (h.only.putRepair (.inr rfl) _ _)
    ⟨h.arrived.train, h.arrived.retrain, h.arrived.bad, rfl, h.arrived.gotTs2⟩, rfl, rfl⟩

theorem State.Trains.repair (h : s.Trains t p .map true ts2) (ho : cleanObs obs) (hin : (t.port p).widthIn ≠ 0)
    (hout : (t.port p).widthOut ≠ 0) : s.Trains (t.trainingNext p obs) p .repair true ts2 := by
  rw [State.trainingNext]
  simp only [h.arrived.train, h.arrived.no_bad ho, h.arrived.gotTs1, hin, hout, decide_false, Bool.not_true, Bool.or_self,
    Bool.false_eq_true, if_false, State.port_setPort_same]
  exact State.Trains.setPort (.setPort (.setPort h.only _) _) ⟨rfl, h.arrived.retrain, rfl, rfl, h.arrived.gotTs2⟩

theorem State.Trains.takesCredits {q : Fin 32} (h : s.Trains t q st ts1 false) :
    s.Trains (t.takeTs q (fitBytes 64 (hubTs q 2))) q st ts1 true := by
  rw [State.takeTs_credits q h.arrived.gotTs2]
  exact State.Trains.setPort h.only ⟨h.arrived.train, h.arrived.retrain, h.arrived.bad, h.arrived.gotTs1, rfl⟩

theorem State.Trains.align (h : s.Trains t p .repair ts1 true) (ho : cleanObs obs) :
    s.Trains (t.trainingNext p obs) p .align ts1 true := by
  rw [State.trainingNext]
  simp only [h.arrived.train, h.arrived.no_bad ho, h.arrived.gotTs2, if_true, State.beginAlign, State.port_setPort_same]
  exact State.Trains.setPort (.setPort h.only _) ⟨rfl, h.arrived.retrain, rfl, h.arrived.gotTs1, rfl⟩

/-! ALIGN: the alignment flit came on every active lane, and the port is UP. -/

/-- A port that is UP after its training. -/
structure State.TrainedUp (s t : State) (p : Nat) : Prop where
  up   : (t.port p).train = .up
  only : s.TrainsOnly t p

theorem State.TrainedUp.setRegN (h : s.TrainedUp t p) {k : Nat} (hk : trainingKey p k) (v : Nat) :
    s.TrainedUp (t.setRegN k v) p :=
  ⟨h.up, h.only.setRegN hk v⟩

theorem State.TrainedUp.portUp (h : s.TrainsOnly t p) (hx : (t.port p).retrain = false) : s.TrainedUp (t.portUp p) p := by
  have hport (x : Port) (hup : x.train = .up) : s.TrainedUp (t.setPort p x) p :=
    ⟨by rw [State.port_setPort_same, hup], h.setPort x⟩
  have hcredits (u : State) (f : Nat → Nat) (hu : s.TrainedUp u p) :
      s.TrainedUp ((List.range 4).foldl (fun t v => t.setRegN (portKey p (0x184 + 4 * v)) (f v)) u) p := by
    refine List.foldlRecOn (motive := fun u => s.TrainedUp u p) _ _ hu fun u hu v hv => ?_
    rw [List.mem_range] at hv
    exact hu.setRegN (trainingKey_of_range p (by omega)) _
  have hraise (u : State) (bits : Nat) (hu : s.TrainedUp u p) : s.TrainedUp (u.raise (pgPort p) bits) p :=
    ⟨(State.train_raise _ _ _ _).trans hu.up, hu.only.raise bits⟩
  have hctrl (u : State) (hu : s.TrainedUp u p) : s.TrainedUp (u.setRegF (portKey p 0x104) 0 1 0) p :=
    hu.setRegN (.inr (.inl rfl)) _
  rw [State.portUp]
  simp only [hx, Bool.false_eq_true, if_false]
  refine hctrl _ ?_
  split
  · exact hraise _ _ (hcredits _ _ (hport _ rfl))
  · exact hcredits _ _ (hport _ rfl)

theorem mem_foldl_setIns {l m : List Nat} {x : Nat} : x ∈ l.foldl setIns m ↔ x ∈ l ∨ x ∈ m := by
  induction l generalizing m with
  | nil => simp
  | cons a l ih =>
    rw [List.foldl_cons, ih, mem_setIns, List.mem_cons]
    tauto

theorem State.Trains.up (h : s.Trains t p .align ts1 ts2) (ho : cleanObs obs) :
    s.TrainedUp ((t.setPort p { t.port p with
      aligned := ((t.activeLanes p repairIn).map (·.1)).foldl setIns [] }).trainingNext p obs) p := by
  have hall (n : Nat) (l : List (Nat × Nat)) : (l.take n).all (fun l' => setHas ((l.map (·.1)).foldl setIns []) l'.1) = true := by
    refine List.all_eq_true.2 fun y hy => setHas_iff.2 (mem_foldl_setIns.2 (.inl (List.mem_map_of_mem ?_)))
    exact List.mem_of_mem_take hy
  have hlanes (x y : Port) : ((t.setPort p x).setPort p y).activeLanes p repairIn = t.activeLanes p repairIn := rfl
  rw [State.trainingNext]
  simp only [State.port_setPort_same, h.arrived.train, h.arrived.no_bad ho, hlanes, hall, if_true]
  exact State.TrainedUp.portUp (.setPort (.setPort h.only _) _) (by rw [State.port_setPort_same]; exact h.arrived.retrain)

end

/-! ### Every port trains (R269, R466) -/

/-- A hub that answers with training sets that ask for no repair, and a training that finds no bad bond. -/
structure GoodTraining (v : PortTrain) : Prop where
  clean   : cleanObs v.obs
  ts1     : v.ts1 = hubTs v.port 1
  ts2     : v.ts2 = hubTs v.port 2
  aligned : v.aligned = true

theorem plainTrain_good (p : Fin 32) : GoodTraining (plainTrain p) :=
  ⟨fun st => by cases st <;> rfl, rfl, rfl, rfl⟩

theorem State.trainPort_up {s : State} {v : PortTrain} (hv : GoodTraining v) (hq : Unarmed s (portKey v.port 0)) :
    s.TrainedUp (s.trainPort v) v.port := by
  obtain ⟨ho, hts1, hts2, haligned⟩ := hv
  rw [State.trainPort]
  simp only [hts1, hts2, haligned, if_true]
  have hdetect := s.trains_begin v.port
  generalize s.beginTraining v.port false = t at hdetect ⊢
  have htest := ((hdetect.lock ho).deskew ho).test ho
  generalize ((t.trainingNext v.port v.obs).trainingNext v.port v.obs).trainingNext v.port v.obs = t at htest ⊢
  obtain ⟨hmap, hin⟩ := htest.map ho hq
  generalize t.trainingNext v.port v.obs = t at hmap hin ⊢
  obtain ⟨hmapped, hkept, hout⟩ := hmap.takesMap
  have hrepair := (hmapped.repair ho (hkept.trans_ne hin) (hout.trans_ne (by decide))).takesCredits
  have halign := hrepair.align ho
  generalize (((t.takeTs _ _).trainingNext _ _).takeTs _ _).trainingNext v.port v.obs = t at halign ⊢
  rw [if_pos halign.arrived.train]
  exact halign.up ho

/-- The turn of one port in the trainings of all. -/
def State.trainTurn (obs : ContObs) (a : State × Option Nat) (p : Fin 32) : State × Option Nat :=
  match a.2 with
  | some d => (a.1, some d)
  | none =>
    if (a.1.port p.val).train = .up then (a.1, none)
    else
      let t := if obs.down.contains p then (a.1.beginTraining p.val false).portFails p.val
        else a.1.trainPort ((obs.trains.find? fun v => v.port == p).getD (plainTrain p))
      (t, if (t.port p.val).train = .up then none else some p.val)

theorem State.trainAll_eq (s : State) (obs : ContObs) : s.trainAll obs = (List.finRange 32).foldl (State.trainTurn obs) (s, none) :=
  rfl

theorem TrainsWell.training {s : State} {obs : ContObs} (h : TrainsWell s obs) (p : Fin 32) :
    ∃ v, GoodTraining v ∧ v.port = p ∧ (obs.trains.find? fun v => v.port == p).getD (plainTrain p) = v := by
  cases hv : obs.trains.find? fun v => v.port == p with
  | none => exact ⟨plainTrain p, plainTrain_good p, rfl, rfl⟩
  | some v =>
    obtain ⟨ho, hts1, hts2, haligned⟩ := h.trains v (List.mem_of_find?_eq_some hv)
    exact ⟨v, ⟨ho, hts1, hts2, haligned⟩, by simpa using List.find?_some hv, rfl⟩

theorem State.trainTurn_up {s : State} {obs : ContObs} (h : TrainsWell s obs) (p : Fin 32) :
    ∃ t, State.trainTurn obs (s, none) p = (t, none) ∧ s.TrainedUp t p := by
  by_cases hup : (s.port p).train = .up
  · exact ⟨s, if_pos hup, hup, State.TrainsOnly.refl s p⟩
  · obtain ⟨v, hgood, rfl, hv⟩ := h.training p
    have ht := State.trainPort_up hgood (h.unarmed v.port)
    refine ⟨s.trainPort v, ?_, ht⟩
    simp only [State.trainTurn, hup, if_false, h.down, List.contains_nil, Bool.false_eq_true, hv, ht.up, if_true]

theorem TrainsWell.next {s t : State} {obs : ContObs} {p : Nat} (h : TrainsWell s obs) (ht : s.TrainsOnly t p) :
    TrainsWell t obs :=
  ⟨h.down, fun q => ht.unarmed (h.unarmed q), h.trains⟩

/-- A register that the training of no port writes. -/
def untrainedKey (k : Nat) : Prop := ∀ p : Fin 32, ¬ trainingKey p k

theorem State.trainTurns_up {obs : ContObs} (l : List (Fin 32)) {s : State} (h : TrainsWell s obs) :
    ∃ t, l.foldl (State.trainTurn obs) (s, none) = (t, none) ∧
      (∀ p : Fin 32, p ∈ l ∨ (s.port p).train = .up → (t.port p).train = .up) ∧
      ∀ k, untrainedKey k → t.reg k = s.reg k := by
  induction l generalizing s with
  | nil => exact ⟨s, rfl, fun p hp => hp.resolve_left List.not_mem_nil, fun _ _ => rfl⟩
  | cons q l ih =>
    obtain ⟨u, hu, hup, honly⟩ := State.trainTurn_up h q
    obtain ⟨t, ht, hports, hregs⟩ := ih (h.next honly)
    refine ⟨t, by rw [List.foldl_cons, hu, ht], fun p hp => hports p ?_, fun k hk => (hregs k hk).trans (honly.reg k (hk q))⟩
    by_cases hpq : p = q
    · exact .inr (hpq ▸ hup)
    · rw [honly.train p fun he => hpq (Fin.ext he)]
      exact hp.imp_left fun hm => (List.mem_cons.1 hm).resolve_left hpq

theorem State.trainAll_up {s : State} {obs : ContObs} (h : TrainsWell s obs) :
    ∃ t, s.trainAll obs = (t, none) ∧ (∀ p : Fin 32, (t.port p).train = .up) ∧ ∀ k, untrainedKey k → t.reg k = s.reg k := by
  obtain ⟨t, ht, hports, hregs⟩ := State.trainTurns_up (List.finRange 32) h
  exact ⟨t, by rw [State.trainAll_eq, ht], fun p => hports p (.inl (List.mem_finRange p)), hregs⟩

/-! ### Step 5: the continuity check, and the trainings (R466) -/

/-- The failed loops of a port, as CONT shows them. -/
def contOf (obs : ContObs) (p : Nat) : Nat := ((obs.failed.find? fun x => x.1.val == p).map fun x => x.2.toNat).getD 0

/-- The state after the continuity check of the first ports. -/
def State.contSet (s : State) (obs : ContObs) (n : Nat) : State :=
  (List.range n).foldl (fun t p => t.setRegN (portKey p 0x10C) (contOf obs p)) s

theorem State.contSet_succ (s : State) (obs : ContObs) (n : Nat) :
    s.contSet obs (n + 1) = (s.contSet obs n).setRegN (portKey n 0x10C) (contOf obs n) := by
  rw [State.contSet, List.range_succ, List.foldl_append]
  rfl

theorem State.reg_contSet_other (s : State) (obs : ContObs) (n : Nat) {k : Nat} (hk : ∀ p < n, k ≠ portKey p 0x10C) :
    (s.contSet obs n).reg k = s.reg k := by
  induction n with
  | zero => rfl
  | succ n ih =>
    rw [State.contSet_succ, State.reg_setRegN_other _ _ (hk n (Nat.lt_succ_self n)), ih fun p hp => hk p (Nat.lt_succ_of_lt hp)]

theorem State.reg_contSet (s : State) (obs : ContObs) {n p : Nat} (hp : p < n) :
    (s.contSet obs n).reg (portKey p 0x10C) = w32 (contOf obs p) := by
  induction n with
  | zero => omega
  | succ n ih =>
    rw [State.contSet_succ]
    rcases Nat.lt_succ_iff_lt_or_eq.1 hp with hlt | rfl
    · rw [State.reg_setRegN_other _ _ (by unfold portKey; omega), ih hlt]
    · exact State.reg_setReg_same _ _ _

/-- CONT and BOOT are none of the registers that a training writes. -/
theorem untrained_cont (p : Fin 32) : untrainedKey (portKey p 0x10C) := by
  intro q
  unfold trainingKey Page.records portKey pgPort
  simp only [Page.vector]
  omega

theorem untrained_boot : untrainedKey bootKey := by
  intro q
  unfold trainingKey Page.records portKey pgPort bootKey
  simp only [Page.vector]
  omega

theorem TrainsWell.contSet {s : State} {obs : ContObs} (h : TrainsWell s obs) (n : Nat) : TrainsWell (s.contSet obs n) obs := by
  refine ⟨h.down, fun p => ?_, h.trains⟩
  rw [Unarmed, State.regN, State.reg_contSet_other _ _ _ fun q _ => by unfold portKey; omega]
  exact h.unarmed p

theorem State.portsStartup_up {s : State} {obs : ContObs} (hs : s.inStep 5 = true) (h : TrainsWell s obs) :
    ∃ u : State, s.portsStartup obs = u.nextStep 5 ∧ u.reg bootKey = s.reg bootKey ∧
      ∀ p : Fin 32, (u.port p).train = .up ∧ u.reg (portKey p 0x10C) = w32 (contOf obs p) := by
  obtain ⟨u, hu, hports, hregs⟩ := State.trainAll_up (h.contSet 32)
  refine ⟨u, ?_, ?_, fun p => ⟨hports p, ?_⟩⟩
  · unfold State.contSet contOf at hu
    simp only [State.portsStartup, hs, if_true, hu]
  · rw [hregs _ untrained_boot, State.reg_contSet_other _ _ _ fun q _ => by unfold portKey bootKey; omega]
  · rw [hregs _ (untrained_cont p), State.reg_contSet _ _ p.isLt]

end Sys2Proof.Machine

/-! ## Start-up steps 3 to 9 pass (R462 to R470) -/

namespace Sys2Proof.Machine

/-- A field that the passage to the next step leaves. -/
theorem State.same_nextStep (s : State) (n : Nat) {f : Field} (hf : f ≠ .regs ∧ f ≠ .free) : f.same s (s.nextStep n) :=
  (s.nextStep_keep n).same.same f (by simp [hf.1, hf.2])

theorem portsStartup_passes {s : State} {obs : ContObs} (hs : s.inStep 5 = true) (h : TrainsWell s obs) :
    ∃ t, exec (.portsStartup obs) s = .next t ∧ t.bootStep = 6 ∧ t.bootFailed = false ∧ ∀ p : Fin 32,
      (t.port p).train = .up ∧
        t.reg (portKey p 0x10C) = w32 (((obs.failed.find? fun x => x.1 == p).map fun x => x.2.toNat).getD 0) := by
  obtain ⟨u, hu, hboot, hports⟩ := State.portsStartup_up hs h
  obtain ⟨hstep, hfail⟩ := State.nextStep_passes hs (by decide) hboot
  refine ⟨_, congrArg Host.Outcome.next hu, hstep, hfail, fun p => ?_⟩
  obtain ⟨hup, hcont⟩ := hports p
  have hbeq : (fun x : Fin 32 × BitVec 6 => x.1.val == p.val) = fun x => x.1 == p := by
    funext x
    simp [Fin.ext_iff]
  constructor
  · rw [State.port, u.same_nextStep 5 (f := .ports) (by decide)]
    exact hup
  · rw [State.reg_nextStep_other _ _ (by unfold portKey; omega) (by unfold portKey; omega) (by unfold portKey bootKey; omega),
      hcont, contOf, hbeq]

theorem microcodeFetch_passes {s : State} {v : HubView} (hs : s.inStep 6 = true) (h : s.ImageGood v) :
    ∃ t, exec (.microcodeFetch v) s = .next t ∧ t.bootStep = 7 ∧ t.bootFailed = false ∧
      t.regN 0x1108 = bytesAt (viewBytes v s.ucodeAddr 256) 4 4 ∧
      t.sec.ucodeMeas = (s.runsImage v).sec.ucodeMeas ∧ t.sec.svn = bytesAt (viewBytes v s.ucodeAddr 256) 8 4 := by
  obtain ⟨hstep, hfail⟩ := State.nextStep_passes hs (by decide) (s.reg_runsImage_boot v)
  have hsec : ((s.runsImage v).nextStep 6).sec = (s.runsImage v).sec := State.same_nextStep _ _ (f := .sec) (by decide)
  refine ⟨_, congrArg Host.Outcome.next (State.microcodeFetch_good hs h), hstep, hfail, ?_, congrArg _ hsec, congrArg _ hsec⟩
  rw [State.regN, State.reg_nextStep_other _ _ (by decide) (by decide) (by decide)]
  exact s.regN_runsImage_version v

theorem storeSelfTest_passes {s : State} {obs : StoreTestObs} (hs : s.inStep 7 = true)
    (hfew : ∀ p ∈ obs.repaired, p.2 ≤ 8) (hcore : obs.coreFail = false) :
    ∃ t, exec (.storeSelfTest obs) s = .next t ∧ t.bootStep = 8 ∧ t.bootFailed = false ∧ t.store = [] ∧ t.full = [] ∧
      t.banks = s.restingBanks ∧ t.regF 0x110C 0 16 = (obs.repaired.map (·.2)).sum % 2 ^ 16 := by
  have hboot : (s.storesReady obs).reg bootKey = s.reg bootKey := State.reg_setRegN_other _ _ (by decide)
  obtain ⟨hstep, hfail⟩ := State.nextStep_passes hs (by decide) hboot
  refine ⟨_, congrArg Host.Outcome.next (State.storeSelfTest_pass hs hfew hcore), hstep, hfail, ?_, ?_, ?_, ?_⟩
  · exact State.same_nextStep _ _ (f := .store) (by decide)
  · exact State.same_nextStep _ _ (f := .full) (by decide)
  · exact State.same_nextStep _ _ (f := .banks) (by decide)
  · rw [State.regF, State.regN, State.reg_nextStep_other _ _ (by decide) (by decide) (by decide)]
    exact s.rows_storesReady obs

theorem admission_latches {s : State} (hs : s.inStep 9 = true) (h0 : s.admitSt = 0) :
    ∃ t, exec .admission s = .next t ∧ t.admitSt = 1 ∧ t.latched.ucode = s.reg 0x1108 := by
  refine ⟨_, congrArg Host.Outcome.next (State.admission_waiting hs h0), ?_, ?_⟩
  · rw [State.admitSt, State.regF, State.regN, State.reg_of_regs (s.admitted_keep.same.same .regs (by decide)),
      State.reg_setRegN_same]
    rfl
  · rw [s.admitted_keep.same.same .latched (by decide)]
    rfl

/-- Settles O13: each command of start-up, in its step and with its tests passing, leads to the next (R462 to R470). -/
theorem startupStepsPass : Obligations.StartupStepsPass := by
  intro s
  refine ⟨fun hs => ?_, fun hs => ?_, fun obs => portsStartup_passes, fun v hs => ?_, fun obs => storeSelfTest_passes,
    fun hs => ?_, admission_latches⟩
  · obtain ⟨hstep, hfail⟩ := State.nextStep_passes hs (by decide) rfl
    exact ⟨_, congrArg Host.Outcome.next (State.fuseRead_agree hs), hstep, hfail⟩
  · obtain ⟨hstep, hfail⟩ := State.nextStep_passes hs (by decide) s.reg_booted_boot
    refine ⟨_, congrArg Host.Outcome.next (State.stewardBoot_pass hs), hstep, hfail, ?_⟩
    rw [State.same_nextStep _ _ (f := .sec) (by decide)]
    exact s.testOk_booted
  · intro h body meas key hheader hvalid hbody hroot hsig hsvn
    exact microcodeFetch_passes hs ⟨hheader, hvalid, hbody, hroot, hsig, hsvn⟩
  · obtain ⟨hstep, hfail⟩ := State.nextStep_passes hs (by decide) s.reg_testCleared_boot
    exact ⟨_, congrArg Host.Outcome.next (State.numericSelfTest_agree hs), hstep, hfail⟩

end Sys2Proof.Machine
